-- ==== Sys2Proof/Word.lean ====
section
/-!
DEFINITION. Bytes, bit fields, signed fields and the two's-complement and little-endian readings of a number.
Bit fields are written [high:low] in the spec (00, Numbers and notation); here a field is given by its low bit and its width.
-/
namespace Sys2Proof

/-- A byte. -/
abbrev Byte := BitVec 8

/-- A string of bytes, the lowest address first. -/
abbrev Bytes := List Byte

/-- Bits [lo+w-1:lo] of a number. -/
def bits (v lo w : Nat) : Nat := (v >>> lo) % 2 ^ w

/-- Bit lo of a number. -/
def bit (v lo : Nat) : Bool := (v >>> lo) % 2 == 1

/-- The field of width w at bit lo of a configuration structure (R15: fields are given by their bits). -/
def fld {n : Nat} (v : BitVec n) (lo w : Nat) : Nat := bits v.toNat lo w

/-- The one-bit field at bit lo of a configuration structure. -/
def flag {n : Nat} (v : BitVec n) (lo : Nat) : Bool := bit v.toNat lo

/-- A number placed at bit lo. -/
def at' (v lo : Nat) : Nat := v <<< lo

/-- A truth value placed at bit lo. -/
def bAt (b : Bool) (lo : Nat) : Nat := if b then 1 <<< lo else 0

/-- The two's-complement reading of the low w bits of a number. -/
def signed (w v : Nat) : Int :=
  let u := v % 2 ^ w
  if u < 2 ^ (w - 1) then (u : Int) else (u : Int) - (2 ^ w : Nat)

/-- The low w bits of an integer, as a number (the way a signed value is stored). -/
def unsigned (w : Nat) (i : Int) : Nat := (i % ((2 ^ w : Nat) : Int)).toNat

/-- The signed field of width w at bit lo of a structure. -/
def sfld {n : Nat} (v : BitVec n) (lo w : Nat) : Int := signed w (fld v lo w)

/-- The integer nearest within lo to hi. -/
def clampInt (lo hi i : Int) : Int := if i < lo then lo else if hi < i then hi else i

/-- Division rounded up. -/
def ceilDiv (a b : Nat) : Nat := (a + b - 1) / b

/-- Division of integers, rounded to the nearest with ties away from zero (R26). -/
def roundDiv (a : Int) (b : Nat) : Int :=
  if a < 0 then -(((-a).toNat * 2 + b) / (2 * b) : Nat) else ((a.toNat * 2 + b) / (2 * b) : Nat)

/-- The smallest multiple of m (m > 0) that is at least n. -/
def alignUp (n m : Nat) : Nat := ceilDiv n m * m

/-- n little-endian bytes of a number (R14). -/
def leBytes : Nat → Nat → Bytes
  | 0, _ => []
  | n + 1, v => BitVec.ofNat 8 v :: leBytes n (v / 256)

/-- The number whose little-endian bytes are given (R14). -/
def ofLe : Bytes → Nat
  | [] => 0
  | b :: bs => b.toNat + 256 * ofLe bs

/-- n zero bytes. -/
def zeros (n : Nat) : Bytes := List.replicate n 0

/-- The little-endian number in n bytes at an offset of a byte string. -/
def leAt (bs : Bytes) (off n : Nat) : Nat := ofLe ((bs.drop off).take n)

/-- A byte string with m bytes from an offset replaced; bytes beyond its end are dropped. -/
def putBytes (bs : Bytes) (off : Nat) (new : Bytes) : Bytes :=
  if bs.length ≤ off then bs else (bs.take off ++ new ++ bs.drop (off + new.length)).take bs.length

/-- The largest value of a 64-bit counter, and its wrap (R10: the grove tick count wraps after 2^64). -/
def two64 : Nat := 2 ^ 64

/-- One bit step of the reflected CRC-32C register (R19: polynomial 0x1EDC_6F41, reflected 0x82F6_3B78). -/
def crcBit (c : Nat) : Nat := if c % 2 == 1 then (c / 2) ^^^ 0x82F63B78 else c / 2

/-- The CRC-32C register after one more byte. -/
def crcByte (c : Nat) (b : Byte) : Nat :=
  let c0 := c ^^^ b.toNat
  crcBit (crcBit (crcBit (crcBit (crcBit (crcBit (crcBit (crcBit c0)))))))

/-- CRC-32C of a byte string (R19). -/
def crc32c (bs : Bytes) : Nat := (bs.foldl crcByte 0xFFFFFFFF) ^^^ 0xFFFFFFFF

/-- A byte string followed by its CRC-32C, stored little-endian (R19). -/
def withCrc (bs : Bytes) : Bytes := bs ++ leBytes 4 (crc32c bs)

/-- Whether the last four bytes are the CRC-32C of the bytes before them (R19). -/
def crcOk (bs : Bytes) : Bool :=
  4 ≤ bs.length && leAt bs (bs.length - 4) 4 == crc32c (bs.take (bs.length - 4))

/-- The lowest index below n that has a property. -/
def lowest (n : Nat) (p : Nat → Bool) : Option Nat := (List.range n).find? p

/-- The indices below n of the bits set in a mask. -/
def maskList (n m : Nat) : List Nat := (List.range n).filter (bit m)

/-- The mask whose bits are the indices below n that have a property. -/
def maskOf (n : Nat) (p : Nat → Bool) : Nat := ((List.range n).filter p).foldl (fun a i => a + 2 ^ i) 0

/-- A list with the element at an index changed. -/
def modAt {α : Type} (l : List α) (i : Nat) (f : α → α) : List α := l.modify i f

end Sys2Proof
end

