-- ==== Sys2Proof/Types.lean ====
section
/-!
DEFINITION. The named things that commands and events speak of: paths, requesters, command headers and the like.
-/
namespace Sys2Proof

/-- The three paths by which commands reach a device (R328). -/
inductive Path where
  | pcie
  | bough
  | mailbox
deriving DecidableEq, Repr

/-- The index of a path, in the order of R493 (PCIe, BOUGH, MAILBOX). -/
def Path.idx : Path → Fin 3
  | .pcie => 0
  | .bough => 1
  | .mailbox => 2

/-- The three requesters of the status window, each with a shadow of its own (R218): host PCIe function 0, the Sapwood cores, the bough management path. -/
inductive Requester where
  | host
  | sapwood
  | bough
deriving DecidableEq, Repr

/-- The index of a requester, in the order of R218. -/
def Requester.idx : Requester → Fin 3
  | .host => 0
  | .sapwood => 1
  | .bough => 2

/-- The header of a command packet (R324, R325), with the tick of its examination.
VERSION, PAYLOAD_WORDS and the CRC are not fields here: a command row is a packet that carries them rightly, and COMMAND_RECEIVE takes the raw bytes. -/
structure Hdr where
  tick : Nat
  path : Path
  flags : BitVec 8
  ticket : BitVec 16
  dest : BitVec 16
  source : BitVec 16
  reserved : BitVec 32
deriving DecidableEq, Repr

/-- FLAGS [4] GROUP (R325). -/
def Hdr.group (h : Hdr) : Bool := flag h.flags 4
/-- FLAGS [3] QUIET (R325). -/
def Hdr.quiet (h : Hdr) : Bool := flag h.flags 3
/-- The TAG of the ticket (R324). -/
def Hdr.tag (h : Hdr) : Nat := fld h.ticket 4 12
/-- The GENERATION of the ticket (R324). -/
def Hdr.gen (h : Hdr) : Nat := fld h.ticket 0 4

/-- Where a register write goes (R490, R403): an offset of the BAR0 status window, by requester, or an address of a Sapwood core's map. -/
inductive WritePlace where
  | window (req : Requester) (offset : Nat)
  | sapwood (core : Fin 4) (addr : Nat)
deriving DecidableEq, Repr

/-- An access through BAR2 (R167): a read of n bytes, or a write. -/
inductive Bar2Op where
  | read (n : Nat)
  | write (data : Bytes)
deriving DecidableEq, Repr

/-- What the sample link of a bank delivers at the end of a slot (R45, R47): the bytes on the wire; the analog input of a block's samples in nV with whether the block arrives intact; the transmitter's stored copy, with whether it arrives intact; or nothing. -/
inductive LinkData where
  | wire (bytes : Bytes)
  | analog (nv : List Int) (intact : Bool)
  | replay (intact : Bool)
  | absent
deriving DecidableEq, Repr

/-- The estimate of the free slice at the end of a period (R222, R223): its offset, gain deviation and skew in the units of R248; none where a quantity was not estimated. -/
structure SliceEstimate where
  offset : Option Int
  gain : Option Int
  skew : Option Int
deriving DecidableEq, Repr

/-- The two loops that can drive the sample clocks (R255). -/
inductive WhichLoop where
  | main
  | fallback
deriving DecidableEq, Repr

/-- A memory request (R173): a read, or a write of a 32-byte unit under a byte mask. -/
inductive MemAccess where
  | read
  | write (data : Bytes) (mask : BitVec 32)
deriving DecidableEq, Repr

/-- What the error correction finds in returned data (R192): no error, a corrected error, or an uncorrectable one. -/
inductive Ecc where
  | clean
  | corrected
  | uncorrectable
deriving DecidableEq, Repr

/-- Which of a ring's waiting completions is written next: the ordered items of a group or a reply, a STREAM completion, a FETCH or DESC_ERROR, or an event (R212). -/
inductive CplLane where
  | item
  | stream
  | fetch
  | event
deriving DecidableEq, Repr

/-- The end of the ROM self-test (R462): every check passed, or the check that failed with its object. -/
inductive SelfTest where
  | passed
  | rom
  | sram
  | rail (i : Fin 12)
  | xo
  | quad (q : Fin 4)
  | thermal (sensor : Fin 6)
deriving DecidableEq, Repr

/-- What a phase of the self-calibration measured (R470, R471): for LEAKAGE the mask of quads with an active input; for a CONVERGE window nothing beyond the live state; for MEASURE the outcome and point of each quad. -/
inductive SelfPhaseEnd where
  | leakage (active : BitVec 4)
  | converge
  | measure (outcomes : List (BitVec 16)) (points : List Bytes)
deriving DecidableEq, Repr

end Sys2Proof
end

