-- ==== Sys2Proof/Syntax.lean ====
section
/-!
DEFINITION. The commands and events the block takes: one constructor per row of the opcode table, with the row's operands.
A command row carries its header (with its examination tick) and its payload; an event row carries the tick t at which it happens, on the internal tick scale.
-/
namespace Sys2Proof

/-- The commands and events of the engine, in the order of the table. -/
inductive Instr where
  /-- R358: Returns the command's payload unchanged. -/
  | sysEcho (h : Hdr) (data : Bytes)
  /-- R359: Returns the 64-byte identity, including the installed memory size and the ordering code. -/
  | sysIdentify (h : Hdr)
  /-- R494: Returns the 128-byte device status block, with every field taken in one beat. -/
  | sysStatus (h : Hdr)
  /-- R332: Sets up or disables the PCIe command ring and ring 4, zeroes their counts and clears the PCIe tag table. -/
  | cmdRingSetup (h : Hdr) (setup : BitVec 256)
  /-- R353: Returns the command ring setup in force. -/
  | cmdRingSetupQuery (h : Hdr)
  /-- R345: Reports whether a ticket was answered, never seen or superseded, and records a never-seen generation. -/
  | tagRetire (h : Hdr) (word : BitVec 32)
  /-- R360: Sends its reply, then puts the engine in RESET within 1 ms, as an assertion of PERST_N would. -/
  | sysReset (h : Hdr) (confirm : BitVec 32)
  /-- R361: Removes up to MAX of the oldest events from the on-die queue and returns them. -/
  | eventFetch (h : Hdr) (word : BitVec 32)
  /-- R261: Sets the clock plan; in IDLE a change of reference is a plan hop through coasting. -/
  | clockPlan (h : Hdr) (plan : BitVec 128)
  /-- R353: Returns the clock plan in force. -/
  | clockPlanQuery (h : Hdr)
  /-- R266: Arms a wait for a SYNCIN edge that makes the common start or re-aligns grove time; answered DEFERRED. -/
  | clockSync (h : Hdr) (syncTick : BitVec 64) (timeout : BitVec 16) (reserved : BitVec 16)
  /-- R281: Starts a slew of the grid phase by up to ±50,000 fs. -/
  | gridTrim (h : Hdr) (amount : BitVec 32)
  /-- R28: Sets the range, filter and offset of an input that is not in use; the reply waits for settling. -/
  | inputConfig (h : Hdr) (select : BitVec 32) (cfg : BitVec 32)
  /-- R353: Returns the input settings in force. -/
  | inputConfigQuery (h : Hdr) (select : BitVec 32)
  /-- R39: Changes a quad's fusion mode, retiming the bank clocks and retraining the sample links, or stores the mode for a quad that is off. -/
  | quadFusion (h : Hdr) (select : BitVec 32) (word : BitVec 32)
  /-- R353: Returns a quad's fusion mode. -/
  | quadFusionQuery (h : Hdr) (select : BitVec 32)
  /-- R366: Powers a quad off, or starts its power-on sequence with a DEFERRED reply. -/
  | quadPower (h : Hdr) (select : BitVec 32) (word : BitVec 32)
  /-- R353: Returns a quad's power setting. -/
  | quadPowerQuery (h : Hdr) (select : BitVec 32)
  /-- R61: Sets a trigger unit's configuration, restarts its condition and cancels any pending AT_TICK. -/
  | tuConfig (h : Hdr) (select : BitVec 32) (cfg : BitVec 256)
  /-- R353: Returns a trigger unit's configuration. -/
  | tuConfigQuery (h : Hdr) (select : BitVec 32)
  /-- R368: Sets a channel comparator's level and hysteresis and resets its state to LOW. -/
  | cmpConfig (h : Hdr) (select : BitVec 32) (cfg : BitVec 32)
  /-- R353: Returns a channel comparator's configuration. -/
  | cmpConfigQuery (h : Hdr) (select : BitVec 32)
  /-- R76: Sets a group's combiner masks, modes, delay and hold-off. -/
  | combinerConfig (h : Hdr) (select : BitVec 32) (cfg : BitVec 128)
  /-- R353: Returns a group's combiner configuration. -/
  | combinerConfigQuery (h : Hdr) (select : BitVec 32)
  /-- R96: Makes a SOFTWARE-unit event now, or schedules one at AT_TICK. -/
  | swTrigger (h : Hdr) (select : BitVec 32) (flags : BitVec 32) (atTick : BitVec 64)
  /-- R369: Sets a TRIGOUT source, width and delay, cancelling pulses not yet begun. -/
  | trigoutConfig (h : Hdr) (select : BitVec 32) (cfg : BitVec 64)
  /-- R353: Returns a TRIGOUT configuration. -/
  | trigoutConfigQuery (h : Hdr) (select : BitVec 32)
  /-- R101: Sets a capture group's region, counts and mode, taking the group from OFF to CONFIGURED. -/
  | captureConfig (h : Hdr) (select : BitVec 32) (cfg : BitVec 384)
  /-- R353: Returns a capture group's configuration. -/
  | captureConfigQuery (h : Hdr) (select : BitVec 32)
  /-- R130: Sets a group's decimation mode, factor, ratio and dual store. -/
  | decimConfig (h : Hdr) (select : BitVec 32) (cfg : BitVec 128)
  /-- R353: Returns a group's decimation configuration. -/
  | decimConfigQuery (h : Hdr) (select : BitVec 32)
  /-- R104: With ENABLE = 1, runs the consistency check and, if it passes, re-grains stripes, applies pending changes, places accumulators and starts the ring at S0. -/
  | groupArm (h : Hdr) (word : BitVec 32)
  /-- R105: GROUP_ARM with ENABLE = 0 stops the group from the next tick, finishing or truncating the record in fill, so that it enters DONE. -/
  | groupStop (h : Hdr) (word : BitVec 32)
  /-- R141: Sets a group's accumulation mode, area, count and snapshot slots. -/
  | accConfig (h : Hdr) (select : BitVec 32) (cfg : BitVec 256)
  /-- R353: Returns a group's accumulation configuration. -/
  | accConfigQuery (h : Hdr) (select : BitVec 32)
  /-- R155: Takes a live snapshot of the current accumulation cycle into a free slot. -/
  | accSnapshot (h : Hdr) (select : BitVec 32)
  /-- R174: Sets a memory port's panic thresholds and page hint. -/
  | memPortConfig (h : Hdr) (select : BitVec 32) (cfg : BitVec 64)
  /-- R353: Returns a memory port's configuration. -/
  | memPortConfigQuery (h : Hdr) (select : BitVec 32)
  /-- R188: Sets PAGE_TIMER and NEIGHBOUR_K, applied from the next activate. -/
  | memConfig (h : Hdr) (cfg : BitVec 32)
  /-- R353: Returns the global memory configuration. -/
  | memConfigQuery (h : Hdr)
  /-- R190: Changes the memory pin rate through self-refresh, relock and full training, or queues the change behind training in progress. -/
  | memClock (h : Hdr) (word : BitVec 32)
  /-- R167: Sets the base of the 256 MiB BAR2 window onto the EPA space. -/
  | bar2Set (h : Hdr) (base : BitVec 64)
  /-- R353: Returns BAR2_BASE. -/
  | bar2SetQuery (h : Hdr)
  /-- R198: Configures a group's descriptor and completion rings, zeroing their counts and forgetting posted descriptors. -/
  | readoutRings (h : Hdr) (select : BitVec 32) (cfg : BitVec 256)
  /-- R353: Returns a group's ring configuration. -/
  | readoutRingsQuery (h : Hdr) (select : BitVec 32)
  /-- R226: Sets CALDC_UV, BG_PERIOD, BG_ENTRY and the group interrupt policies. -/
  | calConfig (h : Hdr) (cfg : BitVec 64)
  /-- R353: Returns the calibration configuration. -/
  | calConfigQuery (h : Hdr)
  /-- R227: Starts a foreground calibration run on the named quads, closing INTERRUPT groups and draining them; answered DEFERRED. -/
  | calRun (h : Hdr) (word : BitVec 32)
  /-- R234: Stops the foreground run in progress, which ends with CAL_ABORTED. -/
  | calAbort (h : Hdr)
  /-- R250: Writes up to 4,032 bytes of a correction set into the staging buffer. -/
  | calSetUpload (h : Hdr) (offset : BitVec 32) (data : Bytes)
  /-- R250: Validates the staged set and makes it the pending set with a new CAL_SET_ID. -/
  | calSetCommit (h : Hdr)
  /-- R251: Returns bytes of the active or the pending set. -/
  | calSetDownload (h : Hdr) (word : BitVec 32) (offset : BitVec 32) (length : BitVec 32)
  /-- R251: Returns the 33 live slice coefficient entries of a bank, read in one beat. -/
  | calSliceQuery (h : Hdr) (select : BitVec 32)
  /-- R288: Sets the sequencer's region, periods, markers, underrun policies and channel enables. -/
  | seqConfig (h : Hdr) (cfg : BitVec 128)
  /-- R353: Returns the sequencer configuration. -/
  | seqConfigQuery (h : Hdr)
  /-- R292: Defines, redefines or deletes a stimulus segment; a STREAM segment becomes EMPTY. -/
  | seqSegmentDefine (h : Hdr) (select : BitVec 32) (seg : BitVec 128)
  /-- R353: Returns a segment descriptor. -/
  | seqSegmentDefineQuery (h : Hdr) (select : BitVec 32)
  /-- R293: Writes up to 255 entries of an on-die segment and recomputes its UPDATES. -/
  | seqListWrite (h : Hdr) (select : BitVec 32) (first : BitVec 32) (entries : List (BitVec 128))
  /-- R378: Returns up to 255 entries of an on-die segment. -/
  | seqListRead (h : Hdr) (select : BitVec 32) (count : BitVec 32) (first : BitVec 32)
  /-- R294: Reads a stream segment back through FWP, checks its CRC and its UPDATES, and makes it READY. -/
  | seqSegmentReady (h : Hdr) (select : BitVec 32) (crc : BitVec 32)
  /-- R295: Writes a step of the sequence table. -/
  | seqStepWrite (h : Hdr) (select : BitVec 32) (stepw : BitVec 128)
  /-- R353: Returns a step of the sequence table. -/
  | seqStepWriteQuery (h : Hdr) (select : BitVec 32)
  /-- R297: With ENABLE = 1, runs the sequencer checks and enables it, taking the channels to IDLE. -/
  | seqEnable (h : Hdr) (word : BitVec 32)
  /-- R297: SEQ_ENABLE with ENABLE = 0 disables the sequencer when no channel is WAITING or PLAYING. -/
  | seqDisable (h : Hdr) (word : BitVec 32)
  /-- R299: Schedules the start of the named channels at a common start instant, taking them to WAITING. -/
  | seqStart (h : Hdr) (word : BitVec 128)
  /-- R300: SEQ_STOP with MODE NOW schedules a 64-update ramp to zero and ends the channels. -/
  | seqStopNow (h : Hdr) (word : BitVec 32)
  /-- R300: SEQ_STOP with MODE BOUNDARY ends the channels at the boundary that a command jump would take. -/
  | seqStopBoundary (h : Hdr) (word : BitVec 32)
  /-- R302: Requests a jump at the boundary found for the command's request time, if the ending step accepts command jumps. -/
  | seqJump (h : Hdr) (word : BitVec 32)
  /-- R315: Sets the monitor reference and the sense tap selection. -/
  | monConfig (h : Hdr) (cfg : BitVec 32)
  /-- R353: Returns the monitor configuration. -/
  | monConfigQuery (h : Hdr)
  /-- R319: Configures a window comparator and restarts it in INSIDE. -/
  | monWindowSet (h : Hdr) (select : BitVec 32) (cfg : BitVec 64)
  /-- R353: Returns a window comparator's configuration. -/
  | monWindowSetQuery (h : Hdr) (select : BitVec 32)
  /-- R443: A probe routed by PATH without ASSIGN reports the identity and PORTS_UP of the device at its depth. -/
  | enumProbe (h : Hdr) (probe : BitVec 128)
  /-- R382: A probe with ASSIGN gives the device a DEVADDR, the role WORKER, an EPOCH and a back-date bound, and clears its BOUGH tag table. -/
  | enumProbeAssign (h : Hdr) (probe : BitVec 128)
  /-- R423: Sets the device's multicast group membership. -/
  | groveConfig (h : Hdr) (mcast : BitVec 256)
  /-- R353: Returns the multicast membership. -/
  | groveConfigQuery (h : Hdr)
  /-- R445: Starts ranging a DN port in 1,024 exchanges; answered DEFERRED. -/
  | groveRange (h : Hdr) (word : BitVec 32)
  /-- R446: Loads whole ticks into grove time and slews the remaining fraction, making the worker ALIGNED. -/
  | groveAlign (h : Hdr) (deltaTicks : BitVec 64) (deltaFs : BitVec 32) (reserved : BitVec 32)
  /-- R452: Makes an orphan root MANAGER with its epoch incremented and sends EPOCH_SET down. -/
  | promote (h : Hdr)
  /-- R452: Sets EPOCH 0 and the role ORPHAN_ROOT, and sends EPOCH_SET with ORPHAN_MEMBER down. -/
  | demote (h : Hdr)
  /-- R383: Returns the device's grove identity, ports and ranged cable delays. -/
  | groveStatus (h : Hdr)
  /-- R384: Installs the owner's P-384 public key for this power-up. -/
  | keyInstall (h : Hdr) (x : BitVec 384) (y : BitVec 384)
  /-- R385: Writes a chunk of the Sapwood image into image memory. -/
  | imageLoad (h : Hdr) (offset : BitVec 32) (data : Bytes)
  /-- R401: Authenticates the loaded image and, on success, starts Sapwood and enters INIT with a DEFERRED reply. -/
  | imageStart (h : Hdr) (total : BitVec 32)
  /-- R334: A command packet enters a path's intake queue: PCIe DMA complete, bough message, mailbox submission or bootstrap mailbox. -/
  | commandReceive (t : Nat) (path : Path) (desc : Bytes) (packet : Bytes)
  /-- R343: 1 ms after receipt, and every 4 ms after that, an unanswered command draws an interim notice. -/
  | interimNotice (t : Nat) (path : Path) (index : Nat)
  /-- R330: The host write of CMD_TAIL posts command descriptors, or is ignored and counted. -/
  | cmdTailDoorbell (t : Nat) (value : BitVec 32)
  /-- R331: A write of the packet length takes the bootstrap mailbox packet as a PCIe command and clears VALID. -/
  | bootDoorbell (t : Nat) (value : BitVec 32)
  /-- R199: The host write of DESC_TAIL posts readout descriptors, or is ignored and counted. -/
  | descTailDoorbell (t : Nat) (g : Fin 4) (value : BitVec 32)
  /-- R199: The host write of CPL_HEAD frees completion entries of a ring, or is ignored and counted. -/
  | cplHeadDoorbell (t : Nat) (ring : Fin 5) (value : BitVec 32)
  /-- R218: A 32-bit read of the low half of a live 64-bit value latches the whole value into the requester's shadow and clears an RC counter. -/
  | lowHalfRead (t : Nat) (req : Requester) (offset : Nat)
  /-- R218: A 32-bit read of the high half returns the shadow and sets HALF_ORDER when the shadow does not match. -/
  | highHalfRead (t : Nat) (req : Requester) (offset : Nat)
  /-- R218: An aligned 64-bit read returns the current value atomically and clears an RC counter without touching the shadow. -/
  | atomic64Read (t : Nat) (req : Requester) (offset : Nat)
  /-- R15: A read of a 32-bit status word that holds an RC field, such as MAX_DEBT, returns the field and clears it. -/
  | rcFieldRead (t : Nat) (req : Requester) (offset : Nat)
  /-- R219: Writing 1 to HALF_ORDER in WINDOW_STATUS clears it. -/
  | halfOrderClear (t : Nat) (req : Requester) (value : BitVec 32)
  /-- R317: A CONVERT write requests one software conversion of MON_SEL, or is ignored while one is pending. -/
  | monCtrlConvert (t : Nat) (req : Requester) (value : BitVec 32)
  /-- R490: A write to a register or window word that has no row of its own, such as the mailbox or a configuration aperture slot. -/
  | registerWrite (t : Nat) (place : WritePlace) (wide : Bool) (value : BitVec 64)
  /-- R167: A host read or write through BAR2, carried to HBM through FWP. -/
  | bar2Access (t : Nat) (offset : Nat) (access : Bar2Op)
  /-- R408: A Sapwood read of TAKE takes the oldest queued command, round-robin among the paths. -/
  | take (t : Nat) (core : Fin 4)
  /-- R408: A write of POST sends a staged reply in order per source and frees its slot. -/
  | post (t : Nat) (core : Fin 4) (value : BitVec 64)
  /-- R408: A Sapwood write posts an event body on ring 4. -/
  | eventPost (t : Nat) (core : Fin 4) (addr : BitVec 64)
  /-- R405: A write of COMMIT makes a staged structure the one in force, or takes an action, at one beat, and finalises the command's reply. -/
  | commit (t : Nat) (core : Fin 4) (value : BitVec 64)
  /-- R414: A core's write to WDT_KICK restarts its watchdog period. -/
  | wdtKick (t : Nat) (core : Fin 4)
  /-- R410: Writing 1 to OVERRUN in SC_STATUS clears it. -/
  | scOverrunClear (t : Nat) (core : Fin 4) (value : BitVec 32)
  /-- R411: Service call that applies a clock plan under the checks of R261. -/
  | scClockPlan (t : Nat) (core : Fin 4) (addr : BitVec 64)
  /-- R411: Service call that arms a sync under R266. -/
  | scClockSync (t : Nat) (core : Fin 4) (syncTick : BitVec 64) (timeout : BitVec 64)
  /-- R411: Service call that applies a load and a slew under R280 and R281. -/
  | scSlew (t : Nat) (core : Fin 4) (deltaTicks : BitVec 64) (deltaFs : BitVec 64)
  /-- R411: Service call that makes or queues a memory clock change under R190. -/
  | scMemClock (t : Nat) (core : Fin 4) (rate : BitVec 64)
  /-- R411: Service call that powers a quad on or off. -/
  | scQuadPower (t : Nat) (core : Fin 4) (quad : BitVec 64) (on : BitVec 64)
  /-- R411: Service call that opens a calibration run for a quad mask. -/
  | scCalOpen (t : Nat) (core : Fin 4) (mask : BitVec 64)
  /-- R412: Service call that moves a quad's calibration switch within the open run and the 120 ms limit. -/
  | scCalSwitch (t : Nat) (core : Fin 4) (quad : BitVec 64) (position : BitVec 64)
  /-- R411: Service call that closes the open run and returns every switch to CONNECT. -/
  | scCalClose (t : Nat) (core : Fin 4)
  /-- R413: Service call that changes DEVADDR, ROLE, EPOCH and bound in the three permitted cases. -/
  | scGroveIdentity (t : Nat) (core : Fin 4) (devaddr : BitVec 64) (role : BitVec 64) (epoch : BitVec 64) (bound : BitVec 64)
  /-- R411: Service call that sets the watchdog period and the parked cores. -/
  | scWdtConfig (t : Nat) (core : Fin 4) (period : BitVec 64) (park : BitVec 64)
  /-- R473: Service call that raises READY and ends INIT, or reopens intake after a restart. -/
  | scReady (t : Nat) (core : Fin 4)
  /-- R411: Service call that submits a packet on the MAILBOX path and returns when its reply is written. -/
  | scSubmit (t : Nat) (core : Fin 4) (packet : BitVec 64) (length : BitVec 64) (buffer : BitVec 64) (size : BitVec 64)
  /-- R415: Service call that makes Heartwood restart Sapwood with CAUSE REQUESTED. -/
  | scRestart (t : Nat) (core : Fin 4) (pc : BitVec 64)
  /-- R483: Service call that puts the engine in FAULT with the given reason. -/
  | scFault (t : Nat) (core : Fin 4) (reason : BitVec 64)
  /-- R411: Service call that returns the KEYS byte. -/
  | scKeys (t : Nat) (core : Fin 4)
  /-- R415: An unparked core misses its watchdog period, and Heartwood restarts Sapwood with CAUSE WATCHDOG. -/
  | watchdogExpiry (t : Nat) (core : Fin 4) (pc : BitVec 64)
  /-- R415: A Sapwood access outside its map, or a forbidden commit, restarts Sapwood with CAUSE FIREWALL. -/
  | firewallFault (t : Nat) (core : Fin 4) (pc : BitVec 64) (addr : BitVec 64)
  /-- R415: A core traps inside its own machine-mode handler, and Sapwood is restarted. -/
  | doubleTrap (t : Nat) (core : Fin 4) (pc : BitVec 64)
  /-- R416: Re-verification of image memory ends: SRAM is restored and the cores start, or the engine enters FAULT. -/
  | restartVerifyDone (t : Nat) (ok : Bool)
  /-- R417: No READY call within 1 s of the restart puts the engine in FAULT with SAPWOOD_INIT_TIMEOUT. -/
  | sapwoodReadyTimeout (t : Nat)
  /-- R47: A sample-link transfer is checked at the end of its reception; on failure a NAK is sent, or the bank is declared faulted. -/
  | sampleLinkBlock (t : Nat) (bank : Fin 16) (data : LinkData)
  /-- R47: The transmitter receives NAK(b) on the return lane and schedules the re-send of block b. -/
  | nak (t : Nat) (bank : Fin 16)
  /-- R47: 240 ticks after a failed attempt, the transmitter re-sends the block from its replay window and follows it with the later blocks. -/
  | linkResend (t : Nat) (bank : Fin 16)
  /-- R49: The FIFO releases a block's samples 1,240 ticks after they were taken; they are corrected and reach trigger units and capture, and are written to the rings. -/
  | alignmentFifoRelease (t : Nat) (bank : Fin 16) (overrun : Bool)
  /-- R51: Retraining of a faulted link ends, and the check of 1,024 blocks begins, or a retry follows. -/
  | linkRetrainDone (t : Nat) (bank : Fin 16) (ok : Bool)
  /-- R51: After 1,024 good blocks the bank returns to service at the next block boundary. -/
  | bankReturned (t : Nat) (bank : Fin 16)
  /-- R31: Every 2 ms per bank the spare takes one position at a beat boundary. -/
  | sliceSubstitution (t : Nat) (bank : Fin 16) (pos : Fin 32)
  /-- R222: At the end of each 2 ms period, the free slice's offset, gain and skew are estimated and the live coefficients move towards them. -/
  | backgroundEstimate (t : Nat) (bank : Fin 16) (est : SliceEstimate)
  /-- R35: After 2 ms of POWERING the quad enters TRAINING. -/
  | quadPoweringDone (t : Nat) (q : Fin 4)
  /-- R35: After 20 µs of link training the quad enters CONVERGING. -/
  | quadTrainingDone (t : Nat) (q : Fin 4)
  /-- R35: After 66 ms of convergence the quad is READY and QUAD_READY is posted. -/
  | quadConverged (t : Nat) (q : Fin 4)
  /-- R39: A retimed quad becomes READY again and the fusion command's reply is sent. -/
  | quadRetimingDone (t : Nat) (q : Fin 4)
  /-- R28: The analog chain settles after an input change, and the reply is sent. -/
  | inputSettled (t : Nat) (input : Fin 16)
  /-- R55: 96 ticks after a sample reaches a unit, the unit decides and delivers its event to the combiners, which may accept, miss or skip a trigger. -/
  | triggerUnitDecision (t : Nat)
  /-- R58: A TRIGIN, MONWIN or SOFTWARE event reaches the combiners 1,376 ticks after the tick it names. -/
  | taggedEventDelivery (t : Nat)
  /-- R58: An edge on a TRIGIN pin is measured by its time-to-digital converter and time-tagged. -/
  | triginEdge (t : Nat) (pin : Fin 4) (level : Bool) (tick : Nat) (fraction : BitVec 32)
  /-- R96: A pending AT_TICK software trigger makes its event when the samples of its tick reach the unit. -/
  | swTriggerDue (t : Nat) (unit : Fin 8)
  /-- R86: The last post-trigger sample reaches capture, and the group leaves FILLING for HOLDOFF, ARMED or DONE. -/
  | fillComplete (t : Nat) (g : Fin 4)
  /-- R84: Hold-off expires and the group re-arms at its re-arm sample. -/
  | holdoffExpiry (t : Nat) (g : Fin 4)
  /-- R97: A scheduled TRIGOUT pulse begins, or extends a pulse already high. -/
  | trigoutPulseStart (t : Nat) (out : Fin 4)
  /-- R97: A TRIGOUT pulse ends after its driven width. -/
  | trigoutPulseEnd (t : Nat) (out : Fin 4)
  /-- R97: A level TRIGOUT follows the group's ARMED state, delayed by 1,440 + EXTRA_DELAY ticks. -/
  | trigoutLevelChange (t : Nat) (out : Fin 4)
  /-- R110: The assembler writes one record block, with its CRC, to the segment or stream area. -/
  | recordBlockWritten (t : Nat) (g : Fin 4) (taint : Option (Nat × Nat))
  /-- R110: A record's last block and final header or closing block are written, and its completion may proceed; a group in wind-down may enter DONE. -/
  | recordComplete (t : Nat) (g : Fin 4)
  /-- R144: An admitted record's additions are committed in SEQ order; a count boundary takes a snapshot and restarts or stops the cycle. -/
  | accumulationCommit (t : Nat) (g : Fin 4)
  /-- R154: A snapshot's last block and header are written, and its completion is posted. -/
  | snapshotComplete (t : Nat) (g : Fin 4)
  /-- R173: A port's 32-byte request enters a pseudo-channel queue and updates panic levels. -/
  | memRequest (t : Nat) (port : Fin 23) (unit : Nat) (access : MemAccess) (level : Nat)
  /-- R181: Read data returns to a port, forwarded from the write queue or from the array, possibly poisoned. -/
  | memReadReturn (t : Nat) (port : Fin 23) (ecc : Ecc)
  /-- R182: A per-bank refresh falls due, raising the pseudo-channel's debt, and is issued, postponed or forced. -/
  | refreshDue (t : Nat) (pc : Fin 128)
  /-- R183: Every 1 µs a stack temperature reading may switch it between NORMAL and HOT and start a refresh pull-in. -/
  | stackTempReading (t : Nat) (stack : Fin 4) (temp : Int)
  /-- R186: A scheduled neighbour refresh still waiting after 256 cycles becomes forced. -/
  | neighbourRefreshForced (t : Nat) (pc : Fin 128)
  /-- R170: Re-initialisation of re-grained stripes completes, and the waiting arm proceeds to S0. -/
  | stripeReinitDone (t : Nat) (g : Fin 5)
  /-- R190: The memory clock relocks after 20 µs, self-refresh ends and full training begins. -/
  | memClockRelocked (t : Nat)
  /-- R189: A training pass ends: the next pass, a queued clock change or training completion follows, or a failure. -/
  | trainingPassDone (t : Nat) (failed : BitVec 4)
  /-- R468: Memory initialisation of every stripe completes and MEM_INIT is set. -/
  | memInitDone (t : Nat) (failed : Option (Fin 4))
  /-- R202: A readout port takes the descriptor at its ring head, executing a fetch or rejecting it. -/
  | descriptorTake (t : Nat) (g : Fin 4) (desc : Bytes)
  /-- R193: A readout block read returns; its CRC is checked, re-read up to three times, and written to the host. -/
  | readoutBlockRead (t : Nat) (g : Fin 4) (damaged : Option Bytes)
  /-- R212: A completion whose data writes and ordering promises are satisfied is written to its ring when there is room. -/
  | completionPost (t : Nat) (ring : Fin 5) (lane : CplLane)
  /-- R204: FLUSH_TIMER µs without a new stream block completes a part-filled buffer. -/
  | streamFlushTimeout (t : Nat) (g : Fin 4)
  /-- R217: IRQ_TIMER µs after the oldest unsignalled completion, the ring raises its MSI-X vector. -/
  | irqTimerExpiry (t : Nat) (ring : Fin 5)
  /-- R228: No closed group is FILLING any more, and the first named quad's LEAKAGE begins. -/
  | calDrainDone (t : Nat)
  /-- R228: After 100 ms of draining, every named quad ends with CAL_FILL_TIMEOUT. -/
  | calDrainTimeout (t : Nat)
  /-- R230: After 1 ms of leakage measurement, the switch goes to ISOLATE and held words begin, or the quad stops with CAL_INPUT_ACTIVE. -/
  | calLeakageEnd (t : Nat) (q : Fin 4) (squares : List Nat)
  /-- R229: At 1.5 ms the switch moves to SOURCE. -/
  | calIsolateEnd (t : Nat) (q : Fin 4)
  /-- R229: At 2 ms RUN_A begins. -/
  | calSourceSettled (t : Nat) (q : Fin 4)
  /-- R231: The reference transfer ends and CALDC is judged against CALDC_UV. -/
  | calRefTransferEnd (t : Nat) (q : Fin 4) (caldc : Int)
  /-- R229: At 59 ms RUN_B begins. -/
  | calRunAEnd (t : Nat) (q : Fin 4)
  /-- R232: At 116 ms COMPARE checks agreement and limits. -/
  | calRunBEnd (t : Nat) (q : Fin 4) (agree : Bool)
  /-- R233: At 118 ms the switch returns to CONNECT for RESTORE. -/
  | calCompareEnd (t : Nat) (q : Fin 4) (point : Bytes)
  /-- R229: At 120 ms held words end and the next named quad begins, or the run ends. -/
  | calRestoreEnd (t : Nat) (q : Fin 4)
  /-- R234: A stopped quad leaves its phase within 1 ms and its switch returns to CONNECT. -/
  | calStopDone (t : Nat) (q : Fin 4)
  /-- R234: 2 ms after a stop the held words end and the next quad may begin. -/
  | calHeldWordsEnd (t : Nat) (q : Fin 4)
  /-- R235: The run's results and any new set are formed, CAL_DONE is posted and a gather opens. -/
  | calResultsFormed (t : Nat)
  /-- R238: 64 ticks after held words end, trigger units of the quad restart their conditions. -/
  | heldTriggerResume (t : Nat) (q : Fin 4)
  /-- R236: After 125 ms out of CONNECT, Heartwood returns a quad's switches. -/
  | switchTimeout (t : Nat) (q : Fin 4)
  /-- R240: At a beat boundary the quad switches all banks to the new coefficients and CAL_ENTERED is posted. -/
  | changeover (t : Nat) (q : Fin 4)
  /-- R242: A gathered group reopens at its re-arm sample after the changeover. -/
  | gatherReopen (t : Nat) (g : Fin 4)
  /-- R243: BG_PERIOD after a quad's previous changeover, a pending background change under GATHER opens a gather. -/
  | bgGatherDue (t : Nat) (q : Fin 4)
  /-- R249: Every 1 ms the quad die temperature is read, and a temperature change may become pending. -/
  | quadTempReading (t : Nat) (q : Fin 4) (temp : Int)
  /-- R263: A lock detector window ends; four good windows declare LOCKED, or a bad one declares a loss of lock. -/
  | lockWindowEnd (t : Nat) (loop : WhichLoop) (count : Nat) (word : Nat)
  /-- R263: The loop loses lock on a phase error or fine-word limit, starting fall-back switch-over or a stop. -/
  | lockLost (t : Nat) (loop : WhichLoop)
  /-- R264: The coarse band search ends, and frequency acquisition begins. -/
  | bandSearchDone (t : Nat) (band : Nat) (fine : Nat) (gain : Nat)
  /-- R264: Frequency acquisition ends, and the lock windows begin. -/
  | acquisitionDone (t : Nat)
  /-- R265: The banks make their common start at T0, and grove time begins. -/
  | commonStart (t : Nat)
  /-- R266: A SYNCIN edge is sampled on REFIN, scheduling the common start or a load and slew. -/
  | syncEdge (t : Nat) (high : Bool) (fraction : BitVec 32)
  /-- R265: No sync edge within TIMEOUT: the start is made at once, or the wait ends, and SYNC_DONE reports TIMEOUT. -/
  | syncTimeout (t : Nat)
  /-- R261: 100 ms after a plan hop without lock, the reply is sent OK with LOOP COASTING. -/
  | planHopTimeout (t : Nat)
  /-- R268: The reference monitor declares the reference lost, and the main loop coasts. -/
  | refLost (t : Nat)
  /-- R269: The reference returns, and the loop re-locks hitlessly or starts a SNAP slew. -/
  | refReturned (t : Nat) (phase : Int) (offset : Int)
  /-- R281: A slew finishes, and SLEW_DONE or SYNC_DONE is posted. -/
  | slewEnd (t : Nat) (phase : Int)
  /-- R271: At the beat boundary after a lock loss, the phase generator moves to the fall-back loop. -/
  | fallbackSwitch (t : Nat)
  /-- R271: The re-locked main loop, aligned within 2 ps, takes back the phase generator and CLOCK_RESTORED is posted. -/
  | clockRestore (t : Nat)
  /-- R262: The fall-back loop re-locks and phase-tracks, returning to warm standby. -/
  | fallbackStandby (t : Nat)
  /-- R272: At the beat boundary after an unrecoverable lock loss, the sample clocks stop and records end with CLOCK_LOST. -/
  | sampleClockStop (t : Nat)
  /-- R273: After re-lock the sample clocks restart on the continued grid and CLOCK_RESTARTED is posted. -/
  | sampleClockRestart (t : Nat) (uncertainty : Nat)
  /-- R275: Loss of XO_IN moves AO to the backup oscillator, stops the sample clocks and puts the engine in FAULT. -/
  | xoLost (t : Nat)
  /-- R278: Every 2^10 beats the keeper is compared with the grid and its step word trimmed. -/
  | keeperTrim (t : Nat) (step : Nat)
  /-- R285: After a load, the SQ synthesiser is phased again to the DAC instant rule. -/
  | sqRephaseDone (t : Nat)
  /-- R299: At the start instant, WAITING channels start PLAYING their first entry. -/
  | stimStartInstant (t : Nat) (ch : Fin 2)
  /-- R301: 64 updates before a boundary, its segment and step are fixed, prefetch is set up and underrun is judged. -/
  | stimDecisionPoint (t : Nat) (ch : Fin 2)
  /-- R296: At a boundary the channel takes the next iteration, a jump target, NEXT or ends. -/
  | stimBoundary (t : Nat) (ch : Fin 2)
  /-- R291: At an entry's effect instant, its parameters and markers take effect, or an underrun begins for want of the entry. -/
  | stimEntryEffect (t : Nat) (ch : Fin 2) (starved : Bool)
  /-- R300: At the first DAC instant after the stop time, markers go low and the amplitude ramp to zero begins. -/
  | stimStopRampStart (t : Nat) (ch : Fin 2)
  /-- R300: After 64 updates the amplitude is zero and the channel ends with STOPPED. -/
  | stimStopRampEnd (t : Nat) (ch : Fin 2)
  /-- R305: After 64 updates of MUTE underrun, AMPL reaches zero. -/
  | stimMuteRampEnd (t : Nat) (ch : Fin 2)
  /-- R294: The read-back of a stream segment ends, and SEQ_SEGMENT_READY is answered. -/
  | segmentReadbackDone (t : Nat)
  /-- R316: A 1 µs monitor slot ends with a result for a comparator, the system rotation or a software request. -/
  | monConversion (t : Nat) (slot : Fin 16) (code : BitVec 12) (ovr : Bool)
  /-- R314: The selected monitor reference settles and REF_SETTLED rises. -/
  | monRefSettled (t : Nat)
  /-- R483: A rail out of its operating range for 10 µs while PWR_OK is high puts the engine in FAULT. -/
  | railFault (t : Nat) (rail : Fin 12)
  /-- R461: PWR_OK rises, the SMBus straps are sampled, and the engine leaves RESET if PERST_N is released. -/
  | pwrOkRise (t : Nat) (straps : BitVec 2)
  /-- R460: PWR_OK falls: RESET at once, all state lost, and SMBus released. -/
  | pwrOkFall (t : Nat)
  /-- R461: PERST_N asserted puts the engine in RESET. -/
  | perstNAssert (t : Nat)
  /-- R461: PERST_N released leaves RESET for HEARTWOOD if PWR_OK is high, and replaces pin-taking TAP instructions with BYPASS. -/
  | perstNRelease (t : Nat)
  /-- R462: The ROM self-test ends, entering AWAIT_IMAGE or FAULT. -/
  | selftestDone (t : Nat) (result : SelfTest)
  /-- R466: The main loop not LOCKED within LOCK_TIMEOUT of INIT fails boot. -/
  | lockTimeout (t : Nat)
  /-- R467: A quad not READY within 100 ms of its power-on in INIT fails boot. -/
  | quadStartTimeout (t : Nat) (q : Fin 4)
  /-- R469: At the first beat boundary with QUADS and MEM_INIT set, the self-calibration takes CALDC_UV and the base set and begins. -/
  | selfCalStart (t : Nat)
  /-- R470: A self-calibration phase or window ends, leading to the next window, a convergence judgement, MEASURE results or SELF_CAL. -/
  | selfCalPhaseEnd (t : Nat) (res : SelfPhaseEnd)
  /-- R473: No accepted READY call within 5 s of SELF_CAL fails boot with SAPWOOD_INIT_TIMEOUT. -/
  | readyCallTimeout (t : Nat)
  /-- R426: A bough lane without block lock for 1 µs takes the port down and starts a fast retrain. -/
  | laneLockLost (t : Nat) (port : Fin 5) (lane : Fin 4)
  /-- R426: A bough port's fast retrain ends and replay resumes. -/
  | fastRetrainDone (t : Nat) (port : Fin 5)
  /-- R428: A bough block is received, checked, acknowledged or NAKed, and its credits taken. -/
  | boughBlockReceive (t : Nat) (port : Fin 5) (block : Bytes)
  /-- R428: 20 µs without an advance of ACK re-sends from the oldest unacknowledged block. -/
  | blockReplayTimeout (t : Nat) (port : Fin 5)
  /-- R432: A message whose AGE reaches 10 ms is discarded. -/
  | messageAgeExpiry (t : Nat) (port : Fin 5)
  /-- R439: A UNICAST message is taken or forwarded by the route table. -/
  | unicast (t : Nat) (port : Fin 5)
  /-- R439: An UP message is forwarded toward the manager, which writes it into ring 4, and its route is learned. -/
  | up (t : Nat) (port : Fin 5)
  /-- R439: A FLOOD message is examined where admitted and forwarded to worker ports. -/
  | flood (t : Nat) (port : Fin 5)
  /-- R439: A PATH message is taken at its depth or forwarded on the port PATH gives. -/
  | path (t : Nat) (port : Fin 5)
  /-- R431: A HELLO brings the port UP, or updates the partner's view, and may trigger a join judgement. -/
  | hello (t : Nat) (port : Fin 5)
  /-- R454: An orphan root takes WORKER and the epoch, leaves ORPHAN and sends EPOCH_SET down. -/
  | joinAccept (t : Nat) (port : Fin 5)
  /-- R453: A refused join raises EPOCH_CONFLICT and restricts the link to link traffic. -/
  | joinRefuse (t : Nat) (port : Fin 5)
  /-- R450: A device becomes ORPHAN_MEMBER and passes the notice on. -/
  | orphanNotice (t : Nat) (port : Fin 5)
  /-- R452: A device takes the role and epoch given, leaves or enters ORPHAN, and passes it on. -/
  | epochSet (t : Nat) (port : Fin 5)
  /-- R442: The device and its subtree become saplings with DEVADDR 0, EPOCH 0 and cleared routes. -/
  | saplingSet (t : Nat) (port : Fin 5)
  /-- R89: A broadcast grove trigger is relayed and delivered to GROVE units, then judged in trigger time. -/
  | groveTrigger (t : Nat) (pseq : Nat) (origin : Nat) (tick : BitVec 64) (fraction : BitVec 32) (gtn : BitVec 32)
  /-- R88: A trigger request is queued for forwarding upward, or for broadcast at the manager. -/
  | triggerRequest (t : Nat) (port : Fin 4) (pseq : Nat) (origin : Nat) (tick : BitVec 64) (fraction : BitVec 32)
  /-- R437: The manager takes a request from its queue, drops it if out of time order, or broadcasts it with the next GTN. -/
  | groveBroadcast (t : Nat)
  /-- R437: A device sends the next queued trigger request on its UP port, 256 ticks after the last. -/
  | requestForward (t : Nat)
  /-- R445: The device below notes t2 and answers with RANGE_REPLY. -/
  | rangeReq (t : Nat) (pseq : Nat) (t1 : BitVec 64) (t1frac : BitVec 32) (number : BitVec 32) (arrival : BitVec 32) (turnaround : BitVec 32)
  /-- R445: The device above notes t4 and computes one delay sample. -/
  | rangeReply (t : Nat) (port : Fin 4) (pseq : Nat) (turnaround : BitVec 32) (arrival : BitVec 32)
  /-- R445: The device below takes the mean delay and updates UP_OFFSET, possibly starting a tracking slew. -/
  | rangeResult (t : Nat) (pseq : Nat) (mean : BitVec 32)
  /-- R435: A PACK acknowledges a priority frame and frees it from the sender's replay buffer. -/
  | pack (t : Nat) (port : Fin 5) (pseq : Nat)
  /-- R435: A priority frame without PACK is re-sent 6,000 ticks after its departure, or the port goes down. -/
  | pframeResend (t : Nat) (port : Fin 5)
  /-- R445: Every 1 µs of a ranging run, the device above sends RANGE_REQ. -/
  | rangeExchange (t : Nat) (port : Fin 4)
  /-- R445: After 1,024 exchanges the mean delay is sent in RANGE_RESULT and RANGE_DONE is posted. -/
  | rangeComplete (t : Nat) (port : Fin 4)
  /-- R447: Every 10 ms the device above repeats ranging for a TRACKING worker. -/
  | trackingRange (t : Nat) (port : Fin 4)
  /-- R450: An UP link down for 1 ms makes a worker or member an orphan root. -/
  | orphanTimeout (t : Nat)
  /-- R442: A sapling's UP link down for 1 ms makes it MANAGER again. -/
  | saplingTimeout (t : Nat)
  /-- R508: SMBus Block Read of PART, ORDERING and STEPPING. -/
  | smbIdent (t : Nat)
  /-- R508: SMBus Block Read of ENGINE_WORD. -/
  | smbEngine (t : Nat)
  /-- R508: SMBus Block Read of BOOT_STATUS. -/
  | smbBoot (t : Nat)
  /-- R509: SMBus Read Byte of the PINS status. -/
  | smbPins (t : Nat)
  /-- R508: SMBus Block Read of MON0 to MON9. -/
  | smbTemps (t : Nat)
  /-- R508: SMBus Block Read of UNIQUE_ID. -/
  | smbUniqueId (t : Nat)
  /-- R508: SMBus Block Read of EVENT_STATUS. -/
  | smbEvents (t : Nat)
  /-- R508: An SMBus write or unlisted command code is not acknowledged and changes nothing. -/
  | smbWriteReject (t : Nat)
  /-- R510: An Alert Response Address read returns the slave address and releases SMB_ALERT_N. -/
  | smbAlertResponse (t : Nat)
  /-- R511: TRST_N low puts the test access port in Test-Logic-Reset with IDCODE. -/
  | tapReset (t : Nat)
  /-- R512: Boundary-scan EXTEST drives pins from the boundary register while PERST_N is asserted. -/
  | extest (t : Nat) (cells : BitVec 151)
  /-- R511: Selects the IDCODE register, value 0x1162_0C6B. -/
  | idcode (t : Nat)
  /-- R512: Captures pin values asynchronously and preloads the boundary register. -/
  | samplePreload (t : Nat) (pins : BitVec 151)
  /-- R512: Holds pins from the boundary register with BYPASS selected, while PERST_N is asserted. -/
  | clamp (t : Nat)
  /-- R512: Places the outputs at high impedance while PERST_N is asserted. -/
  | highz (t : Nat)
  /-- R512: IEEE 1149.6 pulse test of the AC-coupled lanes. -/
  | extestPulse (t : Nat) (cells : BitVec 151)
  /-- R512: IEEE 1149.6 train test of the AC-coupled lanes. -/
  | extestTrain (t : Nat) (cells : BitVec 151)
  /-- R512: Selects the one-bit bypass register; every unlisted code acts so. -/
  | bypass (t : Nat)
  /-- R401: Authentication of the loaded image ends: on success Sapwood starts, the engine enters INIT and the DEFERRED reply is sent; on failure REFUSED 0x0C01. -/
  | imageAuthDone (t : Nat) (ok : Bool)
  /-- R426: A bough port's receiver finishes Clause 72 training, reaches block lock on all four lanes and deskews, so that HELLO can bring the port UP. -/
  | blockLock (t : Nat) (port : Fin 5) (lane : Fin 4)
  /-- R507: The SMBus slave releases the bus after the clock-low timeout of 25 to 35 ms. -/
  | smbusTimeout (t : Nat)
  /-- R179: With hint AUTO, a row left open for PAGE_TIMER cycles with no access is precharged. -/
  | pageTimerExpiry (t : Nat) (pc : Fin 128)
deriving DecidableEq, Repr

end Sys2Proof
end

