-- ==== Sys2Proof/Config.lean ====
section
/-!
DEFINITION. What an implementation fixes and the free values: constants without a body, so that nothing can be proved of their value.
-/
namespace Sys2Proof.Config

/-- UNIQUE_ID, fixed at manufacture (R359). -/
opaque uniqueId : BitVec 64
/-- STEPPING of engine die and chiplets (R359). -/
opaque stepping : BitVec 16
/-- HEARTWOOD_VERSION of the mask ROM (R359, R400). -/
opaque heartwoodVersion : BitVec 32
/-- Whether the OVR detector, whose threshold lies between 100 % and 101.5 % of full scale, sees a voltage between the two (R42). Applied to the count of free values drawn. -/
opaque ovrBetween : Nat → Bool
/-- Whether a neighbour-refresh generator draws a refresh for an activation (R186, R187): applied to k and the count of free values drawn. -/
opaque neighbourDraw : Nat → Nat → Bool
/-- The rows physically adjacent to a row of a stack, as its row mapping gives them (R186). -/
opaque adjacentRows : Nat → Nat → List Nat
/-- A byte that the spec leaves open, such as one read from an armed group's ring area (R108, R167). -/
opaque freeByte : Nat → BitVec 8
/-- Words by which the skew and phase corrections of a bank change a stream of samples: the spec gives what they correct, not the arithmetic (R221). Applied to skew and phase in 0.1 fs and the words around the sample. -/
opaque skewStage : Int → List Int → Int
/-- A sample word of a record whose group's region or area was written through BAR2 while it was armed: its effect on records is undefined (R167). Applied to the count of free values drawn, the input and the index of the sample. -/
opaque spoiledWord : Nat → Nat → Nat → Nat
/-- An entry of an active STREAM segment that was written through BAR2: the effect on the output is undefined (R293). Applied to the count of free values drawn, the segment and the entry. -/
opaque stirredEntry : Nat → Nat → Nat → BitVec 128
/-- The result of an operation whose value the spec does not state, applied to the count of free values drawn. -/
opaque freeNat : Nat → Nat

end Sys2Proof.Config
end

