-- ==== Sys2Proof/Machine/StateGrove.lean ====
section
/-!
DEFINITION. The state of the grove (15): role and identity, routes, the five bough ports, the trigger fabric and ranging.
Ports are numbered 0 UP, 1 to 4 DN0 to DN3 (R487).
-/
namespace Sys2Proof.Machine

/-- ROLE (R359, R420). -/
inductive Role where
  | manager
  | worker
  | sapling
  | orphanRoot
  | orphanMember
deriving DecidableEq, Repr

/-- The code of ROLE (R359). -/
def Role.code : Role → Nat
  | .manager => 0
  | .worker => 1
  | .sapling => 2
  | .orphanRoot => 3
  | .orphanMember => 4

/-- The ROLE of a code (R359). -/
def Role.ofCode : Nat → Role
  | 0 => .manager
  | 1 => .worker
  | 2 => .sapling
  | 3 => .orphanRoot
  | _ => .orphanMember

/-- Whether a role is that of an orphan (R420). -/
def Role.orphan : Role → Bool
  | .orphanRoot => true
  | .orphanMember => true
  | .manager => false
  | .worker => false
  | .sapling => false

/-- LINK of BOUGH_STATUS (R456). -/
inductive LinkState where
  | neverUp
  | training
  | up
  | retraining
  | down
deriving DecidableEq, Repr

/-- The code of LINK (R456). -/
def LinkState.code : LinkState → Nat
  | .neverUp => 0
  | .training => 1
  | .up => 2
  | .retraining => 3
  | .down => 4

/-- A link message (R431) or the HELLO a port last sent or received. -/
structure LinkMsg where
  kind : Nat
  role : Nat
  devaddr : Nat
  epoch : Nat
  manager : Nat
  clockValid : Bool
  hasManager : Bool
deriving DecidableEq, Repr

/-- A message (R430): route header and packet, and the internal tick at which this device took hold of it. -/
structure Msg where
  rkind : Nat
  hops : Nat
  target : Nat
  path : Nat
  age : Nat
  packet : Bytes
  since : Nat
deriving DecidableEq, Repr

/-- What arrived complete on a port and waits to be acted on: a message, with the number of block buffers it holds (R429), or a link message. -/
inductive Arrived where
  | msg (m : Msg) (buffers : Nat)
  | link (l : LinkMsg)
deriving DecidableEq, Repr

/-- A bough block to be sent or in a replay buffer (R427, R428): BTYPE, BSEQ once sent, payload, how often it was re-sent, the number of its message on this port, the message's AGE when it came and since when it has been held; dropped once its message was discarded (R432). -/
structure OutBlock where
  btype : Nat
  bseq : Nat
  payload : Bytes
  resends : Nat
  msg : Nat
  age : Nat
  since : Nat
  dropped : Bool
deriving DecidableEq, Repr

/-- A priority frame (R433, R434). -/
structure PFrame where
  kind : Nat
  pseq : Nat
  origin : Nat
  tick : Nat
  fraction : Nat
  value : Nat
deriving DecidableEq, Repr

/-- A priority frame in a replay buffer (R435): the tick of its last departure and the re-sends made. -/
structure OutFrame where
  frame : PFrame
  departed : Nat
  resends : Nat
deriving DecidableEq, Repr

/-- A ranging run on a DN port (R445): tickets of its commands (none for background work), exchanges done, the sum of 2d in units of 2^-32 fs, and the t1 of the exchange under way in units of 2^-32 tick. -/
structure RangeRun where
  tickets : List Nat
  done : Nat
  sum : Int
  t1 : Int
deriving DecidableEq, Repr

/-- One bough port (R424 to R437, R456, R458). -/
structure BoughPort where
  link : LinkState
  /-- Lanes with block lock, as a mask, and since when lanes have lacked it. -/
  lanes : Nat
  lostSince : Option Nat
  /-- The HELLO last received and last sent. -/
  partner : Option LinkMsg
  hello : Option LinkMsg
  ranged : Bool
  longCable : Bool
  joinHeld : Bool
  conflict : Bool
  /-- Mean delay of the last ranging, in fs (R445, R383). -/
  delay : Int
  run : Option RangeRun
  /-- Blocks: next BSEQ to send and to receive, credits, replay buffer, waiting messages and link messages, buffers to return (R428, R429). -/
  txSeq : Nat
  rxSeq : Nat
  credits : Nat
  replay : List OutBlock
  out : List OutBlock
  msgs : Nat
  /-- Tick of the last advance of ACK or of the first outstanding block (R428). -/
  ackAt : Nat
  freed : Nat
  /-- Buffers occupied by blocks received and not passed on. -/
  held : Nat
  nak : Bool
  ackDue : Bool
  part : Bytes
  partBlocks : Nat
  arrived : List Arrived
  /-- Frames: next PSEQ to send and to receive, replay buffer (R435), frames that wait for room. -/
  txP : Nat
  rxP : Nat
  frames : List OutFrame
  /-- Blocks and frames that left the port, newest first, as the bytes sent. -/
  wire : List Bytes
  /-- Tick of the loss that took the port down (R450). -/
  downSince : Option Nat
  blockResends : Nat
  pframeResends : Nat
  linkDowns : Nat
  pframeDiscards : Nat
deriving DecidableEq, Repr

/-- A trigger request or a grove trigger that waits (R437): origin, time in grove ticks and fraction, and when it arrived. -/
structure TrigReq where
  origin : Nat
  tick : Nat
  fraction : Nat
  arrived : Nat
deriving DecidableEq, Repr

/-- A grove (R420 to R458). -/
structure Grove where
  role : Role
  devaddr : Nat
  epoch : Nat
  depth : Nat
  /-- DEVADDR of the manager of the epoch in force. -/
  manager : Nat
  hasManager : Bool
  /-- GROVE_BACKDATE_BOUND (R444, R382). -/
  bound : Nat
  /-- Largest DEPTH of a probe with ASSIGN routed (R444). -/
  maxDepth : Nat
  mcast : BitVec 256
  aligned : Bool
  /-- UP_OFFSET in fs, and the sum of t2 - t1 of the run under way, in units of 2^-32 tick, with its number of exchanges (R445). -/
  upOffset : Int
  upSum : Int
  upCount : Nat
  /-- Route table: DEVADDR and port, at most one entry per DEVADDR (R438). -/
  routes : List (Nat × Nat)
  ports : Vector BoughPort 5
  gtn : Nat
  /-- Trigger time last broadcast, in 2^-32 tick of grove time (R88). -/
  lastBroadcast : Option Nat
  requests : List TrigReq
  forwards : List TrigReq
  lastSent : Option Nat
  lastForward : Option Nat
  /-- Orphan entry tick, rejoin tick and EPOCH left, while the ranging of a rejoin is awaited (R454). -/
  orphanTick : Nat
  rejoin : Option (Nat × Nat)
  ageDrops : Nat
  routeMisses : Nat
  upDrops : Nat
  saplingDrops : Nat
  queueDrops : Nat
  /-- GROVE_ORDER_DROPS (R88, R99). -/
  orderDrops : Nat
  requestDrops : Nat
  orphanRequestDrops : Nat
  orphanEntries : Nat
  unaligned : Nat
  trackSlews : Nat
  epochConflicts : Nat
deriving DecidableEq, Repr

/-- A bough port after power-up (R456). -/
def BoughPort.reset : BoughPort where
  link := .neverUp
  lanes := 0
  lostSince := none
  partner := none
  hello := none
  ranged := false
  longCable := false
  joinHeld := false
  conflict := false
  delay := 0
  run := none
  txSeq := 0
  rxSeq := 0
  credits := 0
  replay := []
  out := []
  msgs := 0
  ackAt := 0
  freed := 0
  held := 0
  nak := false
  ackDue := false
  part := []
  partBlocks := 0
  arrived := []
  txP := 0
  rxP := 0
  frames := []
  wire := []
  downSince := none
  blockResends := 0
  pframeResends := 0
  linkDowns := 0
  pframeDiscards := 0

/-- The grove after power-up and SYS_RESET: MANAGER, DEVADDR 0, EPOCH 0, DEPTH 0, bound 2,256 ticks, GTN 1 (R421, R423, R444, R449). -/
def Grove.reset : Grove where
  role := .manager
  devaddr := 0
  epoch := 0
  depth := 0
  manager := 0
  hasManager := true
  bound := 2256
  maxDepth := 0
  mcast := BitVec.ofNat 256 (1 <<< 255)
  aligned := true
  upOffset := 0
  upSum := 0
  upCount := 0
  routes := []
  ports := Vector.replicate 5 BoughPort.reset
  gtn := 1
  lastBroadcast := none
  requests := []
  forwards := []
  lastSent := none
  lastForward := none
  orphanTick := 0
  rejoin := none
  ageDrops := 0
  routeMisses := 0
  upDrops := 0
  saplingDrops := 0
  queueDrops := 0
  orderDrops := 0
  requestDrops := 0
  orphanRequestDrops := 0
  orphanEntries := 0
  unaligned := 0
  trackSlews := 0
  epochConflicts := 0

end Sys2Proof.Machine
end

