-- ==== Sys2Proof/Machine/BoughOps.lean ====
section
/-!
DEFINITION. One bough port: cutting messages into blocks, sending blocks and frames, and going up and down (R427 to R435).
-/
namespace Sys2Proof.Machine

/-- Bytes of a route header (R430). -/
def routeHeader (m : Msg) (age : Nat) : Bytes :=
  leBytes 1 m.rkind ++ leBytes 1 m.hops ++ leBytes 2 m.target ++ leBytes 4 m.path ++ leBytes 4 age ++ zeros 4

/-- AGE of a message held since a tick (R432): units of 100 ns, which are 2,000 ticks, rounded up. -/
def ageNow (age since now : Nat) : Nat := age + ceilDiv (now - since) 2000

/-- Bytes of a link message (R431). -/
def linkBytes (l : LinkMsg) : Bytes :=
  leBytes 1 l.kind ++ leBytes 1 l.role ++ leBytes 2 l.devaddr ++ leBytes 4 l.epoch ++ leBytes 2 l.manager ++
    leBytes 1 (bAt l.clockValid 0 + bAt l.hasManager 1) ++ zeros 5

/-- A link message read from 16 bytes (R431). -/
def linkOf (b : Bytes) : LinkMsg :=
  { kind := leAt b 0 1, role := leAt b 1 1, devaddr := leAt b 2 2, epoch := leAt b 4 4, manager := leAt b 8 2,
    clockValid := bit (leAt b 10 1) 0, hasManager := bit (leAt b 10 1) 1 }

/-- The payloads of a message, 1,010 bytes at most each (R427, R430); fuel is the number of bytes. -/
def cutBytes : Nat → Bytes → List Bytes
  | 0, _ => []
  | fuel + 1, b => if b.length ≤ 1010 then [b] else b.take 1010 :: cutBytes fuel (b.drop 1010)

/-- BTYPE of piece i of n (R430). -/
def pieceType (i n : Nat) : Nat := if n = 1 then 4 else if i = 0 then 1 else if i + 1 = n then 3 else 2

/-- The blocks of a message (R430). -/
def blocksOf (m : Msg) (num : Nat) : List OutBlock :=
  let ps := cutBytes (m.packet.length + 17) (routeHeader m m.age ++ m.packet)
  ps.zipIdx.map fun (p, i) =>
    { btype := pieceType i ps.length, bseq := 0, payload := p, resends := 0, msg := num, age := m.age, since := m.since, dropped := false }

/-- The 1,024 bytes of a block as sent now (R427): ACK is the last BSEQ received in order, AGE is brought up to date in a message's first block (R432). -/
def blockBytes (p : BoughPort) (b : OutBlock) (now : Nat) : Bytes :=
  let pay := if b.btype = 1 ∨ b.btype = 4 then putBytes b.payload 8 (leBytes 4 (ageNow b.age b.since now)) else b.payload
  withCrc (leBytes 1 b.btype ++ leBytes 1 (bAt p.nak 0) ++ leBytes 2 b.bseq ++ leBytes 2 ((p.rxSeq + 65535) % 65536) ++
    leBytes 1 p.freed ++ zeros 1 ++ leBytes 2 pay.length ++ pay ++ zeros (1010 - pay.length))

/-- The port with a block sent: ACK, NAK and CREDITS went with it (R427, R428). -/
def BoughPort.wireBlock (p : BoughPort) (b : OutBlock) (now : Nat) : BoughPort :=
  { p with wire := blockBytes p b now :: p.wire, nak := false, ackDue := false, freed := 0 }

/-- A FILL block (R428). -/
def fillBlock : OutBlock :=
  { btype := 6, bseq := 0, payload := [], resends := 0, msg := 0, age := 0, since := 0, dropped := false }

/-- The port can send blocks: it is UP, or all its lanes have block lock and the HELLOs are exchanged (R426). -/
def BoughPort.sends (p : BoughPort) : Bool := p.link = .up || (p.link = .training && p.lanes = 15)

/-- Whether a block may cross now: until the port is UP, and while a join is held or refused, only link messages may (R426, R453). -/
def BoughPort.allows (p : BoughPort) (b : OutBlock) : Bool := b.btype = 5 || (p.link = .up && !(p.joinHeld || p.conflict))

/-- The port sends the blocks it can (R428, R429): at most 32 unacknowledged, one credit each, in order; fuel bounds the loop. -/
def BoughPort.sendBlocks : Nat → BoughPort → Nat → BoughPort
  | 0, p, _ => p
  | fuel + 1, p, now =>
    if p.sends ∧ 0 < p.credits ∧ p.replay.length < 32 then
      match p.out.find? p.allows with
      | none => p
      | some b =>
        let b' := { b with bseq := p.txSeq }
        let p' := { p with
          out := p.out.erase b, txSeq := (p.txSeq + 1) % 65536, credits := p.credits - 1, replay := p.replay ++ [b'],
          ackAt := if p.replay.isEmpty then now else p.ackAt }
        BoughPort.sendBlocks fuel (p'.wireBlock b' now) now
    else p

/-- The port sends what it can, and a FILL when an acknowledgement or credit is due and no block went (R428). -/
def BoughPort.pump (p : BoughPort) (now : Nat) : BoughPort :=
  let p' := BoughPort.sendBlocks 33 p now
  if p'.sends ∧ (p'.ackDue ∨ p'.nak ∨ 0 < p'.freed) then p'.wireBlock fillBlock now else p'

/-- A message is handed to a port (R430). -/
def BoughPort.push (p : BoughPort) (m : Msg) (now : Nat) : BoughPort :=
  BoughPort.pump { p with out := p.out ++ blocksOf m p.msgs, msgs := p.msgs + 1 } now

/-- A link message is handed to a port (R431). -/
def BoughPort.pushLink (p : BoughPort) (l : LinkMsg) (now : Nat) : BoughPort :=
  BoughPort.pump { p with
    out := p.out ++ [{ btype := 5, bseq := 0, payload := linkBytes l, resends := 0, msg := p.msgs, age := 0, since := now, dropped := false }],
    msgs := p.msgs + 1 } now

/-- Bytes of a priority frame (R433). -/
def frameBytes (f : PFrame) : Bytes :=
  withCrc (leBytes 1 f.kind ++ leBytes 1 f.pseq ++ leBytes 2 f.origin ++ leBytes 8 f.tick ++ leBytes 4 f.fraction ++ leBytes 4 f.value ++ zeros 4)

/-- The port sends a frame other than PACK: it takes the next PSEQ and is kept until its PACK, the last 32 of them (R435). A port that is down keeps it for the fast retrain. -/
def BoughPort.sendFrame (p : BoughPort) (f : PFrame) (now : Nat) : BoughPort :=
  let f' := { f with pseq := p.txP }
  let fs := p.frames ++ [{ frame := f', departed := now, resends := 0 }]
  { p with txP := (p.txP + 1) % 256, frames := fs.drop (fs.length - 32),
           wire := if p.link = .up then frameBytes f' :: p.wire else p.wire }

/-- The port sends a PACK (R434, R435). -/
def BoughPort.sendPack (p : BoughPort) (pseq devaddr : Nat) : BoughPort :=
  { p with wire := frameBytes { kind := 6, pseq := 0, origin := devaddr, tick := 0, fraction := 0, value := pseq } :: p.wire }

/-- The port goes down from UP and starts a fast retrain at once (R426, R456). -/
def BoughPort.goDown (p : BoughPort) (since : Nat) : BoughPort :=
  { p with link := .retraining, downSince := some since, linkDowns := p.linkDowns + 1, ranged := false, joinHeld := false, conflict := false }

/-- Every unacknowledged block is sent again, the oldest first (R428). -/
def BoughPort.resendBlocks (p : BoughPort) (now : Nat) : BoughPort :=
  let q := { p with replay := p.replay.map (fun (b : OutBlock) => { b with resends := b.resends + 1 }), blockResends := p.blockResends + p.replay.length, ackAt := now }
  q.replay.foldl (fun q b => q.wireBlock b now) q

/-- Some unacknowledged block has been re-sent eight times (R428). -/
def BoughPort.spent (p : BoughPort) : Bool := p.replay.any fun b => 8 ≤ b.resends

/-- The replay buffers and what waits for a port are discarded (R450). -/
def BoughPort.discard (p : BoughPort) : BoughPort :=
  { p with replay := [], out := [], part := [], partBlocks := 0, pframeDiscards := p.pframeDiscards + p.frames.length, frames := [] }

/-- BOUGH_STATUS of a port (R456). -/
def BoughPort.status (p : BoughPort) : Nat :=
  at' p.link.code 29 + at' p.lanes 25 + bAt ((p.partner.map LinkMsg.clockValid).getD false) 24 + bAt p.ranged 23 +
    bAt p.longCable 22 + bAt p.joinHeld 21 + bAt p.conflict 20 + at' ((p.partner.map LinkMsg.role).getD 0) 17 +
    at' p.replay.length 8 + p.credits

end Sys2Proof.Machine
end

