-- ==== Sys2Proof/Machine/StateAcc.lean ====
section
/-!
DEFINITION. The state of waveform accumulation (04): settings, placement, the cycle, snapshots.
-/
namespace Sys2Proof.Machine

/-- PLACED of ACC_STATUS (R161). -/
inductive Placed where
  | none
  | store
  | spilled
deriving DecidableEq, Repr

/-- The code of PLACED (R161). -/
def Placed.code : Placed → Nat
  | .none => 0
  | .store => 1
  | .spilled => 2

/-- A snapshot being copied (R154, R158): its slot, its header bytes without the CRC, the sections as they stood when it was taken, and the poisoned accumulator blocks it copies. -/
structure Snap where
  slot : Nat
  header : Bytes
  sections : Bytes
  lastSeq : Nat
  poisoned : List Nat
  begun : Nat
deriving DecidableEq, Repr

/-- The present accumulation cycle (R153, R158). -/
structure Cycle where
  number : Nat
  records : Nat
  firstSeq : Nat
  lastSeq : Nat
  excluded : Nat
  flagsOr : Nat
  setIds : List Nat
  saturated : Bool
  snapTick : Nat
  /-- Admitted records that no snapshot yet covers (R157). -/
  uncovered : Nat
deriving DecidableEq, Repr

/-- Counters since arm of R162. -/
structure AccCounters where
  cycles : Nat := 0
  excluded : Nat := 0
  surplus : Nat := 0
  snapSkips : Nat := 0
  saturations : Nat := 0
deriving DecidableEq, Repr

/-- The accumulation of one group (R140 to R162). -/
structure Acc where
  /-- ACC_CONFIG (R140). -/
  cfg : BitVec 256
  placed : Placed
  /-- First store block and number of blocks (R149). -/
  block : Nat
  blocks : Nat
  /-- Store-placed accumulators that differ from their initial value, by index, and their 32-bit values. -/
  values : List (Nat × Nat)
  /-- Spilled 2 KiB blocks already read in this cycle (the cycle tags of R151), and those poisoned (R194). -/
  tagged : List Nat
  poisoned : List Nat
  cycle : Cycle
  /-- The count boundary with STOP is committed: nothing more is accumulated (R153). -/
  stopped : Bool
  /-- Snapshot slots occupied (R156). -/
  occupied : List Nat
  /-- Snapshots being copied, oldest first. -/
  snaps : List Snap
  lastBegun : Option Nat
  /-- Records whose additions are committed or that were excluded, by SEQ: the next SEQ to judge (R144). -/
  nextSeq : Nat
  /-- The SEQ at whose count boundary a snapshot was last lost, and EVT_SEQ of its ACC_SNAPSHOT_LOST: completions of later records follow it (R162). -/
  lost : Option (Nat × Nat)
  cnt : AccCounters
deriving DecidableEq, Repr

/-- A cycle at its beginning. -/
def Cycle.start (n : Nat) : Cycle where
  number := n
  records := 0
  firstSeq := 0
  lastSeq := 0
  excluded := 0
  flagsOr := 0
  setIds := []
  saturated := false
  snapTick := 0
  uncovered := 0

/-- ACC_CONFIG after INIT (R140): TBINS 1,024, ABINS_LOG2 8, COUNT 1, EXCLUDE 0x0003, SNAP_SLOTS 2. -/
def accCfgReset : BitVec 256 := BitVec.ofNat 256 (at' 1024 163 + at' 8 159 + at' 1 96 + at' 3 80 + at' 2 68)

/-- DECIM_CONFIG after INIT (R129): RATIO 0x0100_0000, FACTOR 1. -/
def decReset : BitVec 128 := BitVec.ofNat 128 (at' 0x01000000 96 + at' 1 64)

/-- A group's accumulation after INIT. -/
def Acc.reset : Acc where
  cfg := accCfgReset
  placed := .none
  block := 0x7FFF
  blocks := 0
  values := []
  tagged := []
  poisoned := []
  cycle := Cycle.start 0
  stopped := false
  occupied := []
  snaps := []
  lastBegun := none
  nextSeq := 0
  lost := none
  cnt := {}

end Sys2Proof.Machine
end

