-- ==== Sys2Proof/Machine/StateBoard.lean ====
section
/-!
DEFINITION. The state of power-up, faults, pins and board interfaces (16, 17, 18).
-/
namespace Sys2Proof.Machine

/-- The stages of the engine before and beside command handling (R347, R461 to R476). After READY the reported state follows from the rest of the machine. -/
inductive Boot where
  | reset
  | heartwood
  | awaitImage
  | init
  | run
  | fault
deriving DecidableEq, Repr

/-- Instructions of the test access port (R512). -/
inductive TapInstr where
  | extest
  | idcode
  | samplePreload
  | clamp
  | highz
  | extestPulse
  | extestTrain
  | bypass
deriving DecidableEq, Repr

/-- The last read of the SMBus slave: its command code and the bytes returned, lowest first (R508, R510); none of them when the slave did not acknowledge. -/
structure SmbRead where
  code : Nat
  acked : Bool
  data : Bytes
deriving DecidableEq, Repr

/-- Power-up, pins, BOOT_STATUS, ENGINE_WORD and board interfaces. -/
structure Board where
  boot : Boot
  pwrOk : Bool
  perstReleased : Bool
  /-- BOOT_STATUS (R477). -/
  bootStatus : BitVec 32
  /-- ENGINE_WORD [23:0] (R491): FATAL, THERM, OBJ and FAULT_REASON; STATE is computed. -/
  engineWord : BitVec 24
  /-- The tick at which FAULT was entered after READY, and the row of the cause recorded in the table of R483: a higher row of the same tick takes its place (R485). -/
  faultFrom : Nat
  faultRow : Nat
  ready : Bool
  /-- FAULT_N and THERM_N are driven low (R474, R485). -/
  faultLow : Bool
  thermLow : Bool
  /-- Internal tick at which INIT began, ticket and path of IMAGE_START (R385, R466, R475). -/
  initAt : Nat
  initTicket : Nat
  /-- SELF_CAL, or QUADS and MEM_INIT, were last set at this tick (R473). -/
  readyFrom : Nat
  /-- A SYS_RESET was executed: the engine enters RESET once its reply is written (R360). -/
  resetPending : Bool
  /-- The thermal watch runs: self-test step 6 has passed (R462). -/
  thermWatch : Bool
  /-- After a thermal trip the quads' buffers and banks are powered off once the clocks have stopped (R484). -/
  quadsOff : Bool
  /-- SMBus straps as sampled (R506), the alert line and the slave. -/
  straps : Nat
  strapPins : Nat
  alert : Bool
  smb : Option SmbRead
  /-- Test access port: instruction, its boundary register of 151 cells (R511 to R513). -/
  tap : TapInstr
  boundary : BitVec 151
  /-- TRIGIN pins: level, and the time of the last falling and of the last rising edge, in 2^-32 tick units (R530). -/
  trigin : List (Bool × Option Nat × Option Nat)
deriving DecidableEq, Repr

/-- BOOT_STATUS on leaving RESET (R477). -/
def bootStatusReset : BitVec 32 := 0x000F0000#32

/-- ENGINE_WORD [23:0] at reset (R491). -/
def engineWordReset : BitVec 24 := 0x0F0000#24

/-- The board side before power is good: PWR_OK low, PERST_N asserted, everything undriven (R460, R474). -/
def Board.reset : Board where
  boot := .reset
  pwrOk := false
  perstReleased := false
  bootStatus := bootStatusReset
  engineWord := engineWordReset
  faultFrom := 0
  faultRow := 0
  ready := false
  faultLow := false
  thermLow := false
  initAt := 0
  initTicket := 0
  readyFrom := 0
  resetPending := false
  thermWatch := false
  quadsOff := false
  straps := 0
  strapPins := 0
  alert := false
  smb := none
  tap := .idcode
  boundary := 0
  trigin := List.replicate 4 (false, none, none)

end Sys2Proof.Machine
end

