-- ==== Sys2Proof/Machine/StateInput.lean ====
section
/-!
DEFINITION. The state of the inputs, quads, banks, sample links and live correction coefficients (01, 07).
-/
namespace Sys2Proof.Machine

/-- QUAD_STATE of BANK_STATUS (R53). -/
inductive QuadState where
  | off
  | powering
  | training
  | converging
  | retiming
  | ready
deriving DecidableEq, Repr

/-- The code of QUAD_STATE (R53). -/
def QuadState.code : QuadState → Nat
  | .off => 0
  | .powering => 1
  | .training => 2
  | .converging => 3
  | .retiming => 4
  | .ready => 5

/-- The calibration switch of a quad's inputs (R21 stage 3). -/
inductive Switch3 where
  | connect
  | isolate
  | source
deriving DecidableEq, Repr

/-- The code of SWITCH in CAL_STATUS (R253). -/
def Switch3.code : Switch3 → Nat
  | .connect => 0
  | .isolate => 1
  | .source => 2

/-- Offset (2^-8 LSB), gain deviation (2^-20) and skew (0.1 fs) of a slice, in the units of R248. -/
structure SliceCoef where
  offset : Int := 0
  gain : Int := 0
  skew : Int := 0
deriving DecidableEq, Repr

/-- The coefficients of one bank record (R248): gain (Q2.30) and offset (2^-8 LSB) per range, skew and fused phases in fs, VALID, sixteen taps (Q1.14) per range and filter pair, and 33 slices. -/
structure BankCoef where
  gains : List Int
  offsets : List Int
  skew : Int
  phaseF2 : Int
  phaseF4 : Int
  valid : Nat
  taps : List (List Int)
  slices : List SliceCoef
deriving DecidableEq, Repr

/-- Unity corrections, with nothing VALID: what a bank applies with no set in force. -/
def BankCoef.unity : BankCoef where
  gains := List.replicate 4 (2 ^ 30)
  offsets := List.replicate 4 0
  skew := 0
  phaseF2 := 0
  phaseF4 := 0
  valid := 0
  taps := List.replicate 12 ((2 ^ 14 : Int) :: List.replicate 15 0)
  slices := List.replicate 33 {}

/-- Consecutive samples of one bank: the internal tick of the first and the sample words (R40, R45). -/
structure Block where
  first : Nat
  words : List Nat
deriving DecidableEq, Repr

/-- The background tier's record of one slice (R223, R225): the last two estimates of each quantity and how many there were. -/
structure SliceBg where
  offsets : List Int := []
  gains : List Int := []
  skews : List Int := []
deriving DecidableEq, Repr

/-- The three counters of R54. -/
structure LinkCounters where
  resends : Nat := 0
  faults : Nat := 0
  maxLateness : Nat := 0
deriving DecidableEq, Repr

/-- The sample link of one bank, both ends (R45 to R51). -/
structure SampleLink where
  /-- The link is trained and delivering (LINK_UP of R53). -/
  up : Bool
  faulted : Bool
  /-- The bank stays faulted until power-down after three retries (R51). -/
  abandoned : Bool
  /-- The block number the receiver expects next. -/
  expect : Nat
  /-- The tick at which the re-sent block will be checked, while the receiver discards (R47). -/
  awaiting : Option Nat
  /-- The transmitter's scheduled re-send: block and slot start (R47). -/
  resend : Option (Nat × Nat)
  /-- The transmitter's replay window, newest block first, at most 64 (R47). -/
  replay : List Block
  /-- The alignment FIFO, oldest block first, at most ten (R49). -/
  fifo : List Block
  /-- Retraining attempts made after a fault (R51). -/
  retries : Nat
  /-- Retraining is complete and the 1,024 blocks are being checked; how many have passed (R51). -/
  checking : Option Nat
  /-- Grove tick of the first undelivered sample of the present fault (R52). -/
  faultTick : Nat
  /-- Over-range recovery words still to carry OVR (R43). -/
  ovrHold : Nat
  /-- The number of the next block the transmitter will take from the bank (R45). -/
  txNext : Nat
  /-- The tick of the first sample delivered since the link was trained or the bank returned (R35, R39, R51). -/
  start : Nat
  cnt : LinkCounters
deriving DecidableEq, Repr

/-- One converter bank (R30 to R32, R53, R54) with its corrections and its delivered samples. -/
structure Bank where
  link : SampleLink
  degraded : Bool
  /-- The slice that occupies each phase position (R30). -/
  positions : List Nat
  /-- Before the tick given, the positions were these (R31); coefficients likewise (R240). -/
  oldPositions : Option (Nat × List Nat)
  oldCoef : Option (Nat × BankCoef)
  /-- The free slice; none once a slice was retired (R31, R32). -/
  spare : Option Nat
  retired : Option Nat
  /-- Coefficients in force (R240). -/
  coef : BankCoef
  /-- Live slice coefficients (R223), 33 of them, in units of 2^-16 of the formats of R248 (log 21). -/
  live : List SliceCoef
  bg : List SliceBg
  converged : Bool
  calCount : Nat
  lastFgTick : Nat
  bgEstimates : Nat
  bgSkips : Nat
  /-- Corrected samples that left the FIFO, newest block first (R49, R108). -/
  hist : List Block
  /-- For each held interval of the quad, by its first tick, the last word of the bank before it (R237). -/
  heldWords : List (Nat × Nat)
deriving DecidableEq, Repr

/-- One input: its INPUT_CONFIG structure (R365) and its channel comparator (R68). -/
structure Input where
  cfg : BitVec 32
  /-- The CMP_CONFIG structure (R368). -/
  cmp : BitVec 32
  cmpHigh : Bool
  /-- Below the level minus hysteresis seen since the last rising crossing, and at or above the level plus hysteresis since the last falling one (R62). -/
  cmpLow : Bool
  cmpTop : Bool
  /-- The samples the comparator evaluated since its last restart, newest first, at most two, and the tick of the last (R61, R537). -/
  cmpPrev : List Nat
  cmpTick : Option Nat
deriving DecidableEq, Repr

/-- One quad: power, fusion, temperature and the place of its coefficients (R35, R39, R53, R249). -/
structure Quad where
  state : QuadState
  fusion : Nat
  since : Nat
  /-- Ticket that QUAD_READY will carry (R366). -/
  ticket : Nat
  /-- Die temperature in 1/16 degree (R249), and that at which the coefficients in force were interpolated (R243). -/
  temp : Int
  coefTemp : Int
  /-- The quad's control domains are powered, and its buffers and banks (R462 step 5, R467). -/
  control : Bool
  switch : Switch3
  /-- Ticks out of CONNECT in the open run before the last switch move, and the tick at which the switch left CONNECT (R236, R412). -/
  outTicks : Nat
  outSince : Nat
  /-- Held interval: its start and its end (R237). -/
  held : Option (Nat × Option Nat)
  /-- Past held intervals, for STALE (R238). -/
  heldPast : List (Nat × Nat)
  setId : Nat
  /-- Before the tick given, the set in force was this, UNTRACED or not (R244). -/
  oldSet : Option (Nat × Nat × Bool)
  untraced : Bool
  /-- A set, and a background or temperature change, waits to enter (R253). -/
  setPending : Bool
  bgPending : Bool
  leaky : Bool
  lastChangeover : Nat
  changeovers : Nat
  gatherTicks : Nat
  /-- An open gather and its opening tick (R242). -/
  gather : Option Nat
  lastOutcome : Nat
  /-- EVT_SEQ of the last CAL_ENTERED and CAL_ISOLATED of the quad (R244). -/
  entered : Nat
  isolated : Nat
deriving DecidableEq, Repr

/-- A sample link before training (R53). -/
def SampleLink.reset : SampleLink where
  up := false
  faulted := false
  abandoned := false
  expect := 0
  awaiting := none
  resend := none
  replay := []
  fifo := []
  retries := 0
  checking := none
  faultTick := 0
  ovrHold := 0
  txNext := 0
  start := 0
  cnt := {}

/-- A bank before INIT: S0 to S31 in P0 to P31 and S32 free (R30, R53). -/
def Bank.reset : Bank where
  link := SampleLink.reset
  degraded := false
  positions := List.range 32
  oldPositions := none
  oldCoef := none
  spare := some 32
  retired := none
  coef := BankCoef.unity
  live := List.replicate 33 {}
  bg := List.replicate 33 {}
  converged := false
  calCount := 0
  lastFgTick := 0
  bgEstimates := 0
  bgSkips := 0
  hist := []
  heldWords := []

/-- An input after INIT (R29, R68, R365, R368): 1000 mVpp, 10 GHz, offset 0; level 0, hysteresis 16, LOW. -/
def Input.reset : Input where
  cfg := BitVec.ofNat 32 (at' 3 30)
  cmp := BitVec.ofNat 32 (at' 16 4)
  cmpHigh := false
  cmpLow := false
  cmpTop := false
  cmpPrev := []
  cmpTick := none

/-- A quad before INIT: off, F1, its switch in CONNECT (R24, R29, R53). -/
def Quad.reset : Quad where
  state := .off
  fusion := 0
  since := 0
  ticket := 0
  temp := 0
  coefTemp := 0
  control := false
  switch := .connect
  outTicks := 0
  outSince := 0
  held := none
  heldPast := []
  setId := 0
  oldSet := none
  untraced := false
  setPending := false
  bgPending := false
  leaky := false
  lastChangeover := 0
  changeovers := 0
  gatherTicks := 0
  gather := none
  lastOutcome := 0
  entered := 0
  isolated := 0

end Sys2Proof.Machine
end

