-- ==== Sys2Proof/Machine/StateCal.lean ====
section
/-!
DEFINITION. The state of calibration (07, 16): its configuration, correction sets, the foreground run and the self-calibration.
-/
namespace Sys2Proof.Machine

/-- The phase of a named quad in a foreground run (R229). -/
inductive CalPhase where
  | leakage
  | isolating
  | sourcing
  | runA
  | runB
  | compare
  | restore
  | stopping
  | stopHeld
deriving DecidableEq, Repr

/-- The state of a foreground run (R227 to R235). -/
structure CalRun where
  mask : Nat
  proceed : Bool
  ticket : Nat
  /-- The run drains from this tick; none once the drain is over (R228). -/
  drain : Option Nat
  /-- The quad now run, its phase and the tick at which its run began. -/
  cur : Option (Nat × CalPhase × Nat)
  /-- Outcome of each quad: 0xFFFF until it ends (R235). -/
  outcomes : List Nat
  /-- The new points of quads that succeeded, as bytes of R247. -/
  points : List (Nat × Bytes)
  aborted : Bool
  /-- Every named quad has ended, at this tick. -/
  ended : Option Nat
  /-- LEAKY to be put on the points of these quads (R230). -/
  leaky : Nat
deriving DecidableEq, Repr

/-- The phase of the self-calibration of INIT (R470). -/
inductive SelfPhase where
  | leakage
  | converge (n : Nat)
  | measure
deriving DecidableEq, Repr

/-- The self-calibration in progress (R469 to R472): the CALDC_UV and the base set taken at its start. -/
structure SelfCal where
  phase : SelfPhase
  since : Nat
  caldc : Nat
  base : Option Bytes
  /-- Quads whose leakage check found an active input (R470). -/
  active : Nat
  windows : Nat
  outcomes : List Nat
  points : List (Nat × Bytes)
deriving DecidableEq, Repr

/-- What the self-calibration reported, for INIT_DONE (R475). -/
structure SelfCalResult where
  outcomes : List Nat
  kind : Nat
  windows : Nat
  at_ : Nat
deriving DecidableEq, Repr

/-- Calibration (07). -/
structure Cal where
  /-- CAL_CONFIG, the 64-bit structure of R226. -/
  cfg : BitVec 64
  /-- Correction sets as byte streams (R245, R246). -/
  active : Option Bytes
  pending : Option Bytes
  /-- The 128 KiB staging buffer as address and byte pairs, zeros left out (R250). -/
  staging : List (Nat × Byte)
  nextId : Nat
  run : Option CalRun
  /-- Quad mask of a run opened by the CAL_OPEN service call (R411, R412). -/
  svc : Option Nat
  self : Option SelfCal
  selfResult : Option SelfCalResult
  runs : Nat
  failures : Nat
deriving DecidableEq, Repr

/-- CAL_CONFIG after INIT (R226): BG_PERIOD 1,000 ms, IDLE_ONLY, no CALDC declared, every group HOLD_STALE. -/
def calCfgReset : BitVec 64 := BitVec.ofNat 64 (at' 1000 16)

/-- Calibration after power-up (R226, R245). -/
def Cal.reset : Cal where
  cfg := calCfgReset
  active := none
  pending := none
  staging := []
  nextId := 1
  run := none
  svc := none
  self := none
  selfResult := none
  runs := 0
  failures := 0

end Sys2Proof.Machine
end

