-- ==== Sys2Proof/Machine/StateTrigger.lean ====
section
/-!
DEFINITION. The state of the trigger units, the combiners and the trigger outputs (02).
An event time is a count of 2^-32 tick units on the internal tick scale.
-/
namespace Sys2Proof.Machine

/-- An event that a unit delivered to the combiners (R55, R82): its time, its flags and the tick of its completing sample. -/
structure UEvent where
  unit : Nat
  time : Nat
  ovrInterp : Bool
  linear : Bool
  grove : Bool
  sampleTick : Nat
  gtn : Nat
  origin : Nat
deriving DecidableEq, Repr

/-- What a condition remembers between samples (R62 to R67): the last samples, the qualifications of both levels, and the crossings that open a measurement. -/
structure Cond where
  /-- Samples evaluated since the last restart, newest first, at most three words. -/
  prev : List Nat := []
  lowA : Bool := false
  topA : Bool := false
  lowB : Bool := false
  topB : Bool := false
  /-- WINDOW: the signal is inside; none before the first sample. -/
  inside : Option Bool := none
  /-- Opening crossings: rising and falling of LEVEL_A, rising and falling of LEVEL_B. -/
  riseA : Option Nat := none
  fallA : Option Nat := none
  riseB : Option Nat := none
  /-- INTERVAL: the last crossing. -/
  last : Option Nat := none
  /-- PATTERN: the product; none before the first sample. -/
  product : Option Bool := none
deriving DecidableEq, Repr

/-- A trigger unit (R56, R59): its structure, its condition, the next sample index it evaluates, and a pending AT_TICK (R96). -/
structure TUnit where
  cfg : BitVec 256
  cond : Cond
  /-- The tick whose samples the unit evaluated last (R537). -/
  last : Option Nat
  /-- Events decided and not yet delivered to the combiners, oldest first (R55). -/
  queued : List UEvent
  atTick : Option Nat
  events : Nat
  extra : Nat
  cancels : Nat
deriving DecidableEq, Repr

/-- A time-tagged cause of a TRIGIN, MONWIN or SOFTWARE source that waits to reach its units (R58): the source code of R57, the level of a TRIGIN edge, its time, and the unit a software trigger names. -/
structure Tagged where
  source : Nat
  rising : Bool
  time : Nat
  unit : Nat
deriving DecidableEq, Repr

/-- A pulse or a level change that a TRIGOUT is due to drive (R97). -/
structure Trigout where
  /-- The TRIGOUT_CONFIG structure (R369). -/
  cfg : BitVec 64
  high : Bool
  /-- The tick at which the pulse now high ends. -/
  endAt : Nat
  /-- Scheduled pulse starts. -/
  starts : List Nat
  /-- Scheduled level changes: tick and level. -/
  levels : List (Nat × Bool)
deriving DecidableEq, Repr

/-- TU configuration after INIT (R59): HYST 16, INTERP 1. -/
def tuReset : BitVec 256 := BitVec.ofNat 256 (at' 16 84 + at' 1 23)

/-- A trigger unit after INIT. -/
def TUnit.reset : TUnit where
  cfg := tuReset
  cond := {}
  last := none
  queued := []
  atTick := none
  events := 0
  extra := 0
  cancels := 0

/-- A trigger output after INIT: OFF, WIDTH 1, low (R97, R369). -/
def Trigout.reset : Trigout where
  cfg := BitVec.ofNat 64 (at' 1 28)
  high := false
  endAt := 0
  starts := []
  levels := []

/-- The combiner structure after INIT (R76): FIRE_MODE ANY. -/
def combinerReset : BitVec 128 := BitVec.ofNat 128 (at' 1 14)

end Sys2Proof.Machine
end

