-- ==== Sys2Proof/Machine/StateCapture.lean ====
section
/-!
DEFINITION. The state of the capture groups: region, sequence, stage of the combiner, records in assembly and counters (02, 03).
A sample index is F times the internal tick plus the phase (R37).
-/
namespace Sys2Proof.Machine

/-- STATE of CAP_STATUS (R127). -/
inductive GState where
  | off
  | configured
  | armed
  | filling
  | holdoff
  | done
deriving DecidableEq, Repr

/-- The code of STATE in CAP_STATUS (R127). -/
def GState.code : GState → Nat
  | .off => 0
  | .configured => 1
  | .armed => 2
  | .filling => 3
  | .holdoff => 4
  | .done => 5

/-- DONE_CAUSE of CAP_STATUS (R127). -/
inductive DoneCause where
  | none
  | stopped
  | full
  | linkFault
  | clockLost
  | overflow
  | assemblyOverrun
deriving DecidableEq, Repr

/-- The code of DONE_CAUSE (R127). -/
def DoneCause.code : DoneCause → Nat
  | .none => 0
  | .stopped => 1
  | .full => 2
  | .linkFault => 3
  | .clockLost => 4
  | .overflow => 5
  | .assemblyOverrun => 6

/-- The stage of a combiner (R78, R79). -/
inductive Stage where
  | idle
  | armer
  | firer
  | delay
deriving DecidableEq, Repr

/-- The code of STAGE in TRIG_STATUS (R98). -/
def Stage.code : Stage → Nat
  | .idle => 0
  | .armer => 1
  | .firer => 2
  | .delay => 3

/-- A record from its acceptance to its completion (R109 to R126). -/
structure Record where
  seq : Nat
  segment : Nat
  /-- TRIGGER_TICK, TRIGGER_FRACTION, EVENT_TICK and DELAY_APPLIED as written (R80, R82), in grove time. -/
  tick : Nat
  fraction : Nat
  eventTick : Nat
  delay : Nat
  mask : Nat
  units : List UEvent
  /-- The trigger time on the internal scale, in 2^-32 tick. -/
  time : Nat
  channels : Nat
  f : Nat
  decim : BitVec 128
  /-- Index of the trigger sample, of the first sample, and of the sample after the last; none while unbounded (R109). -/
  trig : Nat
  first : Nat
  stop : Option Nat
  /-- FLAGS as far as they are fixed (R122). -/
  flags : Nat
  epoch : Nat
  setId : Nat
  acceptedAt : Nat
  grove : Bool
  /-- SEGMENTED: indices of the record blocks written (R110). -/
  written : List Nat
  /-- STREAMING: numbers since the arm of the stream blocks written, the opening block first (R116). -/
  places : List Nat
  /-- EVT_SEQ of the newest event that affects it (promise 4 of R212). -/
  after : Nat
deriving DecidableEq, Repr

/-- A missed trigger's log entry that waits for its place among the completions (R87): its time and its 32 bytes. -/
structure Missed where
  time : Nat
  body : Bytes
deriving DecidableEq, Repr

/-- Counters of R99 and R128 and CAL_SKIPS (R254); those since arm restart at each GROUP_ARM. -/
structure GroupCounters where
  accepted : Nat := 0
  missed : Nat := 0
  holdoffSkips : Nat := 0
  backdateShorts : Nat := 0
  groveEarly : Nat := 0
  groveLate : Nat := 0
  recordsMade : Nat := 0
  wraps : Nat := 0
  lockSkips : Nat := 0
  streamOverflows : Nat := 0
  calSkips : Nat := 0
  armRefusals : Nat := 0
deriving DecidableEq, Repr

/-- Hold-off by EVENTS in progress (R84): the events still to come and the trigger time they must follow. -/
inductive Holdoff where
  | none
  | events (left : Nat) (after : Nat)
deriving DecidableEq, Repr

/-- A GROUP_ARM that passed the check and whose reply waits (R372, R390). -/
structure ArmWait where
  path : Path
  /-- Stripes are being re-initialised (R170). -/
  reinit : Bool
deriving DecidableEq, Repr

/-- A trigger that a delay by TICKS holds back (R79, R80): the events and COINCIDENT_MASK of the firing tick, the trigger time before the delay, and the combiner tick at which it is over. -/
structure Delayed where
  events : List UEvent
  mask : Nat
  before : Nat
  due : Nat
deriving DecidableEq, Repr

/-- One capture group: configuration, states and the combiner's progress (02, 03). -/
structure Group where
  /-- CAPTURE_CONFIG (R100). -/
  cap : BitVec 384
  /-- DECIM_CONFIG (R129). -/
  dec : BitVec 128
  /-- COMBINER_CONFIG (R76). -/
  comb : BitVec 128
  state : GState
  cause : DoneCause
  overflow : Bool
  wrapped : Bool
  nextSegment : Nat
  nextSeq : Nat
  /-- Samples per tick of the owned channels, fixed at the arm. -/
  f : Nat
  /-- The tick of S0 (R104). -/
  s0 : Nat
  /-- The first arm since INIT has been made (R391 step 3). -/
  everArmed : Bool
  armWait : Option ArmWait
  stage : Stage
  /-- The firer stage takes events from this tick on (R78). -/
  firerFrom : Nat
  /-- A delay by EVENTS is pending: the firing time and the events still to come (R79). -/
  delayFrom : Nat
  delayLeft : Nat
  /-- A delay by TICKS is pending (R79). -/
  delayed : Option Delayed
  /-- The re-arm sample; none while the hold-off has not expired or the record is unbounded (R85). -/
  rearm : Option Nat
  /-- The sample after the last post-trigger sample of the last accepted trigger; none while unbounded (R85, R86). -/
  postEnd : Option Nat
  hold : Holdoff
  /-- The group accepts no further trigger and enters DONE with this cause once its records are complete (R103). -/
  ending : Option DoneCause
  /-- Quads whose run or gather has closed the group, as a mask (R228, R242), and the tick of the closing. -/
  closed : Nat
  closedAt : Nat
  /-- The re-arm sample at which the group reopens after the changeover (R242). -/
  reopen : Option Nat
  /-- Past closed intervals: the tick of the closing and the re-arm sample at the reopening (R228, R242). -/
  closedPast : List (Nat × Nat)
  /-- The group is to be closed when its fill ends (R228, R242). -/
  closeAtFill : Nat
  /-- Records accepted whose completion has not been written, oldest first. -/
  records : List Record
  /-- Missed triggers logged whose completion has not been written, oldest first. -/
  missedLog : List Missed
  logged : Nat
  lastMask : Nat
  lastTick : Nat
  lastFraction : Nat
  lastTime : Nat
  /-- Stream blocks written, and drained, counted since the arm (R116, R204). -/
  streamWritten : Nat
  streamDrained : Nat
  /-- Stream blocks reserved for closing blocks (R118). -/
  streamReserved : Nat
  /-- Changes of the ARMED state, newest first, as tick and level, as far back as an output can follow (R97, R369). -/
  armedLog : List (Nat × Bool)
  cnt : GroupCounters
deriving DecidableEq, Repr

/-- CAPTURE_CONFIG after INIT (R100): POST_COUNT 1, BACKDATE_RESERVE 256, SEG_COUNT 1, GRAIN 4. -/
def capReset : BitVec 384 := BitVec.ofNat 384 (at' 1 192 + at' 256 128 + at' 1 103 + at' 4 44)

end Sys2Proof.Machine
end

