-- ==== Sys2Proof/Machine/StateClock.lean ====
section
/-!
DEFINITION. The state of the clock system (08): the loops, the reference monitor, slews, a waiting sync, the keeper and grove time.
Internal instants are counts of 50 ps ticks since the model's start that never wrap; grove time is such a count plus an offset (R10, R280).
-/
namespace Sys2Proof.Machine

/-- LOOP of CLK_STATUS (R283). -/
inductive Loop where
  | off
  | searching
  | acquiring
  | locked
  | coasting
deriving DecidableEq, Repr

/-- The code of LOOP in CLK_STATUS (R283). -/
def Loop.code : Loop → Nat
  | .off => 0
  | .searching => 1
  | .acquiring => 2
  | .locked => 3
  | .coasting => 4

/-- DRIVE of CLK_STATUS (R283): the loop that drives the sample clocks. -/
inductive Drive where
  | stopped
  | main
  | fallback
deriving DecidableEq, Repr

/-- The code of DRIVE in CLK_STATUS (R283). -/
def Drive.code : Drive → Nat
  | .stopped => 0
  | .main => 1
  | .fallback => 2

/-- What started a slew (R266, R270, R281, R446, R447). -/
inductive SlewKind where
  | trim
  | align
  | snap
  | sync
  | tracking
deriving DecidableEq, Repr

/-- A slew in progress: its whole amount in fs, the tick it began and the ticket its completing event carries (R281, R386).
load is the whole-tick load that SYNC_DONE reports with the slew of a sync (R266). -/
structure Slew where
  kind : SlewKind
  amount : Int
  start : Nat
  ticket : Nat
  load : Int
deriving DecidableEq, Repr

/-- A CLOCK_SYNC that waits for its edge (R265, R266): lows counts the REFIN edges that sampled SYNCIN low. -/
structure SyncWait where
  syncTick : Nat
  timeoutMs : Nat
  since : Nat
  ticket : Nat
  lows : Nat
deriving DecidableEq, Repr

/-- The common start that is due (R265): its tick, the T0 it takes, and the ticket and outcome (0 OK, 1 TIMEOUT) of the sync that made it. -/
structure CommonDue where
  due : Nat
  start : Nat
  sync : Option (Nat × Nat)
deriving DecidableEq, Repr

/-- An entry of the band cache, keyed by REF_SOURCE, REF_FREQ and SCALER (R264); temp is the engine die's temperature as the code of MON4 (R311). -/
structure BandEntry where
  source : Nat
  freq : Nat
  scaler : Nat
  band : Nat
  fine : Nat
  gain : Nat
  temp : Nat
deriving DecidableEq, Repr

/-- A switch of the phase generator that a beat boundary will make (R271, R272, R273, R274). -/
inductive Switch where
  | toFallback
  | toMain
  | stop
  | restart
deriving DecidableEq, Repr

/-- The keeper of the AO island (R278): its count in units of 2^-32 tick at the instant noted, and its step per XO_IN cycle in the same units. -/
structure Keeper where
  count : Nat
  noted : Nat
  step : Nat
deriving DecidableEq, Repr

/-- The 64-bit counters of R284. -/
structure ClockCounters where
  lockLosses : Nat := 0
  refLosses : Nat := 0
  fallbackSwitches : Nat := 0
  clockStops : Nat := 0
  bandSearches : Nat := 0
  cacheHits : Nat := 0
  holdoverTicks : Nat := 0
  timeLoads : Nat := 0
deriving DecidableEq, Repr

/-- The clock system (08). -/
structure Clock where
  /-- The clock plan in force, the structure of R260. -/
  plan : BitVec 128
  loop : Loop
  drive : Drive
  fbStandby : Bool
  refPresent : Bool
  xoPresent : Bool
  /-- The first judgement of the reference after INIT began or a hop began: until then no loss is declared (R261). -/
  refJudged : Bool
  slew : Option Slew
  /-- A SNAP slew waits for the running slew to end (R270). -/
  snapWaiting : Bool
  sync : Option SyncWait
  /-- The common start that is due (R265). -/
  commonDue : Option CommonDue
  /-- The scheduled switch of the phase generator and its beat boundary (R271, R272). -/
  switch : Option (Nat × Switch)
  band : Nat
  fine : Nat
  cacheHit : Bool
  /-- The band cache, the most recently used entry first, at most 16 (R264). -/
  cache : List BandEntry
  goodWindows : Nat
  /-- Lock windows are being counted (R263, R264). -/
  windows : Bool
  /-- Mean frequency words of the last lock windows with their ends, newest first (R268). -/
  words : List (Nat × Nat)
  /-- The frequency word the main loop coasts on (R268). -/
  coastWord : Nat
  /-- A plan hop in progress: its start (R261). -/
  hop : Option Nat
  /-- Grove time less the internal tick (R10, R280). -/
  off : Int
  /-- T0 of the common start in grove ticks, moved by every load (R33, R280); none before the common start. -/
  t0 : Option Int
  /-- The first tick whose samples are delivered after the common start or a restart (R273). -/
  firstDelivered : Nat
  /-- Spans, in internal ticks, within which records carry CLOCK_SUSPECT: slews, and switch ticks (R270, R271, R281). -/
  suspect : List (Nat × Option Nat)
  keeper : Keeper
  refPhaseStep : Int
  refOffset : Int
  /-- The start of the present cold lock, for the time limit of R466. -/
  lockSince : Nat
  /-- SQ synthesiser waits for its re-phasing after a load (R285). -/
  sqRephase : Bool
  cnt : ClockCounters
deriving DecidableEq, Repr

/-- The clock plan's value after power-up (R260): REF_FREQ 100,000,000,000, REFOUT_DIV 100, SYNCOUT_LOG2 20, REF_SOURCE REFIN, FALLBACK_EN 1. -/
def planReset : BitVec 128 :=
  BitVec.ofNat 128 (at' 100000000000 88 + at' 100 72 + at' 20 64 + at' 1 30 + at' 1 27)

/-- The clock system after power-up (R260, R283, R284). -/
def Clock.reset : Clock where
  plan := planReset
  loop := .off
  drive := .stopped
  fbStandby := false
  refPresent := false
  xoPresent := false
  refJudged := false
  slew := none
  snapWaiting := false
  sync := none
  commonDue := none
  switch := none
  band := 0
  fine := 0
  cacheHit := false
  cache := []
  goodWindows := 0
  windows := false
  words := []
  coastWord := 0
  hop := none
  off := 0
  t0 := none
  firstDelivered := 0
  suspect := []
  keeper := { count := 0, noted := 0, step := 200 * 2 ^ 32 }
  refPhaseStep := 0
  refOffset := 0
  lockSince := 0
  sqRephase := false
  cnt := {}

end Sys2Proof.Machine
end

