-- ==== Sys2Proof/Machine/StateMemory.lean ====
section
/-!
DEFINITION. The state of the memory system (05): the array, poison, grains, pseudo-channels, ports, stacks, the memory clock, BAR2.
-/
namespace Sys2Proof.Machine

/-- A 32-byte request in a pseudo-channel queue (R173): port code, unit number (EPA / 32), whether it writes, and the tick at which it entered. -/
structure MemReq where
  port : Nat
  addr : Nat
  write : Bool
  entered : Nat
deriving DecidableEq, Repr

/-- A scheduled neighbour refresh (R186): bank, row, and the tick it was scheduled. -/
structure Neighbour where
  bank : Nat
  row : Nat
  scheduled : Nat
deriving DecidableEq, Repr

/-- One pseudo-channel (R163, R176, R182 to R187). -/
structure Pc where
  reads : List MemReq
  writes : List MemReq
  /-- The write queue is being drained (R176). -/
  draining : Bool
  /-- Open rows: bank, row, tick of the last access, and whether the hint closes it by timer (R179). -/
  openRows : List (Nat × Nat × Nat × Bool)
  debt : Nat
  nextBank : Nat
  /-- Tick of the last refresh issued; during a pull-in, of the last one it will issue (R182, R185). -/
  lastRefresh : Nat
  nextDue : Nat
  neighbours : List Neighbour
deriving DecidableEq, Repr

/-- One memory port (R172, R174, R175). -/
structure Port where
  cfg : BitVec 64
  panic : Bool
  level : Nat
  entries : Nat
  maxLevel : Nat
  /-- Reads issued and not yet returned, oldest first: the unit numbers (R173). -/
  reads : List Nat
  /-- The data last returned, and whether it was poisoned (R181, R192). -/
  data : Bytes
  poisoned : Bool
deriving DecidableEq, Repr

/-- Counters per stack of R196. -/
structure StackCounters where
  postponed : Nat := 0
  forced : Nat := 0
  pullins : Nat := 0
  neighbours : Nat := 0
  neighbourForced : Nat := 0
  ageCapWins : Nat := 0
  forwardHits : Nat := 0
  corrected : Nat := 0
  uncorrectable : Nat := 0
deriving DecidableEq, Repr

/-- One stack (R183, R195). -/
structure Stack where
  trained : Bool
  hot : Bool
  /-- The last temperature reading in tenths of a degree, and whether one was made since power-up (R313). -/
  temp : Int
  wasRead : Bool
  maxDebt : Nat
  cnt : StackCounters
deriving DecidableEq, Repr

/-- What the memory clock is doing (R189, R190). -/
inductive MemClockPhase where
  | idle
  | relock
  | training (pass : Nat)
deriving DecidableEq, Repr

/-- The memory clock and training (R190). -/
structure MemClock where
  rate : Nat
  phase : MemClockPhase
  target : Nat
  /-- The training in progress is the initial one of INIT. -/
  initial : Bool
  /-- Tick at which the relock or the pass began. -/
  since : Nat
  /-- Tickets closed by MEM_CLOCK_DONE when the training in progress completes: a queued change that was made, and target-rate commands. -/
  deferred : List Nat
  /-- The queued change: RATE and ticket, 0 for a service call's (R411). -/
  queued : Option (Nat × Nat)
  lastPass : Nat
deriving DecidableEq, Repr

/-- The memory system (05). -/
structure Memory where
  /-- Bytes of installed memory that differ from what initialisation writes, addresses rising (R170, R171). -/
  cells : List Host.Cell
  /-- Poisoned 32-byte units, rising (R192). -/
  poison : List Nat
  /-- Spans of the array, from an address up to another, whose bytes the spec leaves open: rings of groups that were armed, until they are written (R106, R108). -/
  open_ : List (Nat × Nat)
  /-- Groups whose region or area was written through BAR2 while they were armed, as a mask: the effect on their records is undefined (R167). -/
  spoiled : Nat
  /-- Stripes whose GRAIN is not 0x4, rising (R169, R171). -/
  grains : List (Nat × Nat)
  /-- MEM_CONFIG (R188). -/
  cfg : BitVec 32
  bar2 : Nat
  clock : MemClock
  pcs : Vector Pc 128
  ports : Vector Port 23
  hbm : Vector Stack 4
  /-- BAR2 is unavailable: from the start of INIT to MEM_INIT, and during clock changes (R191, R468). -/
  initDone : Bool
  /-- Memory initialisation was begun and its end is awaited (R468). -/
  initRunning : Bool
  rereads : Nat
  blockBad : Nat
  unmapped : Nat
  unavailable : Nat
  regrains : Nat
deriving DecidableEq, Repr

/-- A pseudo-channel at reset. -/
def Pc.reset : Pc where
  reads := []
  writes := []
  draining := false
  openRows := []
  debt := 0
  nextBank := 0
  lastRefresh := 0
  nextDue := 1200
  neighbours := []

/-- The reset configuration of a port by its code (R172, R174): RTW 192 and 128, OPEN; SFP 64 and 32, AUTO; ACP OPEN; RDP CLOSE; FWP AUTO. -/
def portCfgReset (code : Nat) : BitVec 64 :=
  if code < 16 then BitVec.ofNat 64 (at' 192 48 + at' 128 32)
  else if code = 16 then 0
  else if code < 21 then BitVec.ofNat 64 (at' 1 2)
  else if code = 21 then BitVec.ofNat 64 (at' 64 48 + at' 32 32 + at' 2 2)
  else BitVec.ofNat 64 (at' 2 2)

/-- A port at reset, by its code. -/
def Port.reset (code : Nat) : Port where
  cfg := portCfgReset code
  panic := false
  level := 0
  entries := 0
  maxLevel := 0
  reads := []
  data := []
  poisoned := false

/-- A stack at reset (R195). -/
def Stack.reset : Stack where
  trained := false
  hot := false
  temp := 0
  wasRead := false
  maxDebt := 0
  cnt := {}

/-- The memory system at reset (R164, R171, R188, R195). -/
def Memory.reset : Memory where
  cells := []
  poison := []
  open_ := []
  spoiled := 0
  grains := []
  cfg := BitVec.ofNat 32 (at' 32 8 + 11)
  bar2 := 0
  clock := { rate := 0, phase := .idle, target := 0, initial := false, since := 0, deferred := [], queued := none, lastPass := 0 }
  pcs := Vector.replicate 128 Pc.reset
  ports := Vector.ofFn (fun i : Fin 23 => Port.reset i.val)
  hbm := Vector.replicate 4 Stack.reset
  initDone := false
  initRunning := false
  rereads := 0
  blockBad := 0
  unmapped := 0
  unavailable := 0
  regrains := 0

end Sys2Proof.Machine
end

