-- ==== Sys2Proof/Machine/StateProtocol.lean ====
section
/-!
DEFINITION. The state of the command protocol, of readout rings and events, and of the firmware (06, 11, 14, 17).
-/
namespace Sys2Proof.Machine

/-- What a command whose reply waits is waiting for (R387). -/
inductive HeldKind where
  | input (i : Nat)
  | fusion (q : Nat)
  | planHop
  | arm (g : Nat)
  | memClock
  | readback (seg : Nat)
  | seqEnable
  | imageAuth
deriving DecidableEq, Repr

/-- How far a command in an intake queue has come (R334, R340, R408, R416). -/
inductive Phase where
  | queued
  | held (kind : HeldKind) (engState : Nat)
  | taken
  | committed
  | answered
deriving DecidableEq, Repr

/-- A command in the intake queue of a path (R334): its header, opcode and payload, the tick it was received, and how far it has come.
byPort is set when the packet came as bytes and waits for a TAKE; slot and the reply staged there are those of R403. -/
structure Entry where
  hdr : Hdr
  opcode : Nat
  payload : Bytes
  received : Nat
  byPort : Bool
  phase : Phase
  /-- The intake slot from which Sapwood took it, and the FILL_OFFSET of a commit whose outcome is awaited (R403, R405, R408). -/
  slot : Option Nat
  fill : Option Nat
  notices : Nat
  /-- The reply packet to be sent in order, once it is known (R408). -/
  reply : Option Bytes
  /-- EVT_SEQ of the newest event that must be written before the reply (promise 4 of R212). -/
  after : Nat
  /-- What Sapwood wrote into the slot: offset and byte pairs (R403). -/
  staging : List (Nat × Byte)
  /-- Host reply buffer named by the command's descriptor: address and bytes (R330). -/
  replyAddr : Nat
  replyBytes : Nat
deriving DecidableEq, Repr

/-- The 64-bit values of R350. -/
structure PathCounters where
  executed : Nat := 0
  badPackets : Nat := 0
  stateReplies : Nat := 0
  staleTickets : Nat := 0
  noticesSent : Nat := 0
  noticeSkips : Nat := 0
  intakeFull : Nat := 0
deriving DecidableEq, Repr

/-- One path: its intake queue, its tag table and its counters (R334, R342, R350). -/
structure PathState where
  queue : List Entry
  /-- The last reply or notice handed to the path: the model's own record of it, for statements (log 3). -/
  lastReply : Bytes
  /-- Tag and last generation received, tags in the order first seen. -/
  tags : List (Nat × Nat)
  cnt : PathCounters
deriving DecidableEq, Repr

/-- TYPE of a completion (R209). -/
inductive CplType where
  | record
  | snapshot
  | missed
  | fetch
  | stream
  | descError
  | reply
  | event
deriving DecidableEq, Repr

/-- The code of TYPE (R209). -/
def CplType.code : CplType → Nat
  | .record => 1
  | .snapshot => 2
  | .missed => 3
  | .fetch => 4
  | .stream => 5
  | .descError => 6
  | .reply => 0x10
  | .event => 0x11

/-- A completion that waits for its place in a ring (R209, R210, R214).
afterEvent is the EVT_SEQ of the newest event that must be in ring 4 before it (promise 4 of R212). -/
structure Completion where
  kind : CplType
  status : Nat
  bad : Bool
  noData : Bool
  descFirst : Nat
  descCount : Nat
  dataBlocks : Nat
  firstBad : Nat
  badCount : Nat
  body : Bytes
  /-- Its descriptor asks for an interrupt at once (R201). -/
  irqNow : Bool
  afterEvent : Nat
deriving DecidableEq, Repr

/-- A completion ring: the host's and the engine's counts, the completions that wait, and interrupt moderation (R199, R209, R217). -/
structure CplRing where
  tail : Nat
  head : Nat
  seq : Nat
  waiting : List Completion
  /-- Completions written since the last interrupt, and when the oldest of them was written (R217). -/
  unsignalled : Nat
  oldest : Nat
  fullWaits : Nat
  /-- The head of the waiting list found the ring full (R220). -/
  foundFull : Bool
deriving DecidableEq, Repr

/-- What the engine wrote to the host link, in order (R212, R213): data, completion entries, message-signalled interrupts. -/
inductive HostWrite where
  | data (addr : Nat) (bytes : Bytes)
  | entry (ring : Nat) (index : Nat) (bytes : Bytes)
  | msix (vector : Nat)
deriving DecidableEq, Repr

/-- An event (R486). -/
structure Event where
  code : Nat
  severity : Nat
  remote : Bool
  coalesced : Bool
  devaddr : Nat
  repeated : Nat
  tick : Nat
  seq : Nat
  reason : Nat
  obj : Nat
  ticket : Nat
  vals : List Nat
deriving DecidableEq, Repr

/-- Events: the queue of R214 and R488, the pending registers, EVT_SEQ and the values of R493 block 14. -/
structure Events where
  queue : List Event
  pending : List Event
  seq : Nat
  /-- EVT_SEQ of the newest event of this device written to ring 4 or fetched. -/
  written : Nat
  coalesced : Nat
  holdTicks : Nat
  fatalCauses : Nat
deriving DecidableEq, Repr

/-- The shadow of a requester, its WINDOW_STATUS, and its monitor words (R218, R219, R317). -/
structure Shadow where
  value : Nat
  offset : Nat
  latched : Bool
  halfOrder : Bool
deriving DecidableEq, Repr

/-- The command ring, the bootstrap mailbox and the reply buffer of SUBMIT (R330 to R333, R411). -/
structure HostPort where
  /-- CMD_RING_SETUP in force (R332). -/
  ring : BitVec 256
  /-- An executed CMD_RING_SETUP that takes effect once its reply is written (R332). -/
  setup : Option (BitVec 256)
  cmdTail : Nat
  cmdHead : Nat
  /-- The mailbox bytes written, zeros left out (R331). -/
  mailbox : List (Nat × Byte)
  /-- A doorbell written in HEARTWOOD and held: its length (R331). -/
  bootHeld : Option Nat
  /-- A mailbox packet is unanswered. -/
  bootBusy : Bool
  bootReply : Bytes
  bootValid : Bool
  bootLength : Nat
  doorbellErrors : Nat
deriving DecidableEq, Repr

/-- STATUS of SC_STATUS (R410). -/
inductive ScStatus where
  | ok
  | limit
  | state
  | busy
  | unknown
  | badAddress
deriving DecidableEq, Repr

/-- The code of STATUS in SC_STATUS (R410). -/
def ScStatus.code : ScStatus → Nat
  | .ok => 0
  | .limit => 1
  | .state => 2
  | .busy => 3
  | .unknown => 4
  | .badAddress => 5

/-- One Sapwood core: its service-call window (R410) and its watchdog (R414). -/
structure Core where
  args : List Nat
  pending : Bool
  overrun : Bool
  status : ScStatus
  reason : Nat
  results : List Nat
  /-- The service-call interrupt is raised. -/
  irq : Bool
  parked : Bool
  kicked : Nat
  a0 : Nat
  a1 : Nat
  /-- FUNC of the call pending (R410), and the address at which the core was last started (R401). -/
  func : Nat
  entry : Nat
  /-- The packet of a SUBMIT whose reply is awaited: reply buffer, its size and the ticket (R411). -/
  submit : Option (Nat × Nat × Nat)
  /-- What a call whose action is not complete waits for (R410). -/
  waits : Option HeldKind
deriving DecidableEq, Repr

/-- A restart of Sapwood in progress (R416): its CAUSE, and whether the cores have been started again. -/
structure Restart where
  cause : Nat
  started : Bool
  since : Nat
deriving DecidableEq, Repr

/-- The firmware (14): image memory, Sapwood SRAM and aperture staging as address and byte pairs with zeros left out. -/
structure Firmware where
  image : List (Nat × Byte)
  ownerKey : Option Nat
  /-- KEYS [1]: the running image was verified with the owner key (R401). -/
  ownerImage : Bool
  sram : List (Nat × Byte)
  aperture : List (Nat × Byte)
  running : Bool
  cores : Vector Core 4
  wdtPeriod : Nat
  restart : Option Restart
  restarts : Nat
  /-- Ticks of the restarts made, newest first (R417). -/
  restartTicks : List Nat
  /-- Core and slot of the last TAKE of each core (R413). -/
  lastTake : List (Nat × Nat)
  /-- Cores whose service calls wait to be served, in order of arrival (R410). -/
  callQueue : List Nat
  /-- Path after which the round-robin of TAKE goes on (R340). -/
  turn : Nat
  /-- IMAGE_START in authentication: TOTAL_BYTES (R401). -/
  auth : Option Nat
  restartsBy : List Nat
  calls : List Nat
  refusals : List Nat
  scErrors : Nat
deriving DecidableEq, Repr

/-- A path at power-up. -/
def PathState.reset : PathState where
  queue := []
  lastReply := []
  tags := []
  cnt := {}

/-- A completion ring before it is configured. -/
def CplRing.reset : CplRing where
  tail := 0
  head := 0
  seq := 0
  waiting := []
  unsignalled := 0
  oldest := 0
  fullWaits := 0
  foundFull := false

/-- CMD_RING_SETUP after power-up (R332): CMD_LOG2 8, EVT_LOG2 8, IRQ_COUNT 1, disabled. -/
def ringSetupReset : BitVec 256 := BitVec.ofNat 256 (at' 8 124 + at' 8 120 + at' 1 80)

/-- The host port at power-up. -/
def HostPort.reset : HostPort where
  ring := ringSetupReset
  setup := none
  cmdTail := 0
  cmdHead := 0
  mailbox := []
  bootHeld := none
  bootBusy := false
  bootReply := []
  bootValid := false
  bootLength := 0
  doorbellErrors := 0

/-- Events at power-up. -/
def Events.reset : Events where
  queue := []
  pending := []
  seq := 0
  written := 0
  coalesced := 0
  holdTicks := 0
  fatalCauses := 0

/-- A shadow at power-up (R218, R219). -/
def Shadow.reset : Shadow where
  value := 0
  offset := 0
  latched := false
  halfOrder := false

/-- A core before it is started. -/
def Core.reset : Core where
  args := List.replicate 6 0
  pending := false
  overrun := false
  status := .ok
  reason := 0
  results := List.replicate 3 0
  irq := false
  parked := false
  kicked := 0
  a0 := 0
  a1 := 0
  func := 0
  entry := 0
  submit := none
  waits := none

/-- The firmware at power-up. -/
def Firmware.reset : Firmware where
  image := []
  ownerKey := none
  ownerImage := false
  sram := []
  aperture := []
  running := false
  cores := Vector.replicate 4 Core.reset
  wdtPeriod := 100
  restart := none
  restarts := 0
  restartTicks := []
  lastTake := []
  callQueue := []
  turn := 2
  auth := none
  restartsBy := List.replicate 4 0
  calls := List.replicate 15 0
  refusals := List.replicate 5 0
  scErrors := 0

end Sys2Proof.Machine
end

