-- ==== Sys2Proof/Machine/StateReadout.lean ====
section
/-!
DEFINITION. The state of readout (06): rings per group, the descriptor in progress, the items that wait for delivery or posting.
-/
namespace Sys2Proof.Machine

/-- What an item of a group's ring is (R212): a complete record, a snapshot, or a missed trigger's log entry. -/
inductive ItemKind where
  | record
  | snapshot
  | missed
deriving DecidableEq, Repr

/-- A complete record or snapshot, or a missed trigger, whose completion is not yet written (R203, R205, R212).
index is the segment or the slot; blocks the 2 KiB blocks to deliver; body the entry's bytes 32 to 95 as they will be written under FOLLOW and STREAMING;
ready is the completion formed when its delivery ended. -/
structure Item where
  kind : ItemKind
  seq : Nat
  time : Nat
  index : Nat
  blocks : Nat
  body : Bytes
  /-- Where its header and its blocks lie in memory. -/
  tableAt : Nat
  dataAt : Nat
  /-- STREAMING: numbers of the record's opening and closing stream blocks (R116). -/
  opening : Nat
  closing : Nat
  /-- EVT_SEQ of the newest event that must be written before it (promise 4). -/
  afterEvent : Nat
  /-- Its completion waits for the end of the slew that touched it (R487: the event that names a flag comes first). -/
  waitsSlew : Bool
  /-- Its segment is under readout until its completion is written (R207, R198). -/
  locked : Bool
  ready : Option Completion
deriving DecidableEq, Repr

/-- What a descriptor in progress delivers (R201 to R206). -/
inductive DescUse where
  | item
  | stream
  | fetchRecord
  | fetchSnapshot
deriving DecidableEq, Repr

/-- The descriptor in progress of a port (R201, R202): its DESC count, host address, room in blocks, and how many blocks it has taken. -/
structure Desc where
  use : DescUse
  count : Nat
  addr : Nat
  room : Nat
  filled : Nat
  irqNow : Bool
  /-- SEGMENT or SLOT, and FIRST_BLOCK, of a fetch; FIRST_BLOCK of a stream buffer is the number of its first stream block. -/
  target : Nat
  firstBlock : Nat
  /-- Header of the fetched target, as read, and its number of blocks. -/
  header : Bytes
  blocks : Nat
  firstBad : Nat
  badCount : Nat
deriving DecidableEq, Repr

/-- The delivery under way: blocks delivered, the first descriptor, how many descriptors, and the bad blocks found (R203, R209, R211). -/
structure Delivery where
  next : Nat
  descFirst : Nat
  descCount : Nat
  firstBad : Nat
  badCount : Nat
  irqNow : Bool
deriving DecidableEq, Repr

/-- A stream block that was delivered and belongs to a record whose completion is not yet formed: its number, descriptor, byte offset there, and BLOCK_BAD (R204, R210). -/
structure StreamMark where
  number : Nat
  desc : Nat
  offset : Nat
  bad : Bool
deriving DecidableEq, Repr

/-- The readout of one group (R197 to R208, R220). -/
structure Ring where
  /-- READOUT_RINGS (R198). -/
  cfg : BitVec 256
  descTail : Nat
  descHead : Nat
  desc : Option Desc
  delivery : Option Delivery
  items : List Item
  marks : List StreamMark
  /-- Stream blocks whose STREAM completion was formed; those below this number are covered (promise 1). -/
  streamCovered : Nat
  /-- Tick of the newest stream block delivered, for FLUSH_TIMER (R204). -/
  lastBlock : Nat
  /-- Re-reads made of the block now read (R193). -/
  rereads : Nat
  cpl : CplRing
  blocks : Nat
  fetches : Nat
  descErrors : Nat
  overwrites : Nat
deriving DecidableEq, Repr

/-- READOUT_RINGS after INIT (R198): DESC_LOG2 8, CPL_LOG2 8, IRQ_COUNT 1, FLUSH_TIMER 100. -/
def ringCfgReset : BitVec 256 := BitVec.ofNat 256 (at' 8 124 + at' 8 120 + at' 1 80 + at' 100 48)

/-- No delivery has begun. -/
def Delivery.start (desc : Nat) : Delivery where
  next := 0
  descFirst := desc
  descCount := 0
  firstBad := 0xFFFFFFFF
  badCount := 0
  irqNow := false

/-- A group's rings after INIT (R198, R220). -/
def Ring.reset : Ring where
  cfg := ringCfgReset
  descTail := 0
  descHead := 0
  desc := none
  delivery := none
  items := []
  marks := []
  streamCovered := 0
  lastBlock := 0
  rereads := 0
  cpl := CplRing.reset
  blocks := 0
  fetches := 0
  descErrors := 0
  overwrites := 0

end Sys2Proof.Machine
end

