-- ==== Sys2Proof/Machine/StateStim.lean ====
section
/-!
DEFINITION. The state of the stimulus sequencer and of the monitor ADC (09, 10).
A DAC instant is counted by n: it lies at grove time 5n/3 ticks (R285).
-/
namespace Sys2Proof.Machine

/-- STATE of STIM_STATUS (R309). -/
inductive StimState where
  | off
  | idle
  | waiting
  | playing
deriving DecidableEq, Repr

/-- The code of STATE (R309). -/
def StimState.code : StimState → Nat
  | .off => 0
  | .idle => 1
  | .waiting => 2
  | .playing => 3

/-- LAST_END of STIM_STATUS (R309). -/
inductive LastEnd where
  | none
  | program
  | stopped
  | clockLost
deriving DecidableEq, Repr

/-- The code of LAST_END (R309). -/
def LastEnd.code : LastEnd → Nat
  | .none => 0
  | .program => 1
  | .stopped => 2
  | .clockLost => 3

/-- What was fixed at the decision point of a boundary (R296, R301, R305). -/
structure Decision where
  seq : Nat
  /-- The boundary's instant, and the updates of the iteration that begins there. -/
  at_ : Nat
  upd : Nat
  ends : Bool
  stopped : Bool
  jump : Bool
  step : Nat
  iter : Nat
  seg : Nat
  ready : Bool
deriving DecidableEq, Repr

/-- One stimulus channel (R298). -/
structure StimCh where
  state : StimState
  underrun : Bool
  lastEnd : LastEnd
  step : Nat
  seg : Nat
  iter : Nat
  /-- BOUNDARY_SEQ of the running iteration, and the instant at which it began (R296). -/
  seq : Nat
  begun : Nat
  /-- Updates of the running iteration. -/
  updates : Nat
  /-- The start instant while WAITING, and the step it starts with (R299). -/
  startAt : Nat
  startStep : Nat
  /-- The grove tick at which the readiness of the first segment is judged (R299). -/
  judgeAt : Nat
  /-- The instant of the last decision point passed (R303), and that at which the present underrun began (R305, R306). -/
  lastDp : Nat
  underAt : Nat
  /-- The ramp of a stop has begun (R300). -/
  ramping : Bool
  /-- The next entry of the running segment and its effect instant (R291). -/
  entry : Nat
  entryAt : Nat
  /-- Parameters in force, the accumulator, and the instant at which it was last brought up to date (R290, R291). -/
  freq : Nat
  phase : Nat
  ampl : Nat
  acc : Nat
  accAt : Nat
  /-- Markers the present entry holds high. -/
  markers : Nat
  /-- No entry has been played since the start (R299, R305). -/
  fresh : Bool
  /-- A stop NOW: the instant its ramp begins and the amplitude it ramps from (R300). -/
  stopRamp : Option (Nat × Nat)
  /-- A stop at the boundary with this BOUNDARY_SEQ (R300). -/
  stopSeq : Option Nat
  /-- A MUTE ramp: the instant it began and the amplitude it ramps from (R305). -/
  muteRamp : Option (Nat × Nat)
  /-- The boundary at which a command jump acts (R302), and the requests of unit events, unit and request time in grove ticks, oldest first (R303). -/
  jumpSeq : Option Nat
  requests : List (Nat × Nat)
  /-- Decisions fixed and not yet reached, in boundary order (R301). -/
  decided : List Decision
  underruns : Nat
  underrunUpdates : Nat
  jumps : Nat
  tuIgnored : Nat
deriving DecidableEq, Repr

/-- One marker (R304): its level and its last rise, a tick and a fraction. -/
structure Marker where
  high : Bool
  riseTick : Nat
  riseFraction : Nat
deriving DecidableEq, Repr

/-- The sequencer (R287 to R310). -/
structure Stim where
  /-- SEQ_CONFIG (R287). -/
  cfg : BitVec 128
  enabled : Bool
  /-- Segment descriptors defined, by index (R292); a segment not listed is UNDEFINED. -/
  segs : List (Nat × BitVec 128)
  /-- STREAM segments that are READY (R294). -/
  ready : List Nat
  /-- STREAM segments written through BAR2 while they were active: the effect on the output is undefined (R293). -/
  stirred : List Nat
  /-- List memory entries that are not zero, by index (R289). -/
  list : List (Nat × BitVec 128)
  /-- Steps written since INIT, by index (R295). -/
  steps : List (Nat × BitVec 128)
  chs : Vector StimCh 2
  markers : Vector Marker 4
  /-- Read-backs in progress, oldest first: segment and CRC (R294). -/
  readback : List (Nat × Nat)
  starved : Nat
  armRefusals : Nat
deriving DecidableEq, Repr

/-- A channel after INIT. -/
def StimCh.reset : StimCh where
  state := .off
  underrun := false
  lastEnd := .none
  step := 0
  seg := 0
  iter := 0
  seq := 0
  begun := 0
  updates := 0
  startAt := 0
  startStep := 0
  judgeAt := 0
  lastDp := 0
  underAt := 0
  ramping := false
  entry := 0
  entryAt := 0
  freq := 0
  phase := 0
  ampl := 0
  acc := 0
  accAt := 0
  markers := 0
  fresh := true
  stopRamp := none
  stopSeq := none
  muteRamp := none
  jumpSeq := none
  requests := []
  decided := []
  underruns := 0
  underrunUpdates := 0
  jumps := 0
  tuIgnored := 0

/-- SEQ_CONFIG after INIT (R287): STIM_GRAIN 4, both periods 32, both policies MUTE. -/
def seqCfgReset : BitVec 128 := BitVec.ofNat 128 (at' 4 44 + at' 32 30 + at' 32 16 + at' 3 4)

/-- The sequencer after INIT. -/
def Stim.reset : Stim where
  cfg := seqCfgReset
  enabled := false
  segs := []
  ready := []
  stirred := []
  list := []
  steps := []
  chs := Vector.replicate 2 StimCh.reset
  markers := Vector.replicate 4 { high := false, riseTick := 0, riseFraction := 0 }
  readback := []
  starved := 0
  armRefusals := 0

/-- A window comparator (R319, R320). -/
structure MonWindow where
  cfg : BitVec 64
  outside : Bool
  exits : Nat
deriving DecidableEq, Repr

/-- The monitor words of one requester (R317): the channel pending with its request order, MON_RESULT without CONVERT, MON_RESULT_TICK, and MON_BUSY_WRITES. -/
structure MonReq where
  pending : Option Nat
  result : BitVec 32
  tick : Nat
  busyWrites : Nat
deriving DecidableEq, Repr

/-- The monitor ADC (10). -/
structure Monitor where
  /-- MON_CONFIG (R315). -/
  cfg : BitVec 32
  settled : Bool
  /-- Tick at which REF_SETTLED last rose, tick at which it last fell, and whether it was 1 before that fall (R314). -/
  roseAt : Nat
  fellAt : Nat
  before : Bool
  windows : Vector MonWindow 8
  reqs : Vector MonReq 3
  /-- The requester served last by the round-robin of R316. -/
  turn : Nat
  /-- Last codes of MON0 to MON9 from the system slot, and whether one was delivered since RESET (R316, R508). -/
  temps : List (Nat × Bool)
  /-- The last system-slot reading of MON0 to MON5 qualified for the thermal trip (R399). -/
  hot : List Bool
  /-- The system slot takes MON0 to MON9 in rotation: the next one (R316). -/
  rotation : Nat
  conversions : Nat
deriving DecidableEq, Repr

/-- The monitor at power-up (R315, R319, R322). -/
def Monitor.reset : Monitor where
  cfg := 0
  settled := false
  roseAt := 0
  fellAt := 0
  before := false
  windows := Vector.replicate 8 { cfg := BitVec.ofNat 64 (at' 0xFFF 36 + at' 8 12), outside := false, exits := 0 }
  reqs := Vector.replicate 3 { pending := none, result := 0, tick := 0, busyWrites := 0 }
  turn := 0
  temps := List.replicate 10 (0, false)
  hot := List.replicate 6 false
  rotation := 0
  conversions := 0

end Sys2Proof.Machine
end

