-- ==== Sys2Proof/Machine/State.lean ====
section
/-!
DEFINITION. The whole state of the engine as plain data, the reasons a step can stop, and the state after power-up.
-/
namespace Sys2Proof.Machine

/-- The state of one PQ1620: every register, queue, buffer, counter, mode and pin the spec gives it, and the queue of commands and events that wait. -/
structure State where
  /-- Internal tick: the latest tick at which anything has happened; it never wraps (R9, R10). -/
  now : Nat
  /-- The part is a PQ1620-96 (R7). -/
  is96 : Bool
  board : Board
  clock : Clock
  inputs : Vector Input 16
  quads : Vector Quad 4
  banks : Vector Bank 16
  cal : Cal
  units : Vector TUnit 8
  /-- Time-tagged events that wait for their delivery tick, in order of time (R58). -/
  tagged : List Tagged
  /-- The combiner tick that was decided last (R55, R58). -/
  decided : Nat
  /-- The last tick whose samples the trigger units and comparators have evaluated (R55, R61). -/
  evaluated : Nat
  groups : Vector Group 4
  accs : Vector Acc 4
  trigouts : Vector Trigout 4
  mem : Memory
  rings : Vector Ring 4
  ring4 : CplRing
  paths : Vector PathState 3
  host : HostPort
  events : Events
  fw : Firmware
  shadows : Vector Shadow 3
  stim : Stim
  mon : Monitor
  grove : Grove
  /-- What was written to the host link, newest first (R212, R213). -/
  link : List HostWrite
  /-- The last value returned to each requester of the status window (R218). -/
  readValues : Vector Nat 3
  /-- The bytes last returned through BAR2 (R167). -/
  bar2Out : Bytes
  /-- How many free values have been drawn: the model's own counter, no state of the spec. -/
  freeCount : Nat
  /-- Commands and events that wait, first in, first out. -/
  pending : List Instr
deriving DecidableEq, Repr

/-- The reasons a step faults: none. Every fault of the spec is a state (FAULT of R483, a restart of R415), so no command of this machine stops it. -/
inductive Fault where
deriving DecidableEq, Repr

/-- The reasons a command has no meaning. -/
inductive Refusal where
  /-- Raised by exec for a row that has no meaning yet; safe, since nothing is claimed of it. -/
  | notModelled (mnemonic : String)
  /-- Raised by a meaning whose operands are none that the row's hardware can show, such as a sample-link block of the wrong length; safe. -/
  | illFormed
deriving DecidableEq, Repr

/-- A capture group after INIT (R100, R103, R127, R129). -/
def Group.reset : Group where
  cap := capReset
  dec := decReset
  comb := combinerReset
  state := .off
  cause := .none
  overflow := false
  wrapped := false
  nextSegment := 0
  nextSeq := 0
  f := 1
  s0 := 0
  everArmed := false
  armWait := none
  stage := .idle
  firerFrom := 0
  delayFrom := 0
  delayLeft := 0
  delayed := none
  rearm := none
  postEnd := none
  hold := .none
  ending := none
  closed := 0
  closedAt := 0
  reopen := none
  closedPast := []
  closeAtFill := 0
  records := []
  missedLog := []
  logged := 0
  lastMask := 0
  lastTick := 0
  lastFraction := 0
  lastTime := 0
  streamWritten := 0
  streamDrained := 0
  streamReserved := 0
  armedLog := []
  cnt := {}

/-- The engine after power-up, before PWR_OK rises: engine state RESET, every register at the value its table gives (R16, R421, R460, R464). -/
def State.reset : State where
  now := 0
  is96 := true
  board := Board.reset
  clock := Clock.reset
  inputs := Vector.replicate 16 Input.reset
  quads := Vector.replicate 4 Quad.reset
  banks := Vector.replicate 16 Bank.reset
  cal := Cal.reset
  units := Vector.replicate 8 TUnit.reset
  tagged := []
  decided := 0
  evaluated := 0
  groups := Vector.replicate 4 Group.reset
  accs := Vector.replicate 4 Acc.reset
  trigouts := Vector.replicate 4 Trigout.reset
  mem := Memory.reset
  rings := Vector.replicate 4 Ring.reset
  ring4 := CplRing.reset
  paths := Vector.replicate 3 PathState.reset
  host := HostPort.reset
  events := Events.reset
  fw := Firmware.reset
  shadows := Vector.replicate 3 Shadow.reset
  stim := Stim.reset
  mon := Monitor.reset
  grove := Grove.reset
  link := []
  readValues := Vector.replicate 3 0
  bar2Out := []
  freeCount := 0
  pending := []

end Sys2Proof.Machine
end

