-- ==== Sys2Proof/Machine/Ops.lean ====
section
/-!
DEFINITION. The shared operations on the state: changing one part, the passage of time, grove time, the engine state, and raising events.
-/
namespace Sys2Proof.Machine

/-- A vector with one element changed. -/
def vmod {α : Type} {n : Nat} (v : Vector α n) (i : Fin n) (f : α → α) : Vector α n := v.set i.val (f (v.get i)) i.isLt

/-- The element of a vector at a number; beyond the end, the first element. -/
def vnat {α : Type} {n : Nat} [NeZero n] (v : Vector α n) (i : Nat) : α := v.get (Fin.ofNat n i)

/-- The state with one quad changed. -/
def State.onQuad (s : State) (q : Fin 4) (f : Quad → Quad) : State := { s with quads := vmod s.quads q f }
/-- The state with one bank changed. -/
def State.onBank (s : State) (b : Fin 16) (f : Bank → Bank) : State := { s with banks := vmod s.banks b f }
/-- The state with one input changed. -/
def State.onInput (s : State) (i : Fin 16) (f : Input → Input) : State := { s with inputs := vmod s.inputs i f }
/-- The state with one trigger unit changed. -/
def State.onUnit (s : State) (u : Fin 8) (f : TUnit → TUnit) : State := { s with units := vmod s.units u f }
/-- The state with one capture group changed. -/
def State.onGroup (s : State) (g : Fin 4) (f : Group → Group) : State := { s with groups := vmod s.groups g f }
/-- The state with one accumulation changed. -/
def State.onAcc (s : State) (g : Fin 4) (f : Acc → Acc) : State := { s with accs := vmod s.accs g f }
/-- The state with one trigger output changed. -/
def State.onOut (s : State) (o : Fin 4) (f : Trigout → Trigout) : State := { s with trigouts := vmod s.trigouts o f }
/-- The state with one group's rings changed. -/
def State.onRing (s : State) (g : Fin 4) (f : Ring → Ring) : State := { s with rings := vmod s.rings g f }
/-- The state with one path changed. -/
def State.onPath (s : State) (p : Path) (f : PathState → PathState) : State := { s with paths := vmod s.paths p.idx f }
/-- The state with the clock system changed. -/
def State.onClock (s : State) (f : Clock → Clock) : State := { s with clock := f s.clock }
/-- The state with the memory system changed. -/
def State.onMem (s : State) (f : Memory → Memory) : State := { s with mem := f s.mem }
/-- The state with the grove changed. -/
def State.onGrove (s : State) (f : Grove → Grove) : State := { s with grove := f s.grove }
/-- The state with the board side changed. -/
def State.onBoard (s : State) (f : Board → Board) : State := { s with board := f s.board }
/-- The state with the sequencer changed. -/
def State.onStim (s : State) (f : Stim → Stim) : State := { s with stim := f s.stim }
/-- The state with one stimulus channel changed. -/
def State.onCh (s : State) (c : Fin 2) (f : StimCh → StimCh) : State := s.onStim fun q => { q with chs := vmod q.chs c f }
/-- The state with the monitor changed. -/
def State.onMon (s : State) (f : Monitor → Monitor) : State := { s with mon := f s.mon }
/-- The state with calibration changed. -/
def State.onCal (s : State) (f : Cal → Cal) : State := { s with cal := f s.cal }
/-- The state with the firmware changed. -/
def State.onFw (s : State) (f : Firmware → Firmware) : State := { s with fw := f s.fw }
/-- The state with one Sapwood core changed. -/
def State.onCore (s : State) (c : Fin 4) (f : Core → Core) : State := s.onFw fun w => { w with cores := vmod w.cores c f }
/-- The state with one bough port changed. -/
def State.onPort (s : State) (p : Fin 5) (f : BoughPort → BoughPort) : State := s.onGrove fun g => { g with ports := vmod g.ports p f }
/-- The state with the host port changed. -/
def State.onHost (s : State) (f : HostPort → HostPort) : State := { s with host := f s.host }
/-- The state with the event queue changed. -/
def State.onEvents (s : State) (f : Events → Events) : State := { s with events := f s.events }
/-- The state with ring 4 changed. -/
def State.onRing4 (s : State) (f : CplRing → CplRing) : State := { s with ring4 := f s.ring4 }
/-- Writes to the host link, newest first (R212, R213). -/
def State.linkOut (s : State) (l : List HostWrite) : State := { s with link := l ++ s.link }
/-- The state with every quad changed. -/
def State.allQuads (s : State) (f : Quad → Quad) : State := { s with quads := s.quads.map f }
/-- The state with every bank changed. -/
def State.allBanks (s : State) (f : Bank → Bank) : State := { s with banks := s.banks.map f }
/-- The state with every trigger unit changed. -/
def State.allUnits (s : State) (f : TUnit → TUnit) : State := { s with units := s.units.map f }
/-- The state with every group's rings changed. -/
def State.allRings (s : State) (f : Ring → Ring) : State := { s with rings := s.rings.map f }
/-- The time-tagged events that wait change. -/
def State.onTagged (s : State) (f : List Tagged → List Tagged) : State := { s with tagged := f s.tagged }
/-- Combiner ticks up to one are decided. -/
def State.noteDecided (s : State) (c : Nat) : State := { s with decided := max s.decided c }
/-- Samples up to a tick are evaluated. -/
def State.noteEvaluated (s : State) (c : Nat) : State := { s with evaluated := max s.evaluated c }
/-- Time moves on to a tick, never back. -/
def State.noteTime (s : State) (t : Nat) : State := { s with now := max s.now t }
/-- The bytes returned through BAR2 (R167). -/
def State.bar2Returns (s : State) (b : Bytes) : State := { s with bar2Out := b }
/-- The state of one bough port. -/
def State.port (s : State) (p : Fin 5) : BoughPort := s.grove.ports.get p
/-- The state of one path. -/
def State.path (s : State) (p : Path) : PathState := s.paths.get p.idx

/-- The entries that n bytes at an address need, where an unlisted address reads as d says. -/
def packOf (d : Nat → Byte) : Nat → Bytes → List Host.Cell
  | _, [] => []
  | a, b :: bs => if b = d a then packOf d (a + 1) bs else (a, b) :: packOf d (a + 1) bs

/-- A memory kept as address and byte pairs after a write: in order of address, nothing listed that an unlisted address reads as. -/
def packPut (d : Nat → Byte) (m : List Host.Cell) (a : Nat) (bs : Bytes) : List Host.Cell :=
  m.filter (fun c => c.1 < a) ++ packOf d a bs ++ m.filter (fun c => a + bs.length ≤ c.1)

/-- The canonical form of such a memory. -/
def packWf (d : Nat → Byte) (m : List Host.Cell) : Bool := decide (m.Pairwise fun x y => x.1 < y.1) && m.all fun c => c.2 ≠ d c.1

/-- A byte of such a memory. -/
def packAt (d : Nat → Byte) (m : List Host.Cell) (a : Nat) : Byte := ((m.find? fun c => c.1 = a).map Prod.snd).getD (d a)

/-- The state after something was done for each number of a list. -/
def State.each {α : Type} (s : State) (l : List α) (f : State → α → State) : State := l.foldl f s

/-- The four quads, groups, outputs or stacks. -/
def four : List (Fin 4) := [0, 1, 2, 3]
/-- The sixteen inputs or banks. -/
def sixteen : List (Fin 16) := List.finRange 16
/-- The eight units. -/
def eight : List (Fin 8) := List.finRange 8
/-- The five bough ports. -/
def five : List (Fin 5) := [0, 1, 2, 3, 4]
/-- The two stimulus channels. -/
def two : List (Fin 2) := [0, 1]

/-- Ticks in a microsecond, a millisecond and a second (R9). -/
def us : Nat := 20000
/-- Ticks in a millisecond. -/
def ms : Nat := 20000000
/-- Ticks in a second. -/
def second : Nat := 20000000000

/-- Time moves to the tick of a command or event, never back; ticks spent COASTING and with HOLDING set are counted (R284, R493). -/
def State.advance (s : State) (t : Nat) : State :=
  let s1 := s.onClock fun c => { c with cnt := { c.cnt with
    holdoverTicks := c.cnt.holdoverTicks + (if c.loop = Loop.coasting then t - s.now else 0) } }
  let s2 := s1.onEvents fun ev => { ev with holdTicks := ev.holdTicks + (if ev.pending.isEmpty then 0 else t - s.now) }
  s2.noteTime t

/-- The keeper's count at a tick, in 2^-32 tick (R278): it adds its step at each XO_IN cycle of 200 ticks. -/
def Keeper.at_ (k : Keeper) (tick : Nat) : Nat := k.count + (tick - k.noted) / 200 * k.step

/-- Grove time at an internal tick (R10, R278, R280): zero before the common start; the keeper's count while the sample clocks are stopped. -/
def State.groveAt (s : State) (tick : Nat) : Nat :=
  match s.clock.t0 with
  | none => 0
  | some _ =>
    if s.clock.drive = .stopped then s.clock.keeper.at_ tick / 2 ^ 32 % two64
    else unsigned 64 ((tick : Int) + s.clock.off)

/-- Grove time now. -/
def State.grove64 (s : State) : Nat := s.groveAt s.now

/-- The internal tick of a grove tick, taken nearest to now (R10: the count wraps). -/
def State.internal (s : State) (tick : Nat) : Int := (s.now : Int) + signed 64 (unsigned 64 ((tick : Int) - s.grove64))

/-- How far an internal tick lies past the last beat boundary (R9, R33); beats are counted from T0. -/
def State.beatPhase (s : State) (tick : Nat) : Nat :=
  (((tick : Int) + s.clock.off - s.clock.t0.getD 0) % 32).toNat

/-- The first beat boundary at or after an internal tick. -/
def State.beatFrom (s : State) (tick : Nat) : Nat := tick + (32 - s.beatPhase tick) % 32

/-- GROVE_TIME as read (R279): the tick of the last beat boundary, or the keeper's tick while the sample clocks are stopped. -/
def State.groveTime (s : State) : Nat :=
  match s.clock.t0 with
  | none => 0
  | some _ => if s.clock.drive = .stopped then s.grove64 else unsigned 64 ((s.now : Int) + s.clock.off - s.beatPhase s.now)

/-- The number of free values drawn counts n more (log 4). -/
def State.drawn (s : State) (n : Nat) : State := { s with freeCount := s.freeCount + n }
/-- The number of free values drawn counts one more. -/
def State.draw (s : State) : State := s.drawn 1

/-- A stop has been applied to a group that has not yet entered DONE (R105, R347). -/
def Group.stopping (g : Group) : Bool := g.ending = some .stopped && g.state ≠ .done

/-- The engine state as reported, in the codes of R347. -/
def State.engineState (s : State) : Nat :=
  match s.board.boot with
  | .fault => 0x0A
  | .reset => 0x00
  | .heartwood => 0x01
  | .awaitImage => 0x02
  | .init => 0x03
  | .run =>
    if s.cal.run.isSome then 0x08
    else if s.grove.role.orphan then 0x09
    else if s.groups.any Group.stopping then 0x07
    else if s.groups.any (fun g => g.state = .filling) || s.stim.chs.any (fun c => c.state = .waiting || c.state = .playing) then 0x06
    else if s.groups.any (fun g => g.state = .armed || g.state = .holdoff) then 0x05
    else 0x04

/-- The event body of R486. -/
def Event.body (e : Event) : Bytes :=
  leBytes 2 e.code ++ leBytes 1 e.severity ++ leBytes 1 (bAt e.remote 0 + bAt e.coalesced 1) ++ leBytes 2 e.devaddr ++
    leBytes 2 e.repeated ++ leBytes 8 e.tick ++ leBytes 8 e.seq ++ leBytes 2 e.reason ++ leBytes 2 e.obj ++ leBytes 2 e.ticket ++
    zeros 2 ++ ((List.range 8).map fun i => leBytes 8 (e.vals.getD i 0)).flatten

/-- The severity of an event code (R482, R487). -/
def severityOf (code : Nat) : Nat :=
  if code ∈ [0x0080, 0x0684] then 4
  else if code ∈ [0x0185, 0x0282, 0x0283, 0x0480, 0x0481, 0x0680, 0x0B84] then 3
  else if code ∈ [0x0181, 0x0183, 0x0281, 0x0380, 0x0580, 0x0681, 0x0980, 0x0A80, 0x0B81, 0x0B82, 0x0B86, 0x0C80] then 2
  else if code ∈ [0x0182, 0x0184, 0x0186, 0x0284, 0x0682, 0x0882, 0x0981, 0x0B83, 0x0B85] then 1
  else 0

/-- A packet of R324 with its CRC. -/
def packet (flags opcode ticket dest source : Nat) (payload : Bytes) : Bytes :=
  withCrc (leBytes 1 1 ++ leBytes 1 flags ++ leBytes 2 opcode ++ leBytes 2 ticket ++ leBytes 2 dest ++ leBytes 2 source ++
    leBytes 2 (payload.length / 4) ++ zeros 4 ++ payload)

/-- A packet is sent upward on the UP port (R430, R441); an orphan discards it (R439, R451). -/
def State.sendUp (s : State) (pkt : Bytes) : State :=
  if s.grove.role.orphan then s.onGrove fun g => { g with upDrops := g.upDrops + 1 }
  else s.onPort 0 fun p => p.push { rkind := 2, hops := 0, target := 0, path := 0, age := 0, packet := pkt, since := s.now } s.now

/-- An event enters the queue, or is held in a pending register of its source when the queue is full or others are pending (R488). -/
def Events.enter (ev : Events) (e : Event) : Events :=
  if ev.pending.isEmpty ∧ ev.queue.length < 1024 then { ev with queue := ev.queue ++ [e] }
  else if ev.pending.any (fun p => p.code = e.code && p.obj = e.obj && p.devaddr = e.devaddr) then
    { ev with
      coalesced := ev.coalesced + 1
      pending := ev.pending.map fun p =>
        if p.code = e.code && p.obj = e.obj && p.devaddr = e.devaddr then
          { p with repeated := min 65535 (p.repeated + 1), coalesced := true } else p }
  else { ev with pending := ev.pending ++ [e] }

/-- Pending events enter the queue as entries free, in the order of their first occurrence (R488). -/
def Events.refill (ev : Events) : Events :=
  let n := 1024 - ev.queue.length
  { ev with queue := ev.queue ++ ev.pending.take n, pending := ev.pending.drop n }

/-- What an event is raised with; the rest of its body follows from the state (R486). -/
structure EventSpec where
  code : Nat
  obj : Nat := 0xFFFF
  vals : List Nat := []
  reason : Nat := 0
  ticket : Nat := 0

/-- Ring 4 and the command ring are enabled (R332). -/
def State.ringOn (s : State) : Bool := flag s.host.ring 0

/-- The event an engine raises, with the grove tick of its cause (R486, R276). -/
def State.mkEvent (s : State) (e : EventSpec) (tick : Nat) : Event :=
  { code := e.code, severity := severityOf e.code, remote := false, coalesced := false, devaddr := s.grove.devaddr, repeated := 0,
    tick := tick, seq := s.events.seq + 1, reason := e.reason, obj := e.obj, ticket := e.ticket, vals := e.vals }

/-- A worker also sends every event it raises up, but for ORPHAN_ENTERED and ORPHAN_LEFT, while its UP link is up (R441, R450). -/
def State.eventUp (s : State) (e : Event) : State :=
  if s.grove.role = .worker ∧ (s.port 0).link = .up ∧ e.code ≠ 0x0B82 ∧ e.code ≠ 0x0B83 then
    s.sendUp (packet 4 e.code e.ticket s.grove.manager s.grove.devaddr e.body)
  else s

/-- An event is raised with the grove tick given (R486 to R489). ENGINE_FAULT raises its vector at once, vector 0 while ring 4 is not enabled. -/
def State.raiseAt (s : State) (e : EventSpec) (tick : Nat) : State :=
  let v := s.mkEvent e tick
  let s1 := s.onEvents fun ev => { ev.enter v with seq := ev.seq + 1 }
  let s2 := if e.code = 0x0080 then s1.linkOut [.msix (if s.ringOn then fld s.host.ring 109 11 else 0)] else s1
  s2.eventUp v

/-- An event is raised at the present tick. -/
def State.raise (s : State) (e : EventSpec) : State := s.raiseAt e s.grove64

/-- A condition decides whether a change is made. -/
def State.when (s : State) (b : Bool) (f : State → State) : State := if b then f s else s

end Sys2Proof.Machine
end

