-- ==== Sys2Proof/Machine/ProtocolOps.lean ====
section
/-!
DEFINITION. Replies, notices, tags and intake of the command protocol (11): everything but the examination of a command's content.
-/
namespace Sys2Proof.Machine

/-- A reply's content (R326, R327). -/
structure Reply where
  status : Nat
  reason : Nat := 0
  detail : Nat := 0
  result : Bytes := []
deriving DecidableEq, Repr

/-- OK with a result (R327). -/
def Reply.ok (result : Bytes := []) : Reply := { status := 0, result := result }
/-- DEFERRED (R327). -/
def Reply.deferred : Reply := { status := 1 }
/-- STATE with a reason of R337 and the DETAIL of R338. -/
def Reply.state (reason detail : Nat) : Reply := { status := 2, reason := reason, detail := detail }
/-- REFUSED with a reason (R327). -/
def Reply.refused (reason : Nat) (detail : Nat := 0) : Reply := { status := 3, reason := reason, detail := detail }
/-- BAD_PACKET with a reason (R335). -/
def Reply.bad (reason : Nat) : Reply := { status := 4, reason := reason }
/-- BUSY with a reason (R327). -/
def Reply.busy (reason : Nat) : Reply := { status := 5, reason := reason }
/-- FAULT with a reason (R336, R216). -/
def Reply.fault (reason detail : Nat) : Reply := { status := 6, reason := reason, detail := detail }

/-- DETAIL of a STATE reply (R338). -/
def stateDetail (kind index groupMask objState : Nat) : Nat := at' kind 24 + at' index 12 + at' groupMask 4 + objState

/-- A reply's payload (R326). -/
def Reply.payload (r : Reply) (eng : Nat) : Bytes :=
  leBytes 1 r.status ++ leBytes 1 eng ++ leBytes 2 r.reason ++ leBytes 4 r.detail ++ r.result

/-- The packet of a command (R324). -/
def commandPacket (h : Hdr) (opcode : Nat) (payload : Bytes) : Bytes :=
  withCrc (leBytes 1 1 ++ leBytes 1 h.flags.toNat ++ leBytes 2 opcode ++ leBytes 2 h.ticket.toNat ++ leBytes 2 h.dest.toNat ++
    leBytes 2 h.source.toNat ++ leBytes 2 (payload.length / 4) ++ leBytes 4 h.reserved.toNat ++ payload)

/-- The reply packet to a command (R326): from the device's DEVADDR at that moment. -/
def State.replyPacket (s : State) (h : Hdr) (opcode eng : Nat) (r : Reply) : Bytes :=
  packet 1 opcode h.ticket.toNat h.source.toNat s.grove.devaddr (r.payload eng)

/-- A completion for ring 4 that carries a reply or notice (R209, R210, R333). -/
def replyCompletion (pkt : Bytes) (short : Bool) (afterEvent : Nat) : Completion :=
  { kind := .reply, status := if short then 4 else 0, bad := false, noData := false, descFirst := 0, descCount := 0, dataBlocks := 0,
    firstBad := 0xFFFFFFFF, badCount := 0, body := pkt.take 96 ++ zeros (96 - pkt.length), irqNow := false, afterEvent := afterEvent }

/-- A DESC_ERROR completion (R202, R209, R330): DESC_INVALID, with the descriptor's count and the number of descriptors it speaks for. -/
def descErrorCompletion (count n : Nat) (irqNow : Bool) : Completion :=
  { kind := .descError, status := 6, bad := false, noData := false, descFirst := count, descCount := n, dataBlocks := 0,
    firstBad := 0xFFFFFFFF, badCount := 0, body := zeros 96, irqNow := irqNow, afterEvent := 0 }

/-- A completion joins those that wait for ring 4. -/
def State.toRing4 (s : State) (c : Completion) : State := s.onRing4 fun r => { r with waiting := r.waiting ++ [c] }

/-- Bytes kept as address and byte pairs with zeros left out, after a write. -/
def putSparse (m : List Host.Cell) (addr : Nat) (bs : Bytes) : List Host.Cell := packPut (fun _ => 0) m addr bs

/-- The canonical form of a sparse memory: addresses strictly rising, and no zero listed. -/
def sparseWf (m : List Host.Cell) : Bool := packWf (fun _ => 0) m

/-- A byte of a sparse memory. -/
def getSparse (m : List Host.Cell) (addr : Nat) : Byte := packAt (fun _ => 0) m addr

/-- n bytes of a sparse memory. -/
def getSparseN (m : List Host.Cell) (addr n : Nat) : Bytes := (List.range n).map fun i => getSparse m (addr + i)

/-- Sapwood SRAM with bytes written at an address of the core's map (R403). -/
def State.putSram (s : State) (addr : Nat) (bs : Bytes) : State := s.onFw fun w => { w with sram := putSparse w.sram addr bs }

/-- The core whose SUBMIT with this ticket waits (R411). -/
def State.submitCore (s : State) (ticket : Nat) : Option (Fin 4) :=
  four.find? fun c => (s.fw.cores.get c).submit.any fun x => x.2.2 == ticket

/-- A service call returns: its STATUS, REASON and results, and the core's interrupt (R410). -/
def Core.returns (c : Core) (status : ScStatus) (reason : Nat) (results : List Nat) : Core :=
  { c with pending := false, status := status, reason := reason, results := results ++ c.results.drop results.length, irq := true,
           waits := none, submit := none }

/-- A SUBMIT returns with its reply, truncated to its buffer (R411). -/
def State.submitReply (s : State) (ticket : Nat) (pkt : Bytes) : State :=
  match s.submitCore ticket with
  | none => s
  | some c =>
    match (s.fw.cores.get c).submit with
    | none => s
    | some (buf, size, _) => (s.putSram buf (pkt.take size)).onCore c fun k => k.returns .ok 0 [pkt.length]

/-- A reply or notice leaves on its path (R328, R333, R331, R411): on PCIe a REPLY completion, with the reply buffer written first where the packet is longer than 96 bytes; or BOOT_REPLY; over BOUGH upward; to the mailbox the buffer of its SUBMIT. -/
def State.handReply (s0 : State) (path : Path) (pkt : Bytes) (ticket addr size afterEvent : Nat) : State :=
  let s := s0.onPath path fun p => { p with lastReply := pkt }
  match path with
  | .pcie =>
    if s.ringOn then
      let long := 96 < pkt.length
      let s1 := if long ∧ 0 < size then s.linkOut [.data addr (pkt.take size)] else s
      s1.toRing4 (replyCompletion pkt (long && size < pkt.length) afterEvent)
    else s.onHost fun h => { h with bootReply := pkt, bootValid := true, bootLength := pkt.length, bootBusy := false }
  | .bough => s.sendUp pkt
  | .mailbox => s.submitReply ticket pkt

/-- Counters of a path change. -/
def State.countPath (s : State) (path : Path) (f : PathCounters → PathCounters) : State := s.onPath path fun p => { p with cnt := f p.cnt }

/-- The generation last received for a tag (R342). -/
def PathState.lastGen (p : PathState) (tag : Nat) : Option Nat := (p.tags.find? fun (t, _) => t = tag).map Prod.snd

/-- A generation is newer than the one recorded (R342). -/
def newerGen (g recorded : Nat) : Bool := 1 ≤ (g + 16 - recorded) % 16 && (g + 16 - recorded) % 16 ≤ 7

/-- A generation becomes the one recorded for its tag (R342). -/
def PathState.record (p : PathState) (tag gen : Nat) : PathState :=
  { p with tags := (p.tags.filter fun (t, _) => t ≠ tag) ++ [(tag, gen)] }

/-- An entry of a queue has become outdated: a newer generation of its tag was received (R342). -/
def PathState.outdated (p : PathState) (e : Entry) : Bool :=
  match p.lastGen e.hdr.tag with
  | none => false
  | some g => g ≠ e.hdr.gen && newerGen g e.hdr.gen

/-- An entry is answered: with no packet where QUIET suppresses an OK reply (R325, R346). -/
def Entry.answer (e : Entry) (pkt : Bytes) (ok : Bool) : Entry :=
  { e with phase := .answered, reply := if ok && e.hdr.quiet then none else some pkt }

/-- The answered commands at the head of a path's queue leave in order (R340, promise 3 of R212). -/
def State.flush : Nat → Path → State → State
  | 0, _, s => s
  | fuel + 1, path, s =>
    match (s.path path).queue with
    | [] => s
    | e :: rest =>
      if e.phase = .answered then
        let s1 := s.onPath path fun p => { p with queue := rest }
        let s2 := if e.opcode = 0x10000 then s1.toRing4 (descErrorCompletion 0 0 false) else match e.reply with
          | none => if path = .pcie ∧ ¬ s.ringOn then s1.onHost (fun h => { h with bootBusy := false }) else s1
          | some pkt => s1.handReply path pkt e.hdr.ticket.toNat e.replyAddr e.replyBytes e.after
        State.flush fuel path s2
      else s

/-- All paths' answered commands leave. -/
def State.flushAll (s : State) : State :=
  State.flush 800 .mailbox (State.flush 800 .bough (State.flush 800 .pcie s))

/-- The first entry of a queue for which p holds is changed. -/
def modFirst (p : Entry → Bool) (f : Entry → Entry) : List Entry → List Entry
  | [] => []
  | e :: es => if p e then f e :: es else e :: modFirst p f es

/-- An entry waits for this end of an operation. -/
def Entry.waitsFor (k : HeldKind) (e : Entry) : Bool :=
  match e.phase with
  | .held k' _ => k = k'
  | .queued => false
  | .taken => false
  | .committed => false
  | .answered => false

/-- The engine state at an entry's examination. -/
def Entry.engState (e : Entry) : Nat :=
  match e.phase with
  | .held _ n => n
  | .queued => 0
  | .taken => 0
  | .committed => 0
  | .answered => 0

/-- The values a commit decided stand in the slot's staging at FILL_OFFSET, and the command is committed (R405); reply staging begins at 0x1400. -/
def Entry.filled (e : Entry) (result : Bytes) : Entry :=
  { e with phase := .committed, fill := none, staging := match e.fill with
      | none => e.staging
      | some n => putSparse e.staging (0x1400 + n) (result.take 24) }

/-- The operation that commands and service calls wait for has ended: they are answered (R387, R410); one that Sapwood took gets the outcome into its staging (R405). -/
def State.finish (s : State) (k : HeldKind) (r : Reply) : State :=
  let upd (s : State) (path : Path) : State := s.onPath path fun p =>
    { p with queue := p.queue.map fun e =>
        if e.waitsFor k then
          (if e.slot.isSome then e.filled r.result else e.answer (s.replyPacket e.hdr e.opcode e.engState r) (r.status = 0))
        else e }
  let s1 := [Path.pcie, .bough, .mailbox].foldl upd s
  (s1.each four fun s c => s.onCore c fun w => if w.waits = some k then w.returns .ok 0 [] else w).flushAll

/-- Every command taken or held and not yet answered is answered with the fault given; answered ones keep their reply, and DETAIL bit 0 says whether the commit had happened (R336, R484). -/
def State.failHeld (s : State) (reason : Nat) : State :=
  let upd (s : State) (path : Path) : State := s.onPath path fun p =>
    { p with queue := p.queue.map fun e =>
        let cut (done : Nat) : Entry :=
          { e.answer (s.replyPacket e.hdr e.opcode 0x0A (Reply.fault reason done)) false with after := s.events.seq }
        match e.phase with
        | .held _ _ => cut 1
        | .taken => cut 0
        | .committed => cut 1
        | .queued => e
        | .answered => e }
  ([Path.pcie, .bough, .mailbox].foldl upd s).flushAll

/-- Sources a path accepts (R329). -/
def State.sourceOk (s : State) (h : Hdr) : Bool :=
  match h.path with
  | .pcie => h.source.toNat == s.grove.devaddr
  | .mailbox => h.source.toNat == s.grove.devaddr
  | .bough => s.grove.role = .sapling || (s.grove.role = .worker && h.source.toNat == s.grove.manager)

/-- The DEVADDR from which a path accepts packets, for the reply to a packet of doubtful header (R335). -/
def State.pathSource (s : State) (p : Path) : Nat := if p = .bough then s.grove.manager else s.grove.devaddr

/-- The device belongs to the group a DEST names (R422, R423). -/
def State.member (s : State) (dest : Nat) : Bool := flag s.grove.mcast (dest - 0xFF00) || dest == 0xFFFF

/-- The port that a DEVADDR is routed to (R438). -/
def Grove.route (g : Grove) (devaddr : Nat) : Option Nat := (g.routes.find? fun (d, _) => d = devaddr).map Prod.snd

/-- A message goes out on a port, or is lost with a ROUTE_MISSES count where the port is not up (R439). -/
def State.sendOn (s : State) (port : Fin 5) (m : Msg) : State :=
  if (s.port port).link = .up then s.onPort port fun p => p.push m s.now
  else s.onGrove fun g => { g with routeMisses := g.routeMisses + 1 }

/-- A message goes out on every DN port whose partner is a worker (R439 FLOOD). -/
def State.flood (s : State) (m : Msg) : State :=
  s.each ([1, 2, 3, 4] : List (Fin 5)) fun s i =>
    if (s.port i).link = .up ∧ ((s.port i).partner.map LinkMsg.role) = some 1 then s.onPort i fun p => p.push m s.now else s

/-- The DN port of a level in a PATH (R382): 2 bits each, level 1 lowest. -/
def pathPort (path level : Nat) : Fin 5 := Fin.ofNat 5 (1 + bits path (2 * (level - 1)) 2)

/-- DEPTH in a PATH (R382). -/
def pathDepth (path : Nat) : Nat := bits path 16 4

/-- What step 6 decides of a packet (R335, R440). -/
inductive Routed where
  | here
  | away (s : State)
  | both (s : State)
  | nowhere

/-- Step 6 at a manager for a packet of the command ring, and at every device for its own packets (R335, R423, R440, R444). -/
def State.route6 (s : State) (h : Hdr) (opcode : Nat) (payload : Bytes) : Routed :=
  let dest := h.dest.toNat
  let msg (rkind hops target path : Nat) : Msg :=
    { rkind := rkind, hops := hops, target := target, path := path, age := 0, packet := commandPacket h opcode payload, since := s.now }
  let host := h.path = .pcie && s.ringOn && s.grove.role = .manager
  if h.group then
    let probe := leAt payload 0 4
    if host && opcode = 0x0B01 && dest = 0xFFFF && 1 ≤ pathDepth probe && pathDepth probe ≤ 8 then
      let s1 := if bit (leAt payload 4 4) 16 then
          s.onGrove fun g => { g with maxDepth := max g.maxDepth (pathDepth probe), bound := 2256 + 10000 * max g.maxDepth (pathDepth probe) }
        else s
      .away (s1.sendOn (pathPort probe 1) (msg 4 1 0 probe))
    else if host && opcode ≠ 0x0B01 then
      let s1 := s.flood (msg 3 0 dest 0)
      if s.member dest then .both s1 else .away s1
    else if s.member dest then .here else .nowhere
  else if dest == s.grove.devaddr then .here
  else if host then
    match s.grove.route dest with
    | none => .nowhere
    | some p => .away (s.sendOn (Fin.ofNat 5 p) (msg 1 0 dest 0))
  else .nowhere

/-- A new entry of an intake queue. -/
def newEntry (h : Hdr) (opcode : Nat) (payload : Bytes) (now : Nat) (byPort : Bool) (addr size : Nat) : Entry :=
  { hdr := h, opcode := opcode, payload := payload, received := now, byPort := byPort, phase := .queued, slot := none, fill := none, notices := 0, reply := none,
    after := 0, staging := [], replyAddr := addr, replyBytes := size }

/-- A packet that fails at intake is answered in its place in order (R335 steps 1 to 6, R340). -/
def State.intakeBad (s : State) (e : Entry) (dest reason : Nat) : State :=
  let pkt := packet 1 e.opcode e.hdr.ticket.toNat dest s.grove.devaddr ((Reply.bad reason).payload s.engineState)
  State.flush 800 e.hdr.path ((s.countPath e.hdr.path fun c => { c with badPackets := c.badPackets + 1 }).onPath e.hdr.path fun p =>
    { p with queue := p.queue ++ [{ e with phase := .answered, reply := some pkt }] })

/-- Step 7 and receipt (R335, R342, R334): an outdated command is discarded and counted, any other is recorded and queued. -/
def State.enqueue (s : State) (e : Entry) : State :=
  let p := s.path e.hdr.path
  let stale := match p.lastGen e.hdr.tag with
    | none => false
    | some g => !newerGen e.hdr.gen g
  if stale then
    let s1 := s.countPath e.hdr.path fun c => { c with staleTickets := c.staleTickets + 1 }
    if e.hdr.path = .pcie ∧ ¬ s.ringOn then s1.onHost (fun h => { h with bootBusy := false }) else s1
  else s.onPath e.hdr.path fun p => { (p.record e.hdr.tag e.hdr.gen) with queue := p.queue ++ [e] }

/-- Steps 4 to 7 of R335 for a packet whose length, CRC and version are right. -/
def State.receive (s : State) (e : Entry) : State :=
  let h := e.hdr
  if h.flags.toNat % 8 ≠ 0 ∨ (h.group ∧ h.dest.toNat < 0xFF00) then s.intakeBad e h.source.toNat 0x0009
  else if ¬ s.sourceOk h then s.intakeBad e h.source.toNat 0x0008
  else match s.route6 h e.opcode e.payload with
    | .here => s.enqueue e
    | .away s1 => s1
    | .both s1 => s1.enqueue e
    | .nowhere => s.intakeBad e h.source.toNat 0x0007

/-- The header of a packet (R324). -/
def headerOf (t : Nat) (path : Path) (b : Bytes) : Hdr :=
  { tick := t, path := path, flags := BitVec.ofNat 8 (leAt b 1 1), ticket := BitVec.ofNat 16 (leAt b 4 2),
    dest := BitVec.ofNat 16 (leAt b 6 2), source := BitVec.ofNat 16 (leAt b 8 2), reserved := BitVec.ofNat 32 (leAt b 12 4) }

/-- Steps 1 to 7 of R335 on the bytes of a packet that reached a path. Replies and notices that arrive at intake are flags errors (step 4). -/
def State.receiveBytes (s : State) (path : Path) (b : Bytes) (addr size : Nat) : State :=
  let words := leAt b 10 2
  let h := headerOf s.now path b
  let e := newEntry h (leAt b 2 2) ((b.drop 16).take (4 * words)) s.now true addr size
  if b.length ≠ 20 + 4 * words ∨ 1024 < words then s.intakeBad e h.source.toNat 0x0001
  else if ¬ crcOk b then s.intakeBad e (s.pathSource path) 0x0002
  else if leAt b 0 1 ≠ 1 then s.intakeBad e h.source.toNat 0x0003
  else s.receive e

end Sys2Proof.Machine
end

