-- ==== Sys2Proof/Machine/Card.lean ====
section
/-!
DEFINITION. What a command's card says (12): where it is legal, its lengths, the checks of R335 from step 8 on, and its effect.
-/
namespace Sys2Proof.Machine

/-- How a command that reaches step 15 ends: with a reply at once, or with a reply that waits (R387). -/
inductive Ran where
  | done (r : Reply)
  | held (k : HeldKind)
deriving DecidableEq, Repr

/-- A command's card (R351 to R357): its engine states in the codes of R347, its marks, whether its reserved bits are zero and its length is one of the card's, the checks of steps 11 and 12 to 14 in the card's order, its effect, what happens after its reply has left, and what a refusal by these checks counts. -/
structure Card where
  opcode : Nat
  states : List Nat
  pcieOnly : Bool := false
  boughOnly : Bool := false
  own : Bool := false
  reservedOk : Bool := true
  sizeOk : Bool := true
  busy : State → Option Reply := fun _ => none
  checks : State → Option Reply := fun _ => none
  run : Hdr → State → State × Ran
  after : State → State := id
  onRefused : Reply → State → State := fun _ s => s

/-- The state sets of R354. -/
def setQ : List Nat := [2, 3, 4, 5, 6, 7, 8, 9, 10]
/-- Set S (R354). -/
def setS : List Nat := [3, 4, 5, 6, 7, 8, 9]
/-- Set W (R354). -/
def setW : List Nat := [4, 5, 6, 7, 8, 9]
/-- Set C (R354). -/
def setC : List Nat := [4, 5, 6, 7, 8]
/-- Set T (R354). -/
def setT : List Nat := [4, 5, 6, 8, 9]

/-- The first reply of a list of checks that applies (R357). -/
def firstOf : List (Bool × Reply) → Option Reply
  | [] => none
  | (b, r) :: rest => if b then some r else firstOf rest

/-- The first of two checks that applies. -/
def orElse' (a b : Option Reply) : Option Reply := match a with
  | none => b
  | some r => some r

/-- Whether all bits of a number outside a mask are zero. -/
def onlyBits (v mask : Nat) : Bool := v &&& mask == v

/-- The 32-bit word i of a payload. -/
def word (b : Bytes) (i : Nat) : Nat := leAt b (4 * i) 4

/-- The configuration structure of N bits at byte off of a payload (R351). -/
def structAt (n : Nat) (b : Bytes) (off : Nat) : BitVec n := BitVec.ofNat n (leAt b off (n / 8))

/-- The index of a SELECT word (R352). -/
def selIndex (b : Bytes) : Nat := bits (word b 0) 0 16

/-- The reserved half of a SELECT word is zero (R352). -/
def selOk (b : Bytes) : Bool := bits (word b 0) 16 16 == 0

/-- A change made at once, answered OK with no result. -/
def doOk (f : State → State) : Hdr → State → State × Ran := fun _ s => (f s, .done (Reply.ok))

/-- The query twin of a configuration command (R353): n the number of objects (0 for a command without SELECT), bad its parameter reason. -/
def queryCard (opcode : Nat) (payload : Bytes) (n bad : Nat) (get : State → Nat → Bytes) : Card where
  opcode := opcode
  states := setQ
  reservedOk := n = 0 || selOk payload
  sizeOk := payload.length = if n = 0 then 0 else 4
  checks := fun _ => firstOf [(n ≠ 0 && n ≤ selIndex payload, Reply.refused bad)]
  run := fun _ s => (s, .done (Reply.ok (get s (selIndex payload))))

end Sys2Proof.Machine
end

