-- ==== Sys2Proof/Machine/ClockOps.lean ====
section
/-!
DEFINITION. The clock system's shared operations (08): plans, slews, loads, locks and scheduled switches, CLK_STATUS, and the cards of the clock family.
-/
namespace Sys2Proof.Machine

/-- Fields of the clock plan (R260). -/
def planFreq (p : BitVec 128) : Nat := fld p 88 40
/-- REFOUT_DIV (R260). -/
def planRefout (p : BitVec 128) : Nat := fld p 72 16
/-- SYNCOUT_LOG2 (R260). -/
def planSyncLog2 (p : BitVec 128) : Nat := fld p 64 8
/-- REF_SOURCE (R260): 0 XO, 1 REFIN, 2 UP. -/
def planSource (p : BitVec 128) : Nat := fld p 30 2
/-- SCALER (R260). -/
def planScaler (p : BitVec 128) : Nat := fld p 28 2
/-- FALLBACK_EN (R260). -/
def planFallback (p : BitVec 128) : Bool := flag p 27
/-- PHASE_MODE is SNAP (R260). -/
def planSnap (p : BitVec 128) : Bool := flag p 26
/-- SYNCOUT_MODE (R260). -/
def planSyncMode (p : BitVec 128) : Nat := fld p 24 2

/-- Twice the scaled reference frequency in mHz (R261, R262): for UP the ratio M is 4,096/165. -/
def planPfd2 (p : BitVec 128) : Nat :=
  let base := match planSource p with
    | 0 => 100000000000
    | 1 => planFreq p
    | _ => 402832031250
  match planScaler p with
  | 0 => 2 * base
  | 1 => 4 * base
  | _ => base

/-- A plan is integer when M is (R262). -/
def planInteger (p : BitVec 128) : Bool := 20000000000000 % planPfd2 p == 0

/-- The expected count of a lock window, 4,096 × M to the nearest integer (R263). -/
def planExpected (p : BitVec 128) : Nat := (2 * (4096 * 20000000000000) + planPfd2 p) / (2 * planPfd2 p)

/-- The plan's parameters are valid (R261). -/
def planValid (p : BitVec 128) : Bool :=
  planSource p ≠ 3 && planScaler p ≠ 3 && planSyncMode p ≤ 1 && planSyncLog2 p ≤ 40 &&
  !(1 ≤ planRefout p && planRefout p ≤ 19) &&
  (planSource p ≠ 1 || (10000000000 ≤ planFreq p && planFreq p ≤ 500000000000)) &&
  20000000000 ≤ planPfd2 p && planPfd2 p ≤ 1000000000000

/-- The key of the band cache and of a plan hop (R261, R264). -/
def planKey (p : BitVec 128) : Nat × Nat × Nat := (planSource p, planFreq p, planScaler p)

/-- The engine die's temperature as the code of MON4 (R264, R311). -/
def State.dieCode (s : State) : Nat := (s.mon.temps.getD 4 (0, true)).1

/-- The part of a slew made by a tick, in fs with its sign: 1 ps per µs (R281). -/
def Slew.made (w : Slew) (tick : Nat) : Int :=
  let n := min w.amount.natAbs ((tick - w.start) / 20)
  if w.amount < 0 then -(n : Int) else n

/-- The tick at which a slew has made its whole amount (R281). -/
def Slew.endsAt (w : Slew) : Nat := w.start + 20 * w.amount.natAbs

/-- A slew begins now; records within it are suspect (R281). -/
def State.startSlew (s : State) (kind : SlewKind) (amount : Int) (ticket : Nat) (load : Int) : State :=
  s.onClock fun c => { c with
    slew := some { kind := kind, amount := amount, start := s.now, ticket := ticket, load := load }
    suspect := c.suspect ++ [(s.now, none)] }

/-- The open suspect span ends at a tick. -/
def closeSpan (l : List (Nat × Option Nat)) (tick : Nat) : List (Nat × Option Nat) :=
  l.map fun (a, b) => (a, some (b.getD tick))

/-- Completions that waited for the end of a slew now wait for the newest event to be written (promise 4 of R212). -/
def State.releaseItems (s : State) : State :=
  s.allRings fun (r : Ring) => { r with items := r.items.map fun i =>
      if i.waitsSlew then { i with waitsSlew := false, afterEvent := max i.afterEvent s.events.seq } else i }

/-- The running slew ends at a tick, where it has reached (R281): its completing event is posted, and none for a tracking slew. -/
def State.endSlew (s : State) (tick : Nat) : State :=
  match s.clock.slew with
  | none => s
  | some w =>
    let s1 := s.onClock fun c => { c with slew := none, suspect := closeSpan c.suspect tick }
    State.releaseItems <| match w.kind with
    | .tracking => s1
    | .sync => s1.raiseAt { code := 0x0188, vals := [0, unsigned 64 w.load], ticket := w.ticket } (s.groveAt tick)
    | .trim => s1.raiseAt { code := 0x0187, vals := [unsigned 64 (w.made tick)], ticket := w.ticket } (s.groveAt tick)
    | .align => s1.raiseAt { code := 0x0187, vals := [unsigned 64 (w.made tick)], ticket := w.ticket } (s.groveAt tick)
    | .snap => s1.raiseAt { code := 0x0187, vals := [unsigned 64 (w.made tick)] } (s.groveAt tick)

/-- A SNAP slew that runs ends where it has reached, and one that waits is dropped (R270, R274). -/
def State.dropSnap (s : State) : State :=
  let s1 := s.onClock fun c => { c with snapWaiting := false }
  match s.clock.slew with
  | none => s1
  | some w => if w.kind = .snap then s1.endSlew s.now else s1

/-- A load adds a whole number of ticks to grove time, to T0 and to the keeper, and no physical instant changes (R280); the SQ synthesiser is then phased again (R285). -/
def State.load (s : State) (d : Int) : State :=
  if d = 0 then s else s.onClock fun c => { c with
    off := c.off + d
    t0 := c.t0.map (· + d)
    keeper := { c.keeper with count := unsigned 96 ((c.keeper.count : Int) + d * 2 ^ 32) }
    sqRephase := true
    cnt := { c.cnt with timeLoads := c.cnt.timeLoads + 1 } }

/-- A cold lock begins (R264): from the band cache where the plan's key has an entry measured within 15 °C, otherwise with a search. -/
def State.coldLock (s : State) : State :=
  let c := s.clock
  let key := planKey c.plan
  let near (e : BandEntry) : Bool :=
    (e.source, e.freq, e.scaler) = key && 1000 * (max e.temp s.dieCode - min e.temp s.dieCode) ≤ 122880
  match c.cache.find? near with
  | some e => s.onClock fun c => { c with
      loop := .acquiring, windows := false, goodWindows := 0, words := [], lockSince := s.now, band := e.band, fine := e.fine
      cacheHit := true, cache := e :: c.cache.erase e, cnt := { c.cnt with cacheHits := c.cnt.cacheHits + 1 } }
  | none => s.onClock fun c => { c with
      loop := .searching, windows := false, goodWindows := 0, words := [], lockSince := s.now, cacheHit := false
      cnt := { c.cnt with bandSearches := c.cnt.bandSearches + 1 } }

/-- The sample clocks will stop at the first beat boundary at least 64 ticks later, unless they are stopped or stopping (R272). -/
def State.scheduleStop (s : State) : State :=
  match s.clock.drive with
  | .stopped => s
  | _ =>
    match s.clock.switch with
    | some (_, .stop) => s
    | _ => s.onClock fun c => { c with switch := some (s.beatFrom (s.now + 64), .stop), fbStandby := false }

/-- Two internal spans meet: from a to b, and a recorded span that may still be open. -/
def spanMeets (a b : Nat) (x : Nat × Option Nat) : Bool := x.1 ≤ b && (match x.2 with
  | none => true
  | some e => a ≤ e)

/-- Some instant of a span of internal ticks lies in a slew or holds a switch tick, so that a record carries CLOCK_SUSPECT (R122, R270, R271, R281). -/
def State.suspect (s : State) (a b : Nat) : Bool := s.clock.suspect.any (spanMeets a b)

/-- CLK_STATUS (R283). -/
def State.clkStatus (s : State) : Nat :=
  let c := s.clock
  at' c.loop.code 29 + at' c.drive.code 27 + bAt c.fbStandby 26 + bAt c.refPresent 25 + bAt c.xoPresent 24 + bAt c.slew.isSome 23 +
    bAt c.sync.isSome 22 + at' (planSource c.plan) 20 + at' (planScaler c.plan) 18 + bAt (planSnap c.plan) 17 + bAt c.cacheHit 16 +
    at' c.band 10 + at' c.cache.length 5 + c.goodWindows

/-- SLEW_REMAINING in fs (R284). -/
def State.slewRemaining (s : State) : Int :=
  match s.clock.slew with
  | none => 0
  | some w => w.amount - w.made s.now

/-- Memory clock work in progress: a change, or training (R190). -/
def State.memClockOp (s : State) : Option Nat :=
  match s.mem.clock.phase with
  | .idle => none
  | .relock => some 3
  | .training _ => some (if s.mem.clock.initial then 4 else 3)

/-- The clock operation in progress with the lowest index (R337, R338): 1 sync, 2 slew, 3 memory clock change, 4 training. -/
def State.clockOp (s : State) : Option Nat :=
  if s.clock.sync.isSome then some 1 else if s.clock.slew.isSome then some 2 else s.memClockOp

/-- STATE 0x0015 for a clock operation, named (R338). -/
def clockOpState (i : Nat) : Reply := Reply.state 0x0015 (stateDetail 0x0C i 0 0)

/-- STATE 0x0016 while the sequencer is enabled, naming its first channel (R338). -/
def State.seqState (s : State) : Reply := Reply.state 0x0016 (stateDetail 0x07 0 0 (s.stim.chs.get 0).state.code)

/-- The conditions of R261 for CLOCK_PLAN and CLOCK_SYNC in IDLE. -/
def State.planConflict (s : State) : Option Reply :=
  match s.clock.sync, s.clock.slew with
  | some _, _ => some (clockOpState 1)
  | none, some _ => some (clockOpState 2)
  | none, none => if s.stim.enabled then some s.seqState else none

/-- A plan in force with what a hop does (R261): in IDLE a change of key is a hop. -/
def State.takePlan (s : State) (p : BitVec 128) : State × Ran :=
  let hop := planKey p ≠ planKey s.clock.plan
  let s1 := s.onClock fun c => { c with plan := p }
  if s.board.boot = .awaitImage ∨ ¬ hop then
    let s2 := if planFallback p ∧ planInteger p then s1 else s1.onClock fun c => { c with fbStandby := false }
    (s2, .done (Reply.ok))
  else
    let s2 := s1.onClock fun c => { c with
      refJudged := false, refPresent := false, fbStandby := false, hop := some s.now, windows := true, goodWindows := 0 }
    if s.clock.drive = .stopped then (s2.coldLock, .held .planHop)
    else ((s2.onClock fun c => { c with loop := .coasting }).dropSnap, .held .planHop)

/-- CLOCK_PLAN (R261, R362, R363). -/
def cardClockPlan (b : Bytes) : Card where
  opcode := 0x0101
  states := [2, 4]
  reservedOk := leAt b 4 4 == 0 && leAt b 0 3 == 0
  sizeOk := b.length = 16
  checks := fun s =>
    let p := structAt 128 b 0
    orElse' (if s.board.boot = .awaitImage then none else s.planConflict)
      (firstOf [(s.board.boot = .run && planKey p ≠ planKey s.clock.plan && s.clock.drive = .fallback, clockOpState 5),
        (!planValid p, Reply.refused 0x0101)])
  run := fun _ s => s.takePlan (structAt 128 b 0)

/-- CLOCK_SYNC is armed (R265, R266). -/
def State.armSync (s : State) (tick timeout ticket : Nat) : State :=
  s.onClock fun c => { c with sync := some { syncTick := tick, timeoutMs := timeout, since := s.now, ticket := ticket, lows := 0 } }

/-- The checks of R266 on a sync's parameters and plan. -/
def syncRefusal (s : State) (tick timeout : Nat) : Option Reply :=
  firstOf [(tick % 128 ≠ 0 || timeout = 0, Reply.refused 0x0101),
    (!planInteger s.clock.plan || planSource s.clock.plan ≠ 1, Reply.refused 0x0103)]

/-- CLOCK_SYNC (R266, R362, R363). -/
def cardClockSync (b : Bytes) : Card where
  opcode := 0x0102
  states := [2, 4]
  reservedOk := leAt b 10 2 == 0
  sizeOk := b.length = 12
  busy := fun s => firstOf [(s.clock.sync.isSome || s.clock.slew.isSome, Reply.busy 0x0104)]
  checks := fun s => orElse' (if s.board.boot = .awaitImage then none else s.planConflict) (syncRefusal s (leAt b 0 8) (leAt b 8 2))
  run := fun h s => (s.armSync (leAt b 0 8) (leAt b 8 2) h.ticket.toNat, .done Reply.deferred)

/-- GRID_TRIM (R281, R362, R363). -/
def cardGridTrim (b : Bytes) : Card where
  opcode := 0x0103
  states := [4, 5, 6, 9]
  sizeOk := b.length = 4
  busy := fun s => firstOf [(s.clock.slew.isSome, Reply.busy 0x0104)]
  checks := fun _ => firstOf [(50000 < (signed 32 (word b 0)).natAbs, Reply.refused 0x0101)]
  run := fun h s =>
    let a := signed 32 (word b 0)
    if a = 0 then (s, .done (Reply.ok)) else (s.startSlew .trim a h.ticket.toNat 0, .done Reply.deferred)

end Sys2Proof.Machine
end

