-- ==== Sys2Proof/Machine/MemOps.lean ====
section
/-!
DEFINITION. The memory system's shared operations (05): the array in canonical form, the interleave, poison, ports, the scheduler's choice, refresh, the memory clock, and the cards of the memory family.
-/
namespace Sys2Proof.Machine

/-- Installed memory in bytes (R165). -/
def State.memBytes (s : State) : Nat := if s.is96 then 0x1800000000 else 0x0C00000000

/-- CRC-32C of 2,044 zero bytes, which initialisation writes behind them (R19, R170); the tests compute it. -/
def initCrc : Nat := 0x954F7B20

/-- What initialisation writes at an address, and an unlisted address reads as (R170, R171). -/
def initByte (a : Nat) : Byte :=
  if a % 2048 < 2044 then 0 else BitVec.ofNat 8 (initCrc >>> (8 * (a % 2048 - 2044)))

/-- A byte of the array. -/
def cellAt (m : List Host.Cell) (a : Nat) : Byte := packAt initByte m a

/-- n bytes of the array. -/
def cellsAt (m : List Host.Cell) (a n : Nat) : Bytes := (List.range n).map fun i => cellAt m (a + i)

/-- The array with bytes written at an address. -/
def putCells (m : List Host.Cell) (a : Nat) (bs : Bytes) : List Host.Cell := packPut initByte m a bs

/-- The canonical form of the array: addresses strictly rising, and no entry equal to what its address reads as when unlisted. -/
def cellsWf (m : List Host.Cell) : Bool := packWf initByte m

/-- The canonical form of the memory (the array's). -/
def Memory.wf (m : Memory) : Bool := cellsWf m.cells

/-- Units of 32 bytes fully covered by n bytes at an address (R192). -/
def fullUnits (a n : Nat) : List Nat := (List.range ((a + n) / 32)).filter fun u => a ≤ 32 * u && 32 * u + 32 ≤ a + n

/-- Spans without the part from a up to b. -/
def subSpan (l : List (Nat × Nat)) (a b : Nat) : List (Nat × Nat) :=
  l.flatMap fun (x, y) => (if x < min a y then [(x, min a y)] else []) ++ (if max b x < y then [(max b x, y)] else [])

/-- The bytes at an address are open: those of a ring (R106). -/
def Memory.isOpen (m : Memory) (a : Nat) : Bool := m.open_.any fun (x, y) => x ≤ a && a < y

/-- Bytes are written: whole units become good, partly written ones stay as they were (R180, R192). -/
def Memory.put (m : Memory) (a : Nat) (bs : Bytes) : Memory :=
  { m with
    cells := putCells m.cells a bs, poison := m.poison.filter fun u => !(a ≤ 32 * u && 32 * u + 32 ≤ a + bs.length)
    open_ := subSpan m.open_ a (a + bs.length) }

/-- Bytes are read (R181: never older than the newest write accepted). -/
def Memory.get (m : Memory) (a n : Nat) : Bytes := cellsAt m.cells a n

/-- Some unit of n bytes at an address is poisoned (R192). -/
def Memory.bad (m : Memory) (a n : Nat) : Bool := m.poison.any fun u => a < 32 * u + 32 && 32 * u < a + n

/-- A stripe is re-initialised (R170, R171): its bytes and its errors go. -/
def Memory.clearStripe (m : Memory) (stripe : Nat) : Memory :=
  { m with
    cells := m.cells.filter fun c => c.1 >>> 23 ≠ stripe, poison := m.poison.filter fun u => u >>> 18 ≠ stripe
    open_ := subSpan m.open_ (2 ^ 23 * stripe) (2 ^ 23 * (stripe + 1)) }

/-- GRAIN of a stripe (R169, R171). -/
def Memory.grain (m : Memory) (stripe : Nat) : Nat := ((m.grains.find? fun (x, _) => x = stripe).map Prod.snd).getD 4

/-- A stripe takes a grain; 0x4 is not listed. -/
def Memory.setGrain (m : Memory) (stripe grain : Nat) : Memory :=
  { m with grains := m.grains.filter (fun (x, _) => x < stripe) ++ (if grain = 4 then [] else [(stripe, grain)]) ++
      m.grains.filter (fun (x, _) => stripe < x) }

/-- The stripes that n bytes at an address touch. -/
def stripesOf (a n : Nat) : List Nat := if n = 0 then [] else (List.range ((a + n - 1) / 2 ^ 23 - a / 2 ^ 23 + 1)).map (· + a / 2 ^ 23)

/-- Where an address lies (R168): stack, pseudo-channel within it, bank, row and column. -/
structure Place where
  stack : Nat
  pseudo : Nat
  channel : Nat
  bank : Nat
  row : Nat
  col : Nat
deriving DecidableEq, Repr

/-- The interleave of R168 for a stripe of a given grain. -/
def placeOf (grain epa : Nat) : Place :=
  let s := epa >>> 23
  let o := epa % 2 ^ 23
  let gb := 8 + grain
  let n := o >>> gb
  let u := o % 2 ^ gb
  let slot := (n % 128) ^^^ ((s % 128) ^^^ ((s >>> 7) % 128))
  let x := (n >>> 7) * 2 ^ gb + u
  { stack := slot % 4, pseudo := bits slot 2 1, channel := bits slot 3 4, bank := x >>> 10, row := s, col := x % 1024 }

/-- The place of an address now. -/
def Memory.place (m : Memory) (epa : Nat) : Place := placeOf (m.grain (epa >>> 23)) epa

/-- The number of a pseudo-channel, 0 to 127: 32 per stack. -/
def Place.pc (p : Place) : Fin 128 := Fin.ofNat 128 (32 * p.stack + 2 * p.channel + p.pseudo)

/-- Rows of a bank (R163). -/
def State.rowCount (s : State) : Nat := if s.is96 then 12288 else 6144

/-- Memory is unavailable to FWP: from the start of INIT to MEM_INIT, and from the start of a clock change to the end of training (R191, R468). -/
def State.memBusy (s : State) : Bool := !s.mem.initDone || s.mem.clock.phase ≠ .idle

/-- n bytes of the array as they are read: free values where they are open (R106). -/
def State.arrayRead (s : State) (a n : Nat) : State × Bytes :=
  if (List.range n).any fun i => s.mem.isOpen (a + i) then
    (s.drawn n,
      (List.range n).map fun i => if s.mem.isOpen (a + i) then Config.freeByte (s.freeCount + i) else cellAt s.mem.cells (a + i))
  else (s, s.mem.get a n)

/-- A read through FWP (R166, R191): all ones where memory is unavailable or unmapped. -/
def State.fwpRead (s : State) (a n : Nat) : State × Bytes :=
  if s.memBusy then (s.onMem fun m => { m with unavailable := m.unavailable + 1 }, List.replicate n 0xFF)
  else if s.memBytes ≤ a then (s.onMem fun m => { m with unmapped := m.unmapped + 1 }, List.replicate n 0xFF)
  else s.arrayRead a n

/-- A write through FWP (R166, R191): discarded where memory is unavailable or unmapped. -/
def State.fwpWrite (s : State) (a : Nat) (bs : Bytes) : State :=
  if s.memBusy then s.onMem fun m => { m with unavailable := m.unavailable + 1 }
  else if s.memBytes ≤ a then s.onMem fun m => { m with unmapped := m.unmapped + 1 }
  else s.onMem fun m => m.put a bs

/-- Fields of a port's configuration (R174). -/
def portOn (c : BitVec 64) : Nat := fld c 48 16
/-- PANIC_OFF (R174). -/
def portOff (c : BitVec 64) : Nat := fld c 32 16
/-- HINT (R174). -/
def portHint (c : BitVec 64) : Nat := fld c 2 2

/-- A port is real-time: RTW0 to RTW15 and SFP (R172). -/
def portRt (code : Nat) : Bool := code < 16 || code = 0x15

/-- The whole ticks of n memory-clock cycles at a RATE code (R164): a tick is 50 ps. -/
def cycleTicks (rate n : Nat) : Nat := n * 200 / (match rate with
  | 0 => 16
  | 1 => 14
  | 2 => 12
  | _ => 8)

/-- The memory bandwidth limit of a RATE code in MB/s (R164). -/
def rateBudget (rate : Nat) : Nat := match rate with
  | 0 => 2400000
  | 1 => 2100000
  | 2 => 1800000
  | _ => 1200000

/-- A stack changes. -/
def Memory.onStack (m : Memory) (i : Fin 4) (f : Stack → Stack) : Memory := { m with hbm := vmod m.hbm i f }
/-- A pseudo-channel changes. -/
def Memory.onPc (m : Memory) (i : Fin 128) (f : Pc → Pc) : Memory := { m with pcs := vmod m.pcs i f }
/-- A memory port changes. -/
def Memory.onPort (m : Memory) (i : Fin 23) (f : Port → Port) : Memory := { m with ports := vmod m.ports i f }
/-- The stack of a pseudo-channel. -/
def stackOf (pc : Fin 128) : Fin 4 := Fin.ofNat 4 (pc.val / 32)
/-- Refresh interval and debt limit of a stack (R182, R184). -/
def Stack.interval (k : Stack) : Nat := if k.hot then 600 else 1200
/-- REF_LIMIT (R184, R195). -/
def Stack.limit (k : Stack) : Nat := if k.hot then 4 else 8

/-- A port's level after a request, and its panic (R175). -/
def Port.setLevel (p : Port) (level : Nat) : Port :=
  let on := 256 * portOn p.cfg ≤ level
  { p with
    level := level, maxLevel := max p.maxLevel level
    panic := on || (p.panic && 256 * portOff p.cfg ≤ level)
    entries := p.entries + (if on && !p.panic then 1 else 0) }

/-- Some request of a pseudo-channel is from a port in panic (R176, R184). -/
def Memory.panicked (m : Memory) (r : MemReq) : Bool := portRt r.port && (vnat m.ports r.port).panic

/-- What the scheduler chooses (R176). -/
inductive Pick where
  | refresh
  | neighbour (n : Neighbour)
  | request (r : MemReq) (byAge : Bool)
  | idle
deriving DecidableEq, Repr

/-- The oldest of a list of requests: the first that entered. -/
def oldestReq : List MemReq → Option MemReq
  | [] => none
  | r :: rs => match oldestReq rs with
    | none => some r
    | some q => if r.entered ≤ q.entered then some r else some q

/-- A request hits an open row (R176). -/
def Memory.hits (m : Memory) (p : Pc) (r : MemReq) : Bool :=
  let l := m.place (32 * r.addr)
  p.openRows.any fun (b, row, _, _) => b = l.bank && row = l.row

/-- A scheduled neighbour refresh is forced once it has waited 256 cycles (R186). -/
def Memory.forcedNeighbour (m : Memory) (p : Pc) (now : Nat) : Option Neighbour :=
  p.neighbours.find? fun n => cycleTicks m.clock.rate 256 ≤ now - n.scheduled

/-- The scheduler's choice for a pseudo-channel at a tick, with every waiting request taken as ready (R176, log 12). -/
def Memory.pick (m : Memory) (i : Fin 128) (now : Nat) : Pick :=
  let p := m.pcs.get i
  if (m.hbm.get (stackOf i)).limit < p.debt then .refresh
  else match m.forcedNeighbour p now with
    | some n => .neighbour n
    | none =>
      let all := p.reads ++ p.writes
      let panic := all.filter m.panicked
      let cand := if panic ≠ [] then panic else if p.draining then p.writes else all
      let aged := cand.filter fun r => cycleTicks m.clock.rate 512 ≤ now - r.entered
      match oldestReq aged, oldestReq (cand.filter (m.hits p)), oldestReq cand with
      | some r, _, _ => .request r true
      | none, some r, _ => .request r false
      | none, none, some r => .request r false
      | none, none, none => match p.neighbours with
        | n :: _ => .neighbour n
        | [] => if 0 < p.debt then .refresh else .idle

/-- A neighbour refresh is issued, forced or not (R186): it closes its bank's open row. -/
def Memory.issueNeighbour (m : Memory) (i : Fin 128) (n : Neighbour) (forced : Bool) : Memory :=
  (m.onPc i fun p => { p with neighbours := p.neighbours.erase n, openRows := p.openRows.filter fun (b, _) => b ≠ n.bank }).onStack (stackOf i)
    fun k => { k with cnt := { k.cnt with neighbours := k.cnt.neighbours + 1, neighbourForced := k.cnt.neighbourForced + (if forced then 1 else 0) } }

/-- Neighbour refreshes of an activated row are scheduled; one that would overflow the bank's four places forces out the oldest at once (R186). -/
def Memory.scheduleNeighbours (m : Memory) (i : Fin 128) (bank : Nat) (rows : List Nat) (now : Nat) : Memory :=
  rows.foldl (fun m row =>
    let mine := (m.pcs.get i).neighbours.filter fun n => n.bank = bank
    let m1 := if 4 ≤ mine.length then (match mine with
      | [] => m
      | n :: _ => m.issueNeighbour i n true) else m
    m1.onPc i fun p => { p with neighbours := p.neighbours ++ [{ bank := bank, row := row, scheduled := now }] }) m

/-- A refresh is issued: banks rotate, and the bank's row is closed (R182, R179). -/
def Memory.issueRefresh (m : Memory) (i : Fin 128) (now : Nat) : Memory :=
  m.onPc i fun p => { p with
    debt := p.debt - 1, lastRefresh := max now (p.lastRefresh + 160), nextBank := (p.nextBank + 1) % 64
    openRows := p.openRows.filter fun (b, _) => b ≠ p.nextBank }

/-- A request is issued (R176, R179, R186): the row is opened if it was not, and left open or closed as the hint says. -/
def State.issueRequest (s : State) (i : Fin 128) (r : MemReq) (byAge : Bool) : State :=
  let m := s.mem
  let l := m.place (32 * r.addr)
  let p := m.pcs.get i
  let hit := m.hits p r
  let hint := portHint (vnat m.ports r.port).cfg
  let s1 := s.onMem fun m => (m.onPc i fun p =>
    let ws := p.writes.erase r
    let rows := p.openRows.filter fun (b, _) => b ≠ l.bank
    { p with
      reads := p.reads.erase r, writes := ws
      draining := (p.draining && 16 < ws.length)
      openRows := if hint = 1 then rows else rows ++ [(l.bank, l.row, s.now, hint == 2)] }).onStack (stackOf i)
        fun k => { k with cnt := { k.cnt with ageCapWins := k.cnt.ageCapWins + (if byAge then 1 else 0) } }
  if hit then s1
  else if Config.neighbourDraw (fld m.cfg 0 4) s1.freeCount then
    s1.draw.onMem fun m => m.scheduleNeighbours i l.bank ((Config.adjacentRows (stackOf i).val l.row).filter (· < s.rowCount)) s.now
  else s1.draw

/-- One choice of a pseudo-channel's scheduler is carried out (R176). -/
def State.schedule (s : State) (i : Fin 128) : State :=
  match s.mem.pick i s.now with
  | .refresh => s.onMem fun m => m.issueRefresh i s.now
  | .neighbour n => s.onMem fun m => m.issueNeighbour i n (m.forcedNeighbour (m.pcs.get i) s.now).isSome
  | .request r byAge => s.issueRequest i r byAge
  | .idle => s

/-- The bytes of a unit under a mask (R173): old bytes where the mask is clear. -/
def mergeUnit (old new : Bytes) (mask : BitVec 32) : Bytes :=
  (List.range 32).map fun i => if flag mask i then new.getD i 0 else old.getD i 0

/-- A request enters its pseudo-channel queue (R173, R175, R180, R181): a write takes effect at once and merges into a queued write of its unit; 48 writes start a batch. -/
def State.memRequest (s : State) (port : Fin 23) (unit : Nat) (a : MemAccess) (level : Nat) : State :=
  let s0 := if portRt port.val then s.onMem fun m => m.onPort port fun p => p.setLevel level else s
  if s.memBytes ≤ 32 * unit then
    let s1 := s0.onMem fun m => { m with unmapped := m.unmapped + 1 }
    match a with
    | .read => s1.onMem fun m => m.onPort port fun p => { p with data := List.replicate 32 0xFF, poisoned := false }
    | .write _ _ => s1
  else
    let i := (s.mem.place (32 * unit)).pc
    match a with
    | .read => (s0.onMem fun m =>
        ((m.onPc i fun p => { p with reads := p.reads ++ [{ port := port.val, addr := unit, write := false, entered := s.now }] }).onPort port
          fun p => { p with reads := p.reads ++ [unit] }).onStack (stackOf i) fun k => { k with cnt := { k.cnt with
            forwardHits := k.cnt.forwardHits + (if (m.pcs.get i).writes.any fun w => w.addr = unit then 1 else 0) } }).schedule i
    | .write d mask => (s0.onMem fun m =>
        let new := mergeUnit (m.get (32 * unit) 32) d mask
        let m1 := { m with cells := putCells m.cells (32 * unit) new, open_ := subSpan m.open_ (32 * unit) (32 * unit + 32),
                           poison := if mask = BitVec.allOnes 32 then m.poison.filter (· ≠ unit) else m.poison }
        m1.onPc i fun p =>
          if p.writes.any fun w => w.addr = unit then p
          else
            let ws := p.writes ++ [{ port := port.val, addr := unit, write := true, entered := s.now }]
            { p with writes := ws, draining := p.draining || 48 ≤ ws.length }).schedule i

/-- Insertion into a rising list of numbers without repeats. -/
def insertNat (x : Nat) : List Nat → List Nat
  | [] => [x]
  | y :: ys => if x < y then x :: y :: ys else if x = y then y :: ys else y :: insertNat x ys

/-- What error correction reports for a unit that was read (R192). -/
def State.eccReport (s : State) (unit : Nat) (e : Ecc) : State :=
  let k := stackOf (s.mem.place (32 * unit)).pc
  match e with
  | .clean => s
  | .corrected => s.onMem fun m => m.onStack k fun k => { k with cnt := { k.cnt with corrected := k.cnt.corrected + 1 } }
  | .uncorrectable => s.onMem fun m =>
      { (m.onStack k fun k => { k with cnt := { k.cnt with uncorrectable := k.cnt.uncorrectable + 1 } }) with poison := insertNat unit m.poison }

/-- A refresh falls due (R182, R184, R185): postponed while a port in panic has a request there, unless the debt would pass the limit. -/
def State.refreshDue (s : State) (i : Fin 128) : State :=
  let k := s.mem.hbm.get (stackOf i)
  let p := s.mem.pcs.get i
  let panic := (p.reads ++ p.writes).any s.mem.panicked
  let due (m : Memory) : Memory := (m.onPc i fun p => { p with debt := p.debt + 1, nextDue := p.nextDue + k.interval }).onStack (stackOf i)
    fun k => { k with maxDebt := max k.maxDebt (p.debt + 1) }
  let count (f : StackCounters → StackCounters) (m : Memory) : Memory := m.onStack (stackOf i) fun k => { k with cnt := f k.cnt }
  let s1 := s.onMem due
  if s.now < p.lastRefresh then s1.onMem fun m => m.issueRefresh i s.now
  else if panic then
    let s2 := s1.onMem (count fun c => { c with postponed := c.postponed + 1 })
    if k.limit < p.debt + 1 then s2.onMem fun m => (count (fun c => { c with forced := c.forced + 1 }) m).issueRefresh i s.now else s2
  else (List.range (min (p.debt + 1) 8)).foldl (fun s _ => s.onMem fun m => m.issueRefresh i s.now) s1

/-- MEM_STATUS of a stack (R195). -/
def State.memStatus (s : State) (i : Fin 4) : Nat :=
  let k := s.mem.hbm.get i
  let c := s.mem.clock
  let training := match c.phase with
    | .training _ => true
    | .relock => false
    | .idle => false
  bAt k.trained 31 + bAt training 30 + at' c.lastPass 28 + bAt c.queued.isSome 27 + bAt k.hot 26 + at' c.rate 20 + at' k.limit 16 +
    at' (unsigned 8 (k.temp / 10)) 8 + at' (min 15 k.maxDebt) 4

/-- A memory clock change starts (R190): stacks enter self-refresh, the clock relocks, and a running initialisation will start again. -/
def State.startMemChange (s : State) (rate : Nat) : State :=
  s.onMem fun m => { m with
    clock := { m.clock with phase := .relock, target := rate, initial := false, since := s.now }
    hbm := m.hbm.map fun k => { k with trained := false }
    initRunning := false }

/-- MEM_CLOCK_DONE for a ticket: 0 OK, 1 SUPERSEDED (R190, R487). -/
def State.memClockDone (s : State) (outcome rate ticket : Nat) : State := s.raise { code := 0x0683, vals := [outcome, rate], ticket := ticket }

/-- The queued change is made, and the change it interrupts is superseded (R190). -/
def State.makeQueued (s : State) (rate ticket : Nat) : State :=
  let s1 := s.finish .memClock { status := 0, detail := 1 }
  let s2 := s1.each s.mem.clock.deferred fun s t => s.memClockDone 1 s.mem.clock.target t
  (s2.onMem fun m => { m with clock := { m.clock with queued := none, deferred := [ticket] } }).startMemChange rate

/-- Training at the rate just locked to begins with pass 1 (R189, R190). -/
def State.startTraining (s : State) (initial : Bool) : State :=
  s.onMem fun m => { m with clock := { m.clock with
    phase := .training 0, rate := m.clock.target, initial := initial, since := s.now, lastPass := 0 } }

/-- MEM_CLOCK's cases (R190). -/
def State.memClock (s : State) (rate ticket : Nat) : State × Ran :=
  let c := s.mem.clock
  if c.phase = .idle then
    if rate = c.rate then (s, .done (Reply.ok)) else (s.startMemChange rate, .held .memClock)
  else if rate = c.target then
    (s.onMem fun m => { m with clock := { m.clock with deferred := m.clock.deferred ++ [ticket] } }, .done Reply.deferred)
  else (s.onMem fun m => { m with clock := { m.clock with queued := some (rate, ticket) } }, .done Reply.deferred)

/-- MEM_PORT_CONFIG's parameters are valid (R174). -/
def portCfgOk (code : Nat) (c : BitVec 64) : Bool :=
  portHint c ≠ 3 &&
  (if portRt code then portOff c < portOn c && portOn c ≤ (if code < 16 then 256 else 128) else portOn c = 0 && portOff c = 0)

/-- A capture group is in ARMED, FILLING or HOLDOFF. -/
def Group.live (g : Group) : Bool := g.state = .armed || g.state = .filling || g.state = .holdoff

/-- CHANNEL_MASK of a group (R100). -/
def Group.channels (g : Group) : Nat := fld g.cap 48 16

end Sys2Proof.Machine
end

