-- ==== Sys2Proof/Machine/InputOps.lean ====
section
/-!
DEFINITION. Inputs, fusion, conversion, correction and the sample links (01, R221): which bank serves which input, the ideal code, OVR, the correction pipeline, and the samples that have reached the engine.
-/
namespace Sys2Proof.Machine

/-- The quad of an input or a bank. -/
def quadOf (i : Fin 16) : Fin 4 := Fin.ofNat 4 (i.val / 4)
/-- Inputs or banks of a quad. -/
def ofQuad (q : Fin 4) : List (Fin 16) := [0, 1, 2, 3].map fun j => Fin.ofNat 16 (4 * q.val + j)
/-- Samples per tick of a fusion code of R53. -/
def rateOf (fusion : Nat) : Nat := 2 ^ fusion
/-- RANGE in mVpp (R365). -/
def rangeMv (cfg : BitVec 32) : Nat := 125 * 2 ^ fld cfg 30 2
/-- RANGE, FILTER and OFFSET (R365). -/
def rangeCode (cfg : BitVec 32) : Nat := fld cfg 30 2
/-- FILTER (R365). -/
def filterCode (cfg : BitVec 32) : Nat := fld cfg 28 2
/-- OFFSET (R365). -/
def offsetOf (cfg : BitVec 32) : Int := sfld cfg 0 16

/-- The banks an input feeds in a fusion mode, in order of phase; none for a disconnected input (R36). -/
def feeds (fusion : Nat) (i : Fin 16) : List (Fin 16) :=
  match fusion with
  | 0 => [i]
  | 1 => if i.val % 2 = 0 then [i, i + 1] else []
  | _ => if i.val % 4 = 0 then [i, i + 1, i + 2, i + 3] else []

/-- The input that feeds a bank (R36). -/
def sourceInput (fusion : Nat) (b : Fin 16) : Fin 16 := Fin.ofNat 16 (b.val / 2 ^ min fusion 2 * 2 ^ min fusion 2)
/-- PHASE of a bank (R36, R53). -/
def bankPhase (fusion : Nat) (b : Fin 16) : Nat := b.val % 2 ^ min fusion 2

/-- Fusion code of an input's quad. -/
def State.fusion (s : State) (i : Fin 16) : Nat := (s.quads.get (quadOf i)).fusion
/-- Banks that feed an input's channel now. -/
def State.feeding (s : State) (i : Fin 16) : List (Fin 16) := feeds (s.fusion i) i

/-- Whether a filter is permitted in a fusion mode (R25). -/
def filterOk (fusion filter : Nat) : Bool := filter ≤ fusion

/-- (v_in - v_off) in units of 1/1024 nV (R27). -/
def afterOffset (cfg : BitVec 32) (nv : Int) : Int := 1024 * nv - offsetOf cfg * (rangeMv cfg * 15625 : Nat)
/-- The ideal code (R26). -/
def idealCode (cfg : BitVec 32) (nv : Int) : Int := clampInt (-2048) 2047 (roundDiv (afterOffset cfg nv) (250000 * rangeMv cfg))
/-- What the over-range detector shows: no, yes, or either (R42). -/
def ovrTrips (cfg : BitVec 32) (nv : Int) : Option Bool :=
  let a := (afterOffset cfg nv).natAbs
  if a ≤ 512000000 * rangeMv cfg then some false
  else if 1000 * a > 1015 * (512000000 * rangeMv cfg) then some true else none

/-- The sample word of a code (R40). -/
def wordOf (code : Int) (ovr : Bool) : Nat := unsigned 12 code * 16 + (if ovr then 1 else 0)
/-- CODE of a sample word (R41). -/
def codeOf (w : Nat) : Int := signed 12 (w / 16)
/-- The word read as a signed 16-bit integer with OVR masked (R41). -/
def valueOf (w : Nat) : Int := signed 16 (w / 2 * 2)
/-- OVR of a sample word. -/
def ovrOf (w : Nat) : Bool := bit w 0

/-- Sample words of a bank from voltages, with the count of recovery words still to come and of free values drawn (R26, R42, R43). -/
def convert (cfg : BitVec 32) : List Int → Nat → Nat → List Nat × Nat × Nat
  | [], hold, free => ([], hold, free)
  | v :: vs, hold, free =>
    let trip := ovrTrips cfg v
    let t := trip.getD (Config.ovrBetween free)
    let r := convert cfg vs (if t then 16 else hold - 1) (if trip.isNone then free + 1 else free)
    (wordOf (idealCode cfg v) (t || 0 < hold) :: r.1, r.2)

/-- Steps that shift a stream in time (R221 steps 1, 4 and 5): no shift leaves the newest value, any other gives a free value of the window, newest first. -/
def shiftStage (skew : Int) (window : List Int) : Int := if skew = 0 then window.headD 0 else Config.skewStage skew window

/-- Step 1: offset and gain of the slice, in units of 2^-28 code. -/
def sliceStep (c : SliceCoef) (code : Int) : Int := (256 * code - c.offset) * (2 ^ 20 + c.gain)
/-- Step 2: bank offset and gain of a range, in units of 2^-58 code; unity where the field is not VALID (R250). -/
def bankStep (c : BankCoef) (range : Nat) (v : Int) : Int :=
  if bit c.valid range then (v - c.offsets.getD range 0 * 2 ^ 20) * c.gains.getD range (2 ^ 30) else v * 2 ^ 30
/-- Step 3: the response equaliser of a range and filter pair over the last sixteen values, newest first, in units of 2^-72 code. -/
def equalise (c : BankCoef) (range filter : Nat) (window : List Int) : Int :=
  if bit c.valid (4 + 3 * range + filter) then
    ((c.taps.getD (3 * range + filter) []).zip window).foldl (fun a (t, v) => a + t * v) 0
  else window.headD 0 * 2 ^ 14
/-- Bank skew and fused phase that apply, in units of 0.1 fs (R221 steps 4 and 5). -/
def bankShift (c : BankCoef) (fusion : Nat) : Int :=
  (if bit c.valid 18 then 10 * c.skew else 0) +
    (if fusion = 1 ∧ bit c.valid 16 then 10 * c.phaseF2 else if fusion = 2 ∧ bit c.valid 17 then 10 * c.phaseF4 else 0)

/-- The coefficients and positions that a bank applied to a tick (R31, R240). -/
def Bank.coefAt (b : Bank) (tick : Nat) : BankCoef := match b.oldCoef with
  | some (x, c) => if tick < x then c else b.coef
  | none => b.coef
/-- The slice that took the sample of a tick at a phase position (R30, R31). -/
def Bank.sliceAt (b : Bank) (tick pos : Nat) : Nat := match b.oldPositions with
  | some (x, l) => if tick < x then l.getD pos 0 else b.positions.getD pos 0
  | none => b.positions.getD pos 0

/-- What the pipeline carries from sample to sample: the last values after step 1, after slice skew and bank gain, and after the equaliser, newest first. -/
structure Pipe where
  a : List Int
  b : List Int
  c : List Int

/-- One sample through the pipeline (R221): the corrected word. OVR passes unchanged (R44). -/
def pipeStep (b : Bank) (fusion : Nat) (cfg : BitVec 32) (start : Int) (tick w : Nat) (p : Pipe) : Nat × Pipe :=
  let k := b.coefAt tick
  let sl := k.slices.getD (b.sliceAt tick (((tick : Int) - start) % 32).toNat) {}
  let a := (sliceStep sl (codeOf w) :: p.a).take 16
  let b2 := (bankStep k (rangeCode cfg) (shiftStage sl.skew a) :: p.b).take 16
  let c3 := (equalise k (rangeCode cfg) (filterCode cfg) b2 :: p.c).take 16
  let v := shiftStage (bankShift k fusion) c3
  (wordOf (clampInt (-2048) 2047 (roundDiv v (2 ^ 72))) (ovrOf w), { a := a, b := b2, c := c3 })

/-- A run of samples through the pipeline. -/
def pipeRun (b : Bank) (fusion : Nat) (cfg : BitVec 32) (start : Int) : Nat → List Nat → Pipe → List Nat
  | _, [], _ => []
  | tick, w :: ws, p =>
    let r := pipeStep b fusion cfg start tick w p
    r.1 :: pipeRun b fusion cfg start (tick + 1) ws r.2

/-- The internal tick of the grid's first sample: T0, which every load moves together with grove time (R33, R280). -/
def State.gridStart (s : State) : Int := s.clock.t0.getD 0 - s.clock.off
/-- First tick of block number n of the grid (R45). -/
def State.blockFirst (s : State) (n : Nat) : Nat := (s.gridStart + 128 * n).toNat
/-- Number of the first block that begins at or after a tick. -/
def State.nextBlock (s : State) (tick : Nat) : Nat := ceilDiv ((tick : Int) - s.gridStart).toNat 128

/-- The samples a released block corrects to: the pipeline runs on from the sixteen samples before it (R221). -/
def State.corrected (s : State) (b : Fin 16) (raw : Block) : List Nat :=
  let k := s.banks.get b
  let q := s.quads.get (quadOf b)
  let cfg := (s.inputs.get (sourceInput q.fusion b)).cfg
  let before := match k.link.replay.find? fun r => r.first + 128 = raw.first with
    | some r => r.words.drop 80
    | none => []
  (pipeRun k q.fusion cfg s.gridStart (raw.first - before.length) (before ++ raw.words) { a := [], b := [], c := [] }).drop before.length

/-- A delivered word of a bank at a tick. -/
def Bank.wordAt (b : Bank) (tick : Nat) : Option Nat :=
  (b.hist.find? fun k => k.first ≤ tick && tick < k.first + 128).bind fun k => k.words[tick - k.first]?

/-- The first tick of the held interval of a quad in which a tick lies (R237). -/
def Quad.heldFrom (q : Quad) (tick : Nat) : Option Nat :=
  let past := (q.heldPast.find? fun (a, e) => a ≤ tick && tick < e).map Prod.fst
  match q.held with
  | some (a, none) => if a ≤ tick then some a else past
  | some (a, some e) => if a ≤ tick ∧ tick < e then some a else past
  | none => past

/-- The word that stands before a held interval of a stream: the last word of the bank that took it; a free value where the stream had none. -/
def Bank.heldWord (b : Bank) (first : Nat) : Nat :=
  ((b.heldWords.find? fun (a, _) => a = first).map Prod.snd).getD (Config.freeNat first % 65536)

/-- Trigger units of a quad's channels deliver nothing for the samples of a tick: held, or within 64 ticks after a held interval (R238). -/
def Quad.quietAt (q : Quad) (tick : Nat) : Bool :=
  (match q.held with
    | some (a, none) => a ≤ tick
    | some (a, some e) => a ≤ tick && tick < e + 64
    | none => false) || q.heldPast.any fun (a, e) => a ≤ tick && tick < e + 64

/-- The sample of a channel with index m = F × tick + phase (R37): in a held interval a held word with the CODE of the stream's last sample before it, which its last phase took (R237). -/
def State.chWord (s : State) (i : Fin 16) (m : Nat) : Option Nat :=
  let q := s.quads.get (quadOf i)
  let f := rateOf q.fusion
  match (s.feeding i)[m % f]?, (s.feeding i)[f - 1]? with
  | some b, some l =>
    match (s.banks.get b).wordAt (m / f) with
    | none => none
    | some w => match q.heldFrom (m / f) with
      | some a => some (wordOf (codeOf ((s.banks.get l).heldWord a)) false)
      | none => some w
  | _, _ => none

/-- A channel is in ARMED, FILLING or HOLDOFF use by a group (R28 first condition). -/
def State.owned (s : State) (i : Fin 16) : Bool := s.groups.any fun g => g.live && bit g.channels i.val

/-- SOURCE of a unit (R59). -/
def TUnit.source (u : TUnit) : Nat := fld u.cfg 32 8
/-- CONDITION (R59). -/
def TUnit.condition (u : TUnit) : Nat := fld u.cfg 28 4
/-- ENABLE (R59). -/
def TUnit.on (u : TUnit) : Bool := flag u.cfg 0
/-- ORIGINATE (R59). -/
def TUnit.originate (u : TUnit) : Bool := flag u.cfg 22

/-- Units that a combiner refers to (R83): both masks, and DELAY_UNIT and HOLDOFF_UNIT with EVENTS. -/
def combUnits (c : BitVec 128) : Nat :=
  fld c 24 8 ||| fld c 16 8 ||| (if fld c 50 2 = 2 then 2 ^ fld c 47 3 else 0) ||| (if flag c 87 then 2 ^ fld c 84 3 else 0)

/-- A unit is referenced by a group in ARMED, FILLING or HOLDOFF (R61). -/
def State.referenced (s : State) (u : Nat) : Bool := s.groups.any fun g => g.live && bit (combUnits g.comb) u

/-- The inputs a unit watches: its channel source, or the inputs of its pattern (R57, R70). -/
def TUnit.watches (u : TUnit) (i : Fin 16) : Bool :=
  (u.source < 16 && u.source = i.val) || (u.source = 0x50 && flag u.cfg (240 + i.val))

/-- An input is the source of a unit that a group in use references (R28 second condition). -/
def State.watched (s : State) (i : Fin 16) : Bool := eight.any fun u => s.referenced u.val && (s.units.get u).watches i

/-- A quad is named by a foreground run in progress (R28 third condition). -/
def State.runNames (s : State) (q : Fin 4) : Bool := match s.cal.run with
  | some r => bit r.mask q.val
  | none => false

/-- A channel is in use (R28). -/
def State.inUse (s : State) (i : Fin 16) : Bool := s.owned i || s.watched i || s.runNames (quadOf i)

/-- Some channel of a quad is in use under a routing (R35, R39). -/
def State.quadInUse (s : State) (q : Fin 4) (fusion : Nat) : Bool := (ofQuad q).any fun i => (feeds fusion i ≠ [] && s.inUse i)

/-- A channel is faulted when a bank feeding it is (R50). -/
def State.chFaulted (s : State) (i : Fin 16) : Bool := (s.feeding i).any fun b => (s.banks.get b).link.faulted

/-- BANK_STATUS (R53). -/
def State.bankStatus (s : State) (b : Fin 16) : Nat :=
  let k := s.banks.get b
  let q := s.quads.get (quadOf b)
  bAt k.link.faulted 31 + bAt k.link.up 30 + bAt k.degraded 29 + bAt k.spare.isNone 28 + at' q.fusion 24 + at' q.state.code 21 +
    at' (bankPhase q.fusion b) 16 + at' (k.spare.getD 63) 8 + k.retired.getD 63

/-- The links of a quad carry nothing and hold nothing: off, powering, or retiming (R35, R39). -/
def State.idleLinks (s : State) (q : Fin 4) : State :=
  s.each (ofQuad q) fun s b => s.onBank b fun k =>
    { k with link := { k.link with up := false, faulted := k.link.abandoned, awaiting := none, resend := none, fifo := [], replay := [], checking := none, ovrHold := 0 } }

/-- The links of a quad are trained and deliver from the next block boundary (R35, R39); a bank left faulted until power-down stays so (R51). -/
def State.trainLinks (s : State) (q : Fin 4) : State :=
  let n := s.nextBlock s.now
  s.each (ofQuad q) fun s b => s.onBank b fun k =>
    { k with link := { k.link with
        up := !k.link.abandoned, faulted := k.link.abandoned, expect := n, txNext := n, start := s.blockFirst n, awaiting := none, resend := none, fifo := [], replay := [] } }

end Sys2Proof.Machine
end

