-- ==== Sys2Proof/Machine/DecimOps.lean ====
section
/-!
DEFINITION. Decimation (04, R129 to R138): the stored samples of a span of channel samples, exactly, with the RESAMPLE taps in fixed point.
-/
namespace Sys2Proof.Machine

/-- DECIM_MODE (R129). -/
def decMode (d : BitVec 128) : Nat := fld d 0 4
/-- DUAL_STORE (R129). -/
def decDual (d : BitVec 128) : Bool := flag d 4
/-- FACTOR (R129). -/
def decFactor (d : BitVec 128) : Nat := fld d 64 17
/-- RATIO (R129). -/
def decRatio (d : BitVec 128) : Nat := fld d 96 32
/-- SAMPLE, PEAK and HIRES work on intervals (R131). -/
def decIntervals (d : BitVec 128) : Bool := decMode d = 1 || decMode d = 2 || decMode d = 3
/-- N: channel samples of an interval; 1 outside the interval modes. -/
def decN (d : BitVec 128) : Nat := if decIntervals d then decFactor d else 1
/-- Q of R137: round(2^48 / RATIO); the step of one channel sample outside RESAMPLE. -/
def decQ (d : BitVec 128) : Nat := if decMode d = 4 then (roundDiv (2 ^ 48) (decRatio d)).toNat else 2 ^ 24
/-- Bytes of one stored sample (R134). -/
def decSize (d : BitVec 128) : Nat := if decMode d = 2 then 4 else 2
/-- DECIM_FACTOR of a header (R129). -/
def decHeaderFactor (d : BitVec 128) : Nat := if decMode d = 4 then decRatio d else decN d

/-- A span of one channel's stream: its samples by index, the trigger sample, the first sample and the sample after the last. -/
structure Span where
  word : Nat → Nat
  trig : Nat
  first : Nat
  stop : Nat

/-- The index j of the first stored sample (R132, R126): the trigger sample is j = 0. -/
def jLow (d : BitVec 128) (trig first : Nat) : Int :=
  if first ≤ trig then
    if decMode d = 4 then -(((trig - first) * 2 ^ 24 / decQ d : Nat) : Int) else -(((trig - first) / decN d : Nat) : Int)
  else if decMode d = 4 then (ceilDiv ((first - trig) * 2 ^ 24) (decQ d) : Nat)
  else (ceilDiv (first - trig) (decN d) : Nat)

/-- The index j after the last stored sample (R131, R132). -/
def jHigh (d : BitVec 128) (trig stop : Nat) : Int :=
  if decMode d = 4 then ((stop : Int) - trig - 1) * 2 ^ 24 / (decQ d : Int) + 1
  else -(((trig : Int) - stop) / (decN d : Int))

/-- Stored samples of a span (R132). -/
def storedCount (d : BitVec 128) (trig first stop : Nat) : Nat := (jHigh d trig stop - jLow d trig first).toNat
/-- PRE_STORED of a span (R132, R126). -/
def preStored (d : BitVec 128) (trig first : Nat) : Nat := (-(jLow d trig first)).toNat
/-- LEAD of a record that begins after its trigger sample (R126). -/
def leadOf (d : BitVec 128) (trig first : Nat) : Nat :=
  if first ≤ trig then 0 else if decIntervals d then alignUp (first - trig) (decN d) else first - trig

/-- The words of interval j, those of the span only (R131). -/
def Span.interval (p : Span) (n : Nat) (j : Int) : List Nat :=
  let lo := ((p.trig : Int) + j * n).toNat
  (List.range (min p.stop (lo + n) - lo)).map fun i => p.word (lo + i)

/-- The first word with the least CODE by a measure. -/
def leastBy (f : Nat → Int) : List Nat → Nat
  | [] => 0
  | [w] => w
  | w :: ws => let r := leastBy f ws; if f w ≤ f r then w else r

/-- A word with its OVR replaced. -/
def withOvr (w : Nat) (o : Bool) : Nat := w / 2 * 2 + (if o then 1 else 0)
/-- A HIRES or RESAMPLE word (R134, R135). -/
def hiresWord (h : Int) (o : Bool) : Nat := unsigned 15 h * 2 + (if o then 1 else 0)

/-- A sample of the span, the nearest one beyond its ends (R137). -/
def Span.clamped (p : Span) (i : Int) : Nat := p.word (clampInt p.first ((p.stop : Int) - 1) i).toNat

/-- π in units of 2^-160. -/
def piFix : Nat := 4591442807048218921384805199743311128454155024418

/-- The series of sin for an argument in units of 2^-160, as the sum of n further terms: term, its square of the argument, and the index. -/
def sinSeries : Nat → Int → Int → Nat → Int
  | 0, _, _, _ => 0
  | n + 1, term, x2, k => term + sinSeries n (-(term * x2 / (2 ^ 160)) / ((k + 1) * (k + 2) : Nat)) x2 (k + 2)

/-- sin(πx)/(πx) for x = num/den, in units of 2^-160; x is first reduced by whole periods. -/
def sincFix (num : Int) (den : Nat) : Int :=
  if num = 0 then 2 ^ 160 else
    let r := num % (2 * den : Nat)
    let y := if r > den then r - (2 * den : Nat) else r
    let a := y * piFix / (den : Int)
    let sine := sinSeries 60 a (a * a / 2 ^ 160) 1
    sine * 2 ^ 160 * den / (num * piFix)

/-- The series of the modified Bessel function I0 at z with (z/2)^2 = num/den, in units of 2^-160. -/
def besselSeries : Nat → Nat → Nat → Nat → Nat → Nat
  | 0, _, _, _, _ => 0
  | n + 1, term, num, den, k => term + besselSeries n (term * num / den / (k * k)) num den (k + 1)

/-- h(t) up to a factor common to a phase, for t = a/1024 (R137): the windowed sinc. -/
def tapShape (d : BitVec 128) (m : Nat) (a : Int) : Int :=
  sincFix (9 * (m * 2 ^ 24 : Nat) * a) (10240 * decQ d) *
    (besselSeries 60 (2 ^ 160) (16 * (8192 ^ 2 - a.natAbs ^ 2)) (8192 ^ 2) 1 : Int) / 2 ^ 160

/-- M of R137: the channel samples of a prefiltered sample. -/
def preM (d : BitVec 128) : Nat := 2 ^ (Nat.log2 (2 ^ 24 / decRatio d) - 1)

/-- The sixteen taps of a phase, n = -7 to 8 (R137): rounded after division by their sum, the centre tap taking the residue. -/
def resampleTaps (d : BitVec 128) (phi : Nat) : List Int :=
  let hs := (List.range 16).map fun (i : Nat) => tapShape d (preM d) (1024 * ((i : Int) - 7) - phi)
  let total := hs.foldl (· + ·) 0
  let ts := hs.map fun h => roundDiv (h * 2 ^ 20) total.toNat
  ts.set 7 (ts.getD 7 0 + (2 ^ 20 - ts.foldl (· + ·) 0))

/-- Prefiltered sample i, in units of 2^-8 LSB (R137). -/
def Span.pre (p : Span) (m : Nat) (i : Int) : Int :=
  roundDiv (256 * ((List.range m).map fun (k : Nat) => codeOf (p.clamped ((p.trig : Int) + i * m + k))).foldl (· + ·) 0) m

/-- Output j of RESAMPLE (R137). -/
def Span.resample (p : Span) (d : BitVec 128) (j : Int) : Nat :=
  if decRatio d = 2 ^ 24 then
    let w := p.clamped ((p.trig : Int) + j)
    hiresWord (8 * codeOf w) (ovrOf w)
  else
    let m := preM d
    let num : Int := 2 * j * decQ d - ((m - 1) * 2 ^ 24 : Nat)
    let den : Nat := 2 ^ 25 * m
    let phi := ((num % den).toNat * 2048 + den) / (2 * den)
    let k := num / den + (if phi = 1024 then 1 else 0)
    let taps := (resampleTaps d (phi % 1024)).zipIdx.map fun (c, i) => (c, k + i - 7)
    let h := roundDiv (taps.foldl (fun a (c, i) => a + c * p.pre m i) 0) (2 ^ 25)
    hiresWord (clampInt (-16384) 16383 h) (taps.any fun (c, i) =>
      c ≠ 0 && (List.range m).any fun n => ovrOf (p.clamped ((p.trig : Int) + i * m + n)))

/-- The words of stored sample j (R134): two for PEAK, one otherwise. -/
def Span.stored (p : Span) (d : BitVec 128) (j : Int) : List Nat :=
  match decMode d with
  | 0 => [p.word ((p.trig : Int) + j).toNat]
  | 4 => [p.resample d j]
  | mode =>
    let ws := p.interval (decN d) j
    let o := ws.any ovrOf
    match mode with
    | 1 => [withOvr (ws.headD 0) o]
    | 2 => [withOvr (leastBy codeOf ws) o, withOvr (leastBy (fun w => -codeOf w) ws) o]
    | _ => [hiresWord (roundDiv (8 * (ws.map codeOf).foldl (· + ·) 0) ws.length) o]

/-- The stored samples of a span in time order. -/
def Span.all (p : Span) (d : BitVec 128) : List (List Nat) :=
  (List.range (storedCount d p.trig p.first p.stop)).map fun (i : Nat) => p.stored d (jLow d p.trig p.first + i)

/-- The raw section of DUAL_STORE (R138): the filler 0x000E beyond the last delivered sample. -/
def Span.raw (p : Span) (d : BitVec 128) : List Nat :=
  let lo := ((p.trig : Int) + jLow d p.trig p.first * decN d).toNat
  (List.range (storedCount d p.trig p.first p.stop * decN d)).map fun i => if lo + i < p.stop then p.word (lo + i) else 0x000E

/-- A section of words, padded to a multiple of four bytes (R123). -/
def sectionBytes (ws : List Nat) : Bytes :=
  let b := (ws.map (leBytes 2)).flatten
  b ++ zeros (alignUp b.length 4 - b.length)

end Sys2Proof.Machine
end

