-- ==== Sys2Proof/Machine/CaptureOps.lean ====
section
/-!
DEFINITION. Capture groups and records (03): geometry of the region, headers, the trigger extension, record blocks, flags, cuts, retention of samples, and the entry to DONE.
-/
namespace Sys2Proof.Machine

/-- Fields of CAPTURE_CONFIG (R100). -/
def Group.base (g : Group) : Nat := fld g.cap 344 40
/-- REGION_BYTES (R100). -/
def Group.bytes (g : Group) : Nat := fld g.cap 304 40
/-- SEG_BYTES (R100). -/
def Group.segBytes (g : Group) : Nat := fld g.cap 264 40
/-- POST_COUNT (R100). -/
def Group.post (g : Group) : Nat := fld g.cap 192 48
/-- PRE_COUNT (R100). -/
def Group.pre (g : Group) : Nat := fld g.cap 160 32
/-- BACKDATE_RESERVE (R100). -/
def Group.reserve (g : Group) : Nat := fld g.cap 128 32
/-- SEG_COUNT (R100). -/
def Group.segs (g : Group) : Nat := fld g.cap 103 25
/-- GRAIN (R100). -/
def Group.grain (g : Group) : Nat := fld g.cap 44 4
/-- MODE is STREAMING (R100). -/
def Group.streaming (g : Group) : Bool := fld g.cap 42 2 = 1
/-- FULL_POLICY is WRAP (R100). -/
def Group.wraps (g : Group) : Bool := flag g.cap 41
/-- POST_COUNT is unbounded (R100). -/
def Group.unbounded (g : Group) : Bool := g.post = 2 ^ 48 - 1
/-- Owned inputs in ascending order. -/
def Group.inputs (g : Group) : List (Fin 16) := sixteen.filter fun i => bit g.channels i.val
/-- C, the number of owned channels. -/
def Group.width (g : Group) : Nat := g.inputs.length

/-- pre_ticks (R106). -/
def Group.preTicks (g : Group) (f : Nat) : Nat := ceilDiv g.pre f
/-- ring_ticks (R106). -/
def Group.ringTicks (g : Group) (f : Nat) : Nat := g.preTicks f + g.reserve + 4096
/-- ring_bytes (R106). -/
def Group.ringBytes (g : Group) (f : Nat) : Nat := alignUp (g.width * f * g.ringTicks f * 2) 0x10000
/-- table_bytes (R106). -/
def Group.tableBytes (g : Group) : Nat := if g.streaming then 0 else alignUp (g.segs * 64) 0x10000
/-- table_base (R106). -/
def Group.tableBase (g : Group) (f : Nat) : Nat := g.base + g.ringBytes f
/-- seg_base of a segment (R106). -/
def Group.segBase (g : Group) (f i : Nat) : Nat := g.base + g.ringBytes f + g.tableBytes + i * g.segBytes
/-- Blocks of the stream area (R106, R116). -/
def Group.streamBlocks (g : Group) (f : Nat) : Nat := (g.bytes - g.ringBytes f) / 2048
/-- Address of the stream block with a number since the arm (R116). -/
def Group.streamAddr (g : Group) (n : Nat) : Nat := g.base + g.ringBytes g.f + 2048 * (n % max 1 (g.streamBlocks g.f))
/-- Free blocks of the stream area, less those reserved (R116, R118). -/
def Group.streamFree (g : Group) : Nat := g.streamBlocks g.f - (g.streamWritten - g.streamDrained) - g.streamReserved

/-- The index of the first channel sample whose time is at or after a time of 2^-32 tick units (R81). -/
def sampleAfter (f time : Nat) : Nat := ceilDiv (time * f) (2 ^ 32)

/-- The sample after the last of a record; one that is unbounded has no end yet. -/
def Record.last (r : Record) (d : Nat) : Nat := r.stop.getD d

/-- A write through BAR2 has reached the region or area of the group that owns an input (R167). -/
def State.spoils (s : State) (i : Fin 16) : Bool := four.any fun g => bit s.mem.spoiled g.val && bit (s.groups.get g).channels i.val

/-- The span of one channel of a record, up to an index. Its words are free values once a write through BAR2 has disturbed the group (R167). -/
def State.span (s : State) (r : Record) (i : Fin 16) (stop : Nat) : Span :=
  { word := fun m => if s.spoils i then Config.spoiledWord s.freeCount i.val m % 65536 else (s.chWord i m).getD 0
    trig := r.trig, first := r.first, stop := stop }

/-- Owned channels of a record. -/
def Record.inputs (r : Record) : List (Fin 16) := sixteen.filter fun i => bit r.channels i.val

/-- Tick part and fraction of a time on the internal scale, in grove time (R10). -/
def State.groveOf (s : State) (time : Nat) : Nat × Nat := (s.groveAt (time / 2 ^ 32), time % 2 ^ 32)

/-- The trigger extension (R82). -/
def State.extension (s : State) (r : Record) : Bytes :=
  let of (n : Nat) : Option UEvent := if bit r.mask n then r.units.find? fun u => u.unit = n else none
  let fr := (List.range 8).map fun n => leBytes 4 (match of n with
    | some u => u.time % 2 ^ 32
    | none => 0)
  let fl := (List.range 8).map fun n => leBytes 1 (match of n with
    | some u =>
      let off := signed 64 (unsigned 64 ((s.groveAt (u.time / 2 ^ 32) : Int) - r.eventTick))
      bAt u.ovrInterp 0 + bAt u.linear 1 + bAt u.grove 2 + at' (unsigned 2 off) 3
    | none => 0)
  let g := r.units.find? fun u => u.grove && bit r.mask u.unit
  fr.flatten ++ fl.flatten ++ leBytes 8 r.eventTick ++ leBytes 4 r.delay ++ leBytes 4 ((g.map UEvent.gtn).getD 0) ++
    leBytes 2 ((g.map UEvent.origin).getD 0) ++ leBytes 6 (leadOf r.decim r.trig r.first)

/-- A record header (R120). -/
def recordHeader (g : Nat) (r : Record) (magic count pre flags : Nat) : Bytes :=
  withCrc (leBytes 2 magic ++ leBytes 1 (g + at' (Nat.log2 r.f) 2) ++ leBytes 1 (decMode r.decim + bAt (decDual r.decim) 4) ++
    leBytes 2 r.channels ++ leBytes 1 r.mask ++ leBytes 1 1 ++ leBytes 8 r.seq ++ leBytes 8 r.tick ++ leBytes 4 r.fraction ++
    leBytes 4 (decHeaderFactor r.decim) ++ leBytes 8 count ++ leBytes 4 pre ++ leBytes 2 flags ++ zeros 2 ++ leBytes 4 r.epoch ++
    leBytes 4 r.setId ++ leBytes 3 r.segment ++ zeros 1)

/-- Stored samples per channel of a record that ends before an index. -/
def Record.count (r : Record) (stop : Nat) : Nat := storedCount r.decim r.trig r.first stop

/-- The payload stream of a segmented record (R123): the extension, the raw sections under DUAL_STORE, and the stored sections. -/
def State.payload (s : State) (r : Record) (stop : Nat) : Bytes :=
  let spans := r.inputs.map fun i => s.span r i stop
  s.extension r ++ (if decDual r.decim then (spans.map fun p => sectionBytes (p.raw r.decim)).flatten else []) ++
    (spans.map fun p => sectionBytes (p.all r.decim).flatten).flatten

/-- Bytes of one section of stored samples, and of one raw section (R123, R138). -/
def sectionSize (d : BitVec 128) (count : Nat) : Nat := alignUp (count * decSize d) 4
/-- Bytes of a raw section of DUAL_STORE (R138). -/
def rawSize (d : BitVec 128) (count : Nat) : Nat := if decDual d then alignUp (2 * count * decN d) 4 else 0
/-- Blocks of a segmented record with c channels and a stored count (R125). -/
def recordBlocks (d : BitVec 128) (c count : Nat) : Nat := ceilDiv (64 + c * (sectionSize d count + rawSize d count)) 2044

/-- The index after the last channel sample that the first n stored samples of a record derive from (R131, R137). -/
def Record.upTo (r : Record) (stop n : Nat) : Nat :=
  let j := jLow r.decim r.trig r.first + n
  let i : Int := if decMode r.decim = 4 then r.trig + j * decQ r.decim / 2 ^ 24 + (10 * preM r.decim : Nat) else r.trig + j * decN r.decim
  if r.count stop ≤ n then stop else min stop i.toNat

/-- Where the sections of a payload lie (R123): first byte, bytes, and bytes per stored sample. -/
def Record.sections (r : Record) (stop : Nat) : List (Nat × Nat × Nat) :=
  let c := r.inputs.length
  let ss := sectionSize r.decim (r.count stop)
  let rs := rawSize r.decim (r.count stop)
  (if decDual r.decim then (List.range c).map fun k => (64 + k * rs, rs, 2 * decN r.decim) else []) ++
    (List.range c).map fun k => (64 + c * rs + k * ss, ss, decSize r.decim)

/-- The index after the last channel sample that a record block derives from: what must have reached capture before it is written (R110). -/
def Record.needs (r : Record) (stop block : Nat) : Nat :=
  (r.sections stop).foldl (fun a (first, size, per) =>
    if first < 2044 * (block + 1) ∧ 2044 * block < first + size then
      max a (r.upTo stop (ceilDiv (min (2044 * (block + 1)) (first + size) - first) per)) else a) 0

/-- The newest sample index that has reached capture by a tick, plus one: samples reach capture 1,280 ticks after they were taken (R49). -/
def atCapture (f tick : Nat) : Nat := f * (tick + 1 - 1280)

/-- How far the assembler has copied a record in time order, by the bytes it has written (R110, R111). -/
def Record.copied (r : Record) (stop streaming : Nat) : Nat :=
  let c := max 1 r.inputs.length
  let per := if streaming = 1 then ((r.places.length - 1) / c) * (2044 / decSize r.decim)
    else (2044 * r.written.length - 64) / (c * (decSize r.decim + (if decDual r.decim then 2 * decN r.decim else 0)))
  let step := if decMode r.decim = 4 then decQ r.decim / 2 ^ 24 else decN r.decim
  min stop (max r.first ((r.trig : Int) + (jLow r.decim r.trig r.first + per) * step).toNat)

/-- The last index a record has or will have, as far as it is known at a tick. -/
def Record.end' (r : Record) (tick : Nat) : Nat := r.last (atCapture r.f tick)

/-- The record of a group that is assembled now: the oldest incomplete one. -/
def Group.current (g : Group) : Option Record := g.records.head?

/-- The head record changes. -/
def Group.onCurrent (g : Group) (f : Record → Record) : Group := { g with records := match g.records with
  | [] => []
  | r :: rs => f r :: rs }

/-- The record in progress: the newest, while its last sample has not reached capture. -/
def Group.inProgress (g : Group) (tick : Nat) : Option Record := match g.records.getLast? with
  | some r => if r.last (atCapture r.f tick + 1) ≤ atCapture r.f tick then none else some r
  | none => none

/-- The newest record changes. -/
def Group.onNewest (g : Group) (f : Record → Record) : Group := { g with records := match g.records.reverse with
  | [] => []
  | r :: rs => (f r :: rs).reverse }

/-- A record ends before an index with a flag, and its blocks are laid out anew (R50, R105, R111); nothing changes where it ends before that index already. -/
def Record.cut (r : Record) (stop flagMask after : Nat) : Record :=
  match r.stop with
  | some e => if e ≤ stop then r else { r with stop := some (max r.first stop), flags := r.flags ||| flagMask, written := [], after := after }
  | none => { r with stop := some (max r.first stop), flags := r.flags ||| flagMask, written := [], after := after }

/-- A group ends with a cause: it accepts no further trigger (R103); the first cause stands, unless this one ends a record in progress (R105, R122; log 68). -/
def Group.windDown (g : Group) (c : DoneCause) (replaces : Bool := false) : Group :=
  { g with ending := some (if replaces then c else g.ending.getD c), stage := .idle, delayLeft := 0, delayed := none }

/-- Samples that must stay for a group: its ring behind the newest sample, and records in assembly (R93, R108, R111). -/
def Group.keepsFrom (g : Group) (tick : Nat) : Nat :=
  let ring := (tick - 1280) - g.ringTicks (max 1 g.f)
  (g.records.map fun r => (r.first - 256 * preM r.decim) / max 1 r.f).foldl min ring

/-- Samples older than every use are dropped from a bank (R108). -/
def State.trim (s : State) (b : Fin 16) : State :=
  let keep := (s.groups.toList.filter fun g => g.live && g.inputs.any fun i => (s.feeding i).contains b).foldl
    (fun a g => min a (g.keepsFrom s.now)) (min (s.now - 4096) (s.evaluated - 4))
  s.onBank b fun k => { k with hist := k.hist.filter fun x => keep ≤ x.first + 128 }

/-- ACC_MODE (R140). -/
def Acc.mode (a : Acc) : Nat := fld a.cfg 0 2
/-- SNAP_SLOTS (R140). -/
def Acc.slots (a : Acc) : Nat := fld a.cfg 68 4
/-- ON_COUNT is RESTART (R140). -/
def Acc.restarts (a : Acc) : Bool := fld a.cfg 66 2 = 1
/-- COUNT (R140). -/
def Acc.count (a : Acc) : Nat := fld a.cfg 96 32
/-- EXCLUDE (R140). -/
def Acc.exclude (a : Acc) : Nat := fld a.cfg 80 16
/-- TBINS (R140). -/
def Acc.tbins (a : Acc) : Nat := fld a.cfg 163 13
/-- ABINS_LOG2 (R140). -/
def Acc.abinsLog2 (a : Acc) : Nat := fld a.cfg 159 4
/-- AREA_BASE (R140). -/
def Acc.areaBase (a : Acc) : Nat := fld a.cfg 216 40
/-- AREA_BYTES (R140). -/
def Acc.areaBytes (a : Acc) : Nat := fld a.cfg 176 40
/-- PLACE (R140). -/
def Acc.place (a : Acc) : Nat := fld a.cfg 64 2

/-- FLAGS of a record at its end (R122): those fixed so far, and what touched its samples or instants. -/
def State.finalFlags (s : State) (r : Record) (stop : Nat) : Nat :=
  let a := r.first / r.f
  let b := (stop - 1) / r.f
  let touches (q : Quad) : Bool :=
    (match q.held with
      | some (x, none) => x ≤ b
      | some (x, some e) => x ≤ b && a < e
      | none => false) || q.heldPast.any fun (x, e) => x ≤ b && a < e
  let stale := r.first < stop && r.inputs.any fun i => touches (s.quads.get (quadOf i))
  let ovr := r.inputs.any fun i =>
    let p := s.span r i stop
    (p.all r.decim).any (·.any ovrOf) || (decDual r.decim && (p.raw r.decim).any fun w => w ≠ 0x000E && ovrOf w)
  r.flags ||| bAt stale 0 ||| bAt (s.suspect a b) 1 ||| bAt ovr 8

/-- CAL_SET_ID and UNTRACED of a quad for a sample tick (R244). -/
def Quad.setAt (q : Quad) (tick : Nat) : Nat × Bool := match q.oldSet with
  | some (x, id, u) => if tick < x then (id, u) else (q.setId, q.untraced)
  | none => (q.setId, q.untraced)

/-- The EVT_SEQ that must be written before a record's completion (promise 4, R244): its own, its quads' changeover where a sample lies at or after it, their isolation where it is STALE, and every event so far where the clock was suspect. -/
def State.recordAfter (s : State) (r : Record) (stop flags : Nat) : Nat :=
  let qs := r.inputs.map fun i => s.quads.get (quadOf i)
  let own := qs.foldl (fun a q => max (max a (if q.lastChangeover ≤ (stop - 1) / r.f then q.entered else 0)) (if bit flags 0 then q.isolated else 0)) r.after
  if bit flags 1 then s.events.seq else own

/-- CAP_STATUS (R127). -/
def Group.capStatus (g : Group) : Nat :=
  at' g.state.code 29 + at' g.cause.code 26 + bAt g.overflow 25 + bAt g.wrapped 24 + (if g.streaming then 0 else g.nextSegment % 2 ^ 24)

/-- TRIG_STATUS (R98): STAGE reads 0 once no trigger is accepted any more (R103). -/
def Group.trigStatus (g : Group) (groveFirer : Bool) : Nat :=
  let armed := g.state = .armed && g.ending.isNone
  at' (if armed then g.stage.code else 0) 30 + bAt (g.state = .filling) 29 + bAt (g.state = .holdoff) 28 + bAt (64 ≤ g.logged) 27 +
    bAt groveFirer 26 + at' g.lastMask 16 + at' g.logged 8

/-- Fields of a TRIGOUT structure (R369). -/
def outSource (c : BitVec 64) : Nat := fld c 0 2
/-- INDEX (R369). -/
def outIndex (c : BitVec 64) : Nat := fld c 8 3
/-- EXTRA_DELAY (R369). -/
def outDelay (c : BitVec 64) : Nat := fld c 44 20
/-- The driven width (R97). -/
def outWidth (c : BitVec 64) : Nat := max 20 (fld c 28 16)

/-- Pulses of the outputs that follow a source are scheduled from a tick on (R97). -/
def State.pulse (s : State) (source index fromTick : Nat) : State :=
  s.each four fun s o =>
    let c := (s.trigouts.get o).cfg
    if outSource c = source ∧ outIndex c = index then s.onOut o fun t => { t with starts := t.starts ++ [fromTick + outDelay c] } else s

/-- A group changes state, and outputs that follow its ARMED level are scheduled to follow (R97): the state at capture of tick x shows at x + 1,440 + EXTRA_DELAY, which is 160 + EXTRA_DELAY ticks after the change. -/
def State.setGroupState (s : State) (g : Fin 4) (st : GState) : State :=
  let was : Bool := (s.groups.get g).state = .armed
  let is : Bool := st = .armed
  let s1 := s.onGroup g fun x => { x with
    state := st, armedLog := if was = is then x.armedLog else (s.now, is) :: x.armedLog.takeWhile fun (t, _) => s.now < t + 1048736 }
  if was = is then s1 else s1.each four fun s o =>
    let c := (s.trigouts.get o).cfg
    if outSource c = 3 ∧ outIndex c = g.val then s.onOut o fun t => { t with levels := t.levels ++ [(s.now + 160 + outDelay c, is)] } else s

end Sys2Proof.Machine
end

