-- ==== Sys2Proof/Machine/UnitOps.lean ====
section
/-!
DEFINITION. Trigger units and channel comparators (02): crossings, interpolation, conditions, and the evaluation of samples tick by tick.
-/
namespace Sys2Proof.Machine

/-- Newton's method of R72 on 6·p(u) - 6·L = a3 u³ + a2 u² + a1 u + a0 from u = n/d: k further iterations; it stops where the derivative is zero. -/
def newton (a3 a2 a1 a0 : Int) : Nat → Int → Int → Int × Int
  | 0, n, d => (n, d)
  | k + 1, n, d =>
    let f := a3 * n ^ 3 + a2 * n ^ 2 * d + a1 * n * d ^ 2 + a0 * d ^ 3
    let g := 3 * a3 * n ^ 2 + 2 * a2 * n * d + a1 * d ^ 2
    if g = 0 then (n, d) else if 0 < g then newton a3 a2 a1 a0 k (n * g - f) (d * g) else newton a3 a2 a1 a0 k (f - n * g) (-(d * g))

/-- U of R72 from u = n/d with d > 0: rounded, and clamped to 1 to 2^32. -/
def uOf (n d : Int) : Nat := (clampInt 1 (2 ^ 32) (roundDiv (n * 2 ^ 32) d.toNat)).toNat

/-- U of a linear interpolation between two values that lie on different sides of a level (R72). -/
def linearU (s0 s1 level : Int) : Nat :=
  if s0 < s1 then uOf (level - s0) (s1 - s0) else uOf (s0 - level) (s0 - s1)

/-- U of a cubic interpolation through four values (R72). -/
def cubicU (sm s0 s1 s2 level : Int) : Nat :=
  let start := if s0 < s1 then (level - s0, s1 - s0) else (s0 - level, s0 - s1)
  let r := newton (-sm + 3 * s0 - 3 * s1 + s2) (3 * (sm - 2 * s0 + s1)) (-2 * sm - 3 * s0 + 6 * s1 - s2) (6 * (s0 - level)) 3 start.1 start.2
  uOf r.1 r.2

/-- A crossing of a level: its time in 2^-32 tick and the flags of R74. -/
structure Cross where
  time : Nat
  ovr : Bool
  linear : Bool
deriving DecidableEq, Repr

/-- The crossing completed by a sample word w with index m of a stream of F samples per tick (R72 to R74): prev are the words before it, newest first, that were evaluated since the restart, and next the word after it where there is one. -/
def crossing (cubic : Bool) (f m : Nat) (level : Int) (prev : List Nat) (w : Nat) (next : Option Nat) : Cross :=
  let w0 := prev.headD 0
  let ovr := ovrOf w0 || ovrOf w
  let m0 := m - 1
  let lin := linearU (valueOf w0) (valueOf w) level
  let r := match cubic && !ovr, prev[1]?, next with
    | true, some wm, some w2 => if ovrOf wm || ovrOf w2 then (lin, true) else (cubicU (valueOf wm) (valueOf w0) (valueOf w) (valueOf w2) level, false)
    | _, _, _ => (lin, true)
  { time := m0 / f * 2 ^ 32 + (m0 % f * 2 ^ 32 + r.1 + f / 2) / f, ovr := ovr, linear := r.2 }

/-- Fields of a unit's structure (R59). -/
def tuLevelA (c : BitVec 256) : Int := sfld c 96 16
/-- LEVEL_B (R59). -/
def tuLevelB (c : BitVec 256) : Int := sfld c 112 16
/-- HYST (R59). -/
def tuHyst (c : BitVec 256) : Int := fld c 84 12
/-- POLARITY (R59). -/
def tuPolarity (c : BitVec 256) : Nat := fld c 26 2
/-- INTERP is cubic (R59). -/
def tuCubic (c : BitVec 256) : Bool := flag c 23

/-- QUALIFY on a width in 2^-32 tick (R66). -/
def qualifies (c : BitVec 256) (w : Nat) : Bool :=
  let long := 2 ^ 72 < w
  let u := (w + 2 ^ 23) / 2 ^ 24
  let lo := fld c 128 48
  let hi := fld c 176 48
  match fld c 24 2 with
  | 0 => !long && u < hi
  | 1 => long || lo < u
  | 2 => !long && lo ≤ u && u ≤ hi
  | _ => long || u < lo || hi < u

/-- A width is qualified from an opening time. -/
def widthOk (c : BitVec 256) (opened : Option Nat) (time : Nat) : Bool := match opened with
  | some a => qualifies c (time - a)
  | none => false

/-- EDGE, PULSE_WIDTH and INTERVAL on a crossing in a direction (R64, R65): what is remembered, and whether it is an event. -/
def edgeCondition (c : BitVec 256) (k : Cond) (rising : Bool) (time : Nat) : Cond × Bool :=
  let p := tuPolarity c
  let mine := p = 2 || (rising == (p = 0))
  match fld c 28 4 with
  | 0 => (k, mine)
  | 2 =>
    if rising then ({ k with riseA := some time, fallA := none }, p ≠ 0 && widthOk c k.fallA time)
    else ({ k with fallA := some time, riseA := none }, p ≠ 1 && widthOk c k.riseA time)
  | 5 => if mine then ({ k with last := some time }, widthOk c k.last time) else (k, false)
  | _ => (k, false)

/-- One sample word through a unit's condition (R62 to R67). -/
def Cond.step (c : BitVec 256) (f m w : Nat) (next : Option Nat) (k : Cond) : Cond × List Cross :=
  let v := valueOf w
  let la := tuLevelA c
  let lb := tuLevelB c
  let h := tuHyst c
  let p := tuPolarity c
  let x (level : Int) := crossing (tuCubic c) f m level k.prev w next
  let riseA := k.lowA && la ≤ v
  let fallA := k.topA && v < la
  let riseB := k.lowB && lb ≤ v
  let fallB := k.topB && v < lb
  let k1 := { k with
    lowA := !riseA && (k.lowA || v < la - h), topA := !fallA && (k.topA || la + h ≤ v)
    lowB := !riseB && (k.lowB || v < lb - h), topB := !fallB && (k.topB || lb + h ≤ v)
    prev := (w :: k.prev).take 3 }
  match fld c 28 4 with
  | 1 =>
    let isIn := lb ≤ v && v ≤ la
    match k.inside with
    | none => ({ k1 with inside := some isIn }, [])
    | some true =>
      if la + h < v then ({ k1 with inside := some false }, if p ≠ 0 then [x (la + h)] else [])
      else if v < lb - h then ({ k1 with inside := some false }, if p ≠ 0 then [x (lb - h)] else [])
      else (k1, [])
    | some false =>
      if isIn then ({ k1 with inside := some true }, if p ≠ 1 then [x (if la < valueOf (k.prev.headD 0) then la else lb)] else []) else (k1, [])
  | 3 =>
    let tB := (x lb).time
    let tA := (x la).time
    let pos := fallB && p ≠ 1 && widthOk c k.riseB tB
    let neg := riseA && p ≠ 0 && widthOk c k.fallA tA
    ({ k1 with
        riseB := if la ≤ v || fallB then none else if riseB then some tB else k.riseB
        fallA := if v < lb || riseA then none else if fallA then some tA else k.fallA },
      (if pos then [x lb] else []) ++ (if neg then [x la] else []))
  | 4 =>
    let rB := if v < lb then none else if riseB then some (x lb).time else k.riseB
    let fA := if la ≤ v then none else if fallA then some (x la).time else k.fallA
    let up := riseA && p ≠ 1 && widthOk c rB (x la).time
    let down := fallB && p ≠ 0 && widthOk c fA (x lb).time
    ({ k1 with riseB := if riseA then none else rB, fallA := if fallB then none else fA },
      (if up then [x la] else []) ++ (if down then [x lb] else []))
  | _ =>
    if riseA || fallA then
      let r := edgeCondition c k1 riseA (x la).time
      (r.1, if r.2 then [x la] else [])
    else (k1, [])

/-- A unit's event enters those that wait for the combiners: at most one per tick, the earliest, and further ones are counted (R71). -/
def TUnit.enqueue (u : TUnit) (e : UEvent) : TUnit :=
  match u.queued.find? fun q => q.sampleTick = e.sampleTick with
  | none => { u with queued := u.queued ++ [e] }
  | some q =>
    { u with extra := u.extra + 1, queued := if e.time < q.time then u.queued.map fun x => if x.sampleTick = e.sampleTick then e else x else u.queued }

/-- The event a crossing makes for a unit. -/
def crossEvent (unit tick : Nat) (x : Cross) : UEvent :=
  { unit := unit, time := x.time, ovrInterp := x.ovr, linear := x.linear, grove := false, sampleTick := tick, gtn := 0, origin := 0 }

/-- The words of a channel at a tick, one per phase, where all were delivered. -/
def State.tickWords (s : State) (i : Fin 16) (tick : Nat) : Option (List Nat) :=
  let f := rateOf (s.fusion i)
  if s.feeding i = [] then none else (List.range f).mapM fun p => s.chWord i (f * tick + p)

/-- A sample is evaluated in sequence by a unit of its channel: delivered, and not within a held interval or 64 ticks after it (R72, R238). -/
def State.evaluable (s : State) (i : Fin 16) (m : Nat) : Option Nat :=
  if (s.quads.get (quadOf i)).quietAt (m / rateOf (s.fusion i)) then none else s.chWord i m

/-- A channel unit evaluates a tick (R61, R62, R71, R537): after a gap it restarts. -/
def State.channelTick (s : State) (u : Fin 8) (i : Fin 16) (tick : Nat) : State :=
  let t := s.units.get u
  let f := rateOf (s.fusion i)
  let restart : State := s.onUnit u fun t => { t with cond := {}, last := none }
  match s.tickWords i tick with
  | none => restart
  | some ws =>
    if (s.quads.get (quadOf i)).quietAt tick || s.chFaulted i then restart
    else
      let k0 := if t.last.any (fun y => y + 1 = tick) then t.cond else {}
      let r := ws.zipIdx.foldl (fun (acc : Cond × List Cross) (w, p) =>
        let o := acc.1.step t.cfg f (f * tick + p) w (s.evaluable i (f * tick + p + 1))
        (o.1, acc.2 ++ o.2)) (k0, [])
      s.onUnit u fun t => r.2.foldl (fun t x => t.enqueue (crossEvent u.val tick x)) { t with cond := r.1, last := some tick }

/-- A change of a channel comparator: the quarter tick, its new state, and what its crossing is interpolated from (R68, R69). -/
structure CmpChange where
  input : Nat
  quarter : Nat
  high : Bool
  f : Nat
  m : Nat
  level : Int
  prev : List Nat
  word : Nat
  next : Option Nat

/-- LEVEL of a comparator (R368). -/
def cmpLevel (c : BitVec 32) : Int := sfld c 16 16
/-- HYST of a comparator (R368). -/
def cmpHyst (c : BitVec 32) : Int := fld c 4 12

/-- One sample through a channel comparator (R68). -/
def Input.cmpStep (p : Input) (w : Nat) : Input × Option Bool :=
  let v := valueOf w
  let l := cmpLevel p.cmp
  let h := cmpHyst p.cmp
  let rise := p.cmpLow && l ≤ v
  let fall := p.cmpTop && v < l
  ({ p with
      cmpLow := !rise && (p.cmpLow || v < l - h), cmpTop := !fall && (p.cmpTop || l + h ≤ v)
      cmpHigh := if rise then true else if fall then false else p.cmpHigh, cmpPrev := (w :: p.cmpPrev).take 2 },
    if rise then some true else if fall then some false else none)

/-- A comparator restarts in state LOW (R61, R537). -/
def Input.cmpRestart (p : Input) : Input := { p with cmpHigh := false, cmpLow := false, cmpTop := false, cmpPrev := [], cmpTick := none }

/-- A comparator evaluates a tick; its changes are added to those of the tick. -/
def State.comparatorTick (s : State) (i : Fin 16) (tick : Nat) : State × List CmpChange :=
  let f := rateOf (s.fusion i)
  match s.tickWords i tick with
  | none => (s.onInput i Input.cmpRestart, [])
  | some ws =>
    let p := s.inputs.get i
    let p0 := if p.cmpTick.any (fun y => y + 1 = tick) then p else p.cmpRestart
    let r := ws.zipIdx.foldl (fun (acc : Input × List CmpChange) (w, n) =>
      let o := acc.1.cmpStep w
      let m := f * tick + n
      (o.1, match o.2 with
        | none => acc.2
        | some high => acc.2 ++ [{
            input := i.val, quarter := n * 4 / f, high := high, f := f, m := m, level := cmpLevel p.cmp,
            prev := acc.1.cmpPrev, word := w, next := s.evaluable i (m + 1) }])) (p0, [])
    (s.onInput i fun _ => { r.1 with cmpTick := some tick }, r.2)

/-- The product of a pattern over comparator states (R69). -/
def product (c : BitVec 256) (high : Nat → Bool) : Bool := (List.range 16).all fun k => !flag c (240 + k) || high k == flag c (224 + k)

/-- The event of a pattern at a quarter tick whose product changed (R69): ENTER takes the latest of the crossings, LEAVE the earliest that broke the product. -/
def patternCross (c : BitVec 256) (changes : List CmpChange) (enter : Bool) : List Cross :=
  let xs := (changes.filter fun k => flag c (240 + k.input) && ((k.high == flag c (224 + k.input)) == enter)).map fun k =>
    crossing (tuCubic c) k.f k.m k.level k.prev k.word k.next
  match xs with
  | [] => []
  | x :: rest => [rest.foldl (fun a b => if enter then (if a.time < b.time then b else a) else (if b.time < a.time then b else a)) x]

/-- A pattern unit evaluates the four quarters of a tick (R69, R537): before are the comparator states before the tick. -/
def State.patternTick (s : State) (u : Fin 8) (before : List Bool) (changes : List CmpChange) (tick : Nat) : State :=
  let t := s.units.get u
  let gap := sixteen.any fun i => flag t.cfg (240 + i.val) &&
    (s.tickWords i tick = none || (s.quads.get (quadOf i)).quietAt tick || s.chFaulted i)
  if gap then s.onUnit u fun t => { t with cond := {}, last := none }
  else
    let k0 := if t.last.any (fun y => y + 1 = tick) then t.cond.product else none
    let p := tuPolarity t.cfg
    let r := [0, 1, 2, 3].foldl (fun (acc : List Bool × Option Bool × List Cross) q =>
      let cs := changes.filter fun k => k.quarter = q
      let high := cs.foldl (fun h k => h.set k.input k.high) acc.1
      let now := product t.cfg fun k => high.getD k false
      let es := if acc.2.1 = some (!now) ∧ (p = 2 ∨ (now = (p = 0))) then patternCross t.cfg cs now else []
      (high, some now, acc.2.2 ++ es)) (before, k0, [])
    s.onUnit u fun t => r.2.2.foldl (fun t x => t.enqueue (crossEvent u.val tick x)) { t with cond := { t.cond with product := r.2.1 }, last := some tick }

/-- A tagged cause is an event of a unit (R57, R58): every TRIGIN edge passes the unit's condition, every other cause is an event. -/
def State.taggedUnit (s : State) (g : Tagged) (u : Fin 8) : State :=
  let t := s.units.get u
  let ev (t : TUnit) : TUnit := t.enqueue
    { unit := u.val, time := g.time, ovrInterp := false, linear := false, grove := false, sampleTick := g.time / 2 ^ 32, gtn := 0, origin := 0 }
  if !t.on || t.source ≠ g.source then s
  else if g.source < 0x14 then
    let r := edgeCondition t.cfg t.cond g.rising g.time
    s.onUnit u fun t => if r.2 then ev { t with cond := r.1 } else { t with cond := r.1 }
  else if g.source = 0x40 ∧ g.unit ≠ u.val then s
  else s.onUnit u ev

/-- A cause is time-tagged (R58); one whose tick the units have already passed reaches them at once. -/
def State.tag (s : State) (g : Tagged) : State :=
  if g.time / 2 ^ 32 ≤ s.evaluated then s.each eight fun s u => s.taggedUnit g u else s.onTagged fun l => l ++ [g]

/-- All units and comparators evaluate the samples and tagged causes of a tick (R56). -/
def State.evalTick (s : State) (tick : Nat) : State :=
  let before := s.inputs.toList.map Input.cmpHigh
  let c := sixteen.foldl (fun (acc : State × List CmpChange) i => let r := acc.1.comparatorTick i tick; (r.1, acc.2 ++ r.2)) (s, [])
  let s1 := c.1.each eight fun s u =>
    let t := s.units.get u
    if !t.on then s
    else if t.source < 16 then s.channelTick u (Fin.ofNat 16 t.source) tick
    else if t.source = 0x50 then s.patternTick u before c.2 tick
    else s
  let mine := s1.tagged.filter fun g => g.time / 2 ^ 32 = tick
  let s2 := s1.each mine fun s g => s.each eight fun s u => s.taggedUnit g u
  (s2.onTagged fun l => l.filter fun g => g.time / 2 ^ 32 ≠ tick).noteEvaluated tick

/-- The ticks in (evaluated, upTo] that hold delivered samples or tagged causes, rising. -/
def State.dueTicks (s : State) (upTo : Nat) : List Nat :=
  let firsts := (s.banks.toList.flatMap fun b => b.hist.map Block.first).foldl (fun l x => insertNat x l) []
  let ts := firsts.flatMap fun a => (List.range 128).map (a + ·)
  (s.tagged.foldl (fun l g => insertNat (g.time / 2 ^ 32) l) ts).filter fun y => s.evaluated < y && y ≤ upTo

/-- Every sample up to a tick has been evaluated by the units (R55). -/
def State.evalTo (s : State) (upTo : Nat) : State :=
  let s1 := s.each (s.dueTicks upTo) State.evalTick
  s1.noteEvaluated upTo

/-- A unit's configuration or one of its comparators changes (R61): what has reached it is evaluated as before, and its condition restarts. -/
def State.reconfigure (s : State) (f : State → State) : State := f (s.evalTo (s.now - 1280))

end Sys2Proof.Machine
end

