-- ==== Sys2Proof/Machine/AccOps.lean ====
section
/-!
DEFINITION. Accumulation (04, R140 to R162): positions, accumulators in the store and spilled, committing a record, and snapshots.
-/
namespace Sys2Proof.Machine

/-- ABINS (R140). -/
def Acc.abins (a : Acc) : Nat := 2 ^ a.abinsLog2

/-- P, the positions per channel (R142). -/
def positions (g : Group) : Nat := storedCount g.dec g.pre 0 (g.pre + g.post)

/-- Accumulators per channel (R148). -/
def perChannel (g : Group) (a : Acc) : Nat := if a.mode = 3 then ceilDiv (a.tbins * a.abins) 2 else positions g
/-- A, the accumulators of a group (R148). -/
def accCount (g : Group) (a : Acc) : Nat := g.width * perChannel g a
/-- Bytes of one channel section of a snapshot (R158). -/
def snapSection (g : Group) (a : Acc) : Nat := if a.mode = 3 then alignUp (2 * (a.tbins * a.abins)) 4 else 4 * positions g
/-- snap_bytes (R158). -/
def snapBytes (g : Group) (a : Acc) : Nat := 2048 * ceilDiv (64 + g.width * snapSection g a) 2044
/-- Bytes of the spilled accumulators in the area (R152). -/
def spillBytes (g : Group) (a : Acc) (spilled : Bool) : Nat := if spilled then alignUp (4 * accCount g a) 0x10000 else 0
/-- Bytes of the layout of an area (R152). -/
def areaLayout (g : Group) (a : Acc) (spilled : Bool) : Nat := spillBytes g a spilled + a.slots * alignUp (snapBytes g a) 0x10000
/-- Address of a snapshot slot (R152). -/
def slotBase (g : Group) (a : Acc) (i : Nat) : Nat := a.areaBase + spillBytes g a (a.placed = .spilled) + i * alignUp (snapBytes g a) 0x10000

/-- The initial value of an accumulator (R146, R153). -/
def Acc.initial (a : Acc) : Nat := if a.mode = 2 then 0x80007FFE else 0

/-- An accumulator's value now (R151): a spilled block not yet read in the cycle has its initial values. -/
def State.accValue (s : State) (g : Fin 4) (i : Nat) : Nat :=
  let a := s.accs.get g
  match a.placed with
  | .none => a.initial
  | .store => ((a.values.find? fun x => x.1 = i).map Prod.snd).getD a.initial
  | .spilled => if a.tagged.contains (i / 512) then ofLe (s.mem.get (a.areaBase + 4 * i) 4) else a.initial

/-- The least of the word values by the masked comparison of R146: the kept word with the OVR bits ORed. -/
def keepWord (less : Bool) (old w : Nat) : Nat :=
  let better := if less then valueOf w < valueOf old else valueOf old < valueOf w
  withOvr (if better then w else old) (ovrOf w || ovrOf old)

/-- One accumulator of AVERAGE or ENVELOPE with the words of one record added (R145, R146). -/
def Acc.addWords (a : Acc) (hires : Bool) (old : Nat) (ws : List Nat) : Nat :=
  if a.mode = 1 then unsigned 32 (signed 32 old + (if hires then signed 15 (ws.headD 0 / 2) else codeOf (ws.headD 0)))
  else keepWord true (old % 65536) (ws.headD 0) + 65536 * keepWord false (old / 65536) (ws.getD 1 (ws.headD 0))

/-- The counts that the words of one position increment (R147): each count once. -/
def Acc.bins (a : Acc) (p i : Nat) (ws : List Nat) : List Nat :=
  (ws.map fun w => i * a.tbins / p * a.abins + ((valueOf w + 32768).toNat >>> (16 - a.abinsLog2))).eraseDups

/-- A count after n increments, and the increments lost to saturation (R147). -/
def saturate (old n : Nat) : Nat × Nat := (min 65535 (old + n), old + n - 65535)

/-- The accumulators after one record, and the increments lost (R144 to R147). -/
def State.added (s : State) (g : Fin 4) (r : Record) (stop : Nat) : List Nat × Nat :=
  let a := s.accs.get g
  let gr := s.groups.get g
  let per := perChannel gr a
  let chans := r.inputs.map fun i => (s.span r i stop).all r.decim
  let p := positions gr
  if a.mode = 3 then
    let hits := chans.map fun c => c.zipIdx.flatMap fun (ws, i) => a.bins p i ws
    let both := (List.range (accCount gr a)).map fun i =>
      let h := hits.getD (i / per) []
      let old := s.accValue g i
      let lo := saturate (old % 65536) (h.count (2 * (i % per)))
      let hi := saturate (old / 65536) (h.count (2 * (i % per) + 1))
      (lo.1 + 65536 * hi.1, lo.2 + hi.2)
    (both.map Prod.fst, (both.map Prod.snd).foldl (· + ·) 0)
  else ((List.range (accCount gr a)).map fun i =>
    a.addWords (decMode r.decim = 3 || decMode r.decim = 4) (s.accValue g i) ((chans.getD (i / per) []).getD (i % per) []), 0)

/-- The accumulators take new values (R144, R151): in the store those that differ from the initial value are kept; spilled ones are written through ACP and their blocks tagged. A poisoned block stays poisoned for its cycle (R194). -/
def State.putAcc (s : State) (g : Fin 4) (vals : List Nat) : State :=
  let a := s.accs.get g
  match a.placed with
  | .none => s
  | .store => s.onAcc g fun a => { a with values := vals.zipIdx.filterMap fun (v, i) => if v = a.initial then none else some (i, v) }
  | .spilled => (s.onMem fun m => { m.put a.areaBase (vals.map (leBytes 4)).flatten with poison := m.poison }).onAcc g
      fun a => { a with tagged := List.range (ceilDiv vals.length 512) }

/-- A record is kept out of the accumulation by its flags (R143). -/
def Acc.excludes (a : Acc) (flags : Nat) : Bool := (flags &&& (a.exclude ||| 0x00DC)) ≠ 0

/-- The channel sections of a snapshot (R158). -/
def State.snapSections (s : State) (g : Fin 4) : Bytes :=
  let a := s.accs.get g
  let gr := s.groups.get g
  let per := perChannel gr a
  ((List.range gr.width).map fun c =>
    let b := ((List.range per).map fun i => leBytes 4 (s.accValue g (c * per + i))).flatten
    b.take (snapSection gr a) ++ zeros (snapSection gr a - b.length)).flatten

/-- LAST_SEQ of a snapshot taken now (R158); a free value where no record is covered, since the spec gives none (log 20). -/
def State.snapSeq (s : State) (g : Fin 4) : Nat :=
  let c := (s.accs.get g).cycle
  if c.records = 0 then Config.freeNat s.freeCount % two64 else c.lastSeq

/-- The snapshot header (R158) with a magic; FIRST_SEQ, LAST_SEQ, SNAP_TICK and CAL_SET_ID are free values where no record is covered (log 20). -/
def State.snapHeader (s : State) (g : Fin 4) (slot magic : Nat) (boundary partial' : Bool) : Bytes :=
  let a := s.accs.get g
  let gr := s.groups.get g
  let c := a.cycle
  let of (k v : Nat) : Nat := if c.records = 0 then Config.freeNat (s.freeCount + k) else v
  withCrc (leBytes 2 magic ++ leBytes 1 (g.val + at' (Nat.log2 gr.f) 2) ++
    leBytes 1 (a.mode + bAt (a.placed = .spilled) 2 + bAt boundary 3 + bAt partial' 4) ++ leBytes 2 gr.channels ++
    leBytes 1 (decMode gr.dec + bAt (decDual gr.dec) 4) ++ leBytes 1 1 ++ leBytes 8 (of 1 c.firstSeq) ++ leBytes 8 (s.snapSeq g) ++
    leBytes 4 c.records ++ leBytes 4 c.excluded ++ leBytes 4 (positions gr) ++ leBytes 2 (if a.mode = 3 then a.tbins else 0) ++
    leBytes 2 (if a.mode = 3 then a.abins else 0) ++ leBytes 4 c.number ++ leBytes 2 c.flagsOr ++
    leBytes 1 (bAt (1 < c.setIds.eraseDups.length) 0 + bAt c.saturated 1) ++ leBytes 1 slot ++ leBytes 8 (of 2 c.snapTick) ++
    leBytes 4 (of 3 (c.setIds.headD 0)))

/-- The lowest free slot (R156). -/
def Acc.freeSlot (a : Acc) : Option Nat := lowest a.slots fun i => !a.occupied.contains i

/-- A snapshot is taken into a slot (R154): what it covers is fixed, and the slot's header shows a copy in progress. -/
def State.takeSnap (s : State) (g : Fin 4) (slot : Nat) (boundary partial' : Bool) : State :=
  let a := s.accs.get g
  let sn : Snap := { slot := slot, header := s.snapHeader g slot 0x5141 boundary partial', sections := s.snapSections g,
                     lastSeq := a.cycle.lastSeq, poisoned := a.poisoned, begun := s.now }
  ((s.drawn 4).onMem fun m => m.put (slotBase (s.groups.get g) a slot) (s.snapHeader g slot 0x5140 boundary partial')).onAcc g fun a =>
    { a with snaps := a.snaps ++ [sn], occupied := a.occupied ++ [slot], lastBegun := some s.now, cycle := { a.cycle with uncovered := 0 } }

/-- The blocks of a snapshot as they lie in its slot (R158): blocks that hold part of a poisoned accumulator block have an inverted CRC (R194). -/
def snapBlocks (w : Snap) : List Bytes :=
  let p := w.header ++ w.sections
  (List.range (ceilDiv p.length 2044)).map fun j =>
    let b := (p.drop (2044 * j)).take 2044
    let full := b ++ zeros (2044 - b.length)
    let bad := w.poisoned.any fun k => 64 + 2048 * k < 2044 * (j + 1) && 2044 * j < 64 + 2048 * (k + 1)
    full ++ leBytes 4 (if bad then 0xFFFFFFFF - crc32c full else crc32c full)

/-- Memory holds blocks of 2 KiB from an address. -/
def Memory.putBlocks (m : Memory) (a : Nat) : List Bytes → Memory
  | [] => m
  | b :: bs => Memory.putBlocks (m.put a b) (a + 2048) bs

/-- A cycle starts from initial values (R153). -/
def Acc.newCycle (a : Acc) (n : Nat) : Acc := { a with values := [], tagged := [], poisoned := [], cycle := Cycle.start n }

/-- ACC_STATUS (R161). -/
def Acc.status (a : Acc) : Nat :=
  at' a.placed.code 30 + bAt (!a.snaps.isEmpty) 29 + at' (if a.mode = 0 then 0 else a.slots - a.occupied.length) 24 + a.block

/-- The allocation of a group is released (R150). -/
def Acc.release (a : Acc) : Acc := { a with placed := .none, block := 0x7FFF, blocks := 0, values := [] }

/-- A group enters DONE (R103, R127): the cause is shown, a final snapshot is taken where admitted records are not yet covered (R157), and its store blocks are released (R150). -/
def State.enterDone (s : State) (g : Fin 4) : State :=
  let gr := s.groups.get g
  let a := s.accs.get g
  let s1 := (s.setGroupState g .done).onGroup g fun x =>
    { x with cause := gr.ending.getD .none, ending := none, stage := .idle, closed := 0, reopen := none, closeAtFill := 0 }
  if a.mode = 0 ∨ a.placed = .none then s1
  else if a.cycle.uncovered = 0 then (if a.snaps.isEmpty then s1.onAcc g Acc.release else s1)
  else match a.freeSlot with
    | some k => s1.takeSnap g k false true
    | none => (s1.raise { code := 0x0580, obj := g.val, vals := [a.cycle.number] }).onAcc g fun a => if a.snaps.isEmpty then a.release else a

/-- A group whose end is decided enters DONE once every record it accepted is complete (R103). -/
def State.tryDone (s : State) (g : Fin 4) : State :=
  let gr := s.groups.get g
  if gr.ending.isSome && gr.live && gr.records.isEmpty then s.enterDone g else s

/-- A group is in use no more: it takes a cause, its record in progress is cut at a time of 2^-32 tick units with a flag, and it enters DONE when it can (R50, R111, R178, R272). -/
def State.endGroup (s : State) (g : Fin 4) (c : DoneCause) (cutTime flagMask : Nat) : State :=
  (s.onGroup g fun x =>
    if x.live then
      let rs := x.records.map fun r => r.cut (sampleAfter r.f cutTime) flagMask s.events.seq
      { (x.windDown c (rs.map Record.stop != x.records.map Record.stop)) with records := rs }
    else x).tryDone g

end Sys2Proof.Machine
end

