-- ==== Sys2Proof/Machine/TriggerOps.lean ====
section
/-!
DEFINITION. The combiners (02): coincidence, stages, delays, hold-off, missed triggers, acceptance of local and grove triggers, and what events drive.
-/
namespace Sys2Proof.Machine

/-- Fields of a combiner (R76). -/
def combFire (c : BitVec 128) : Nat := fld c 24 8
/-- ARM_MASK (R76). -/
def combArm (c : BitVec 128) : Nat := fld c 16 8
/-- FIRE_MODE (R76). -/
def combFireMode (c : BitVec 128) : Nat := fld c 14 2
/-- ARM_MODE (R76). -/
def combArmMode (c : BitVec 128) : Nat := fld c 12 2
/-- DELAY_MODE (R76). -/
def combDelayMode (c : BitVec 128) : Nat := fld c 50 2
/-- DELAY_VALUE (R76). -/
def combDelay (c : BitVec 128) : Nat := fld c 52 32
/-- DELAY_UNIT (R76). -/
def combDelayUnit (c : BitVec 128) : Nat := fld c 47 3
/-- HOLDOFF_MODE is EVENTS (R76). -/
def combHoldEvents (c : BitVec 128) : Bool := flag c 87
/-- HOLDOFF_VALUE (R76). -/
def combHold (c : BitVec 128) : Nat := fld c 88 40
/-- HOLDOFF_UNIT (R76). -/
def combHoldUnit (c : BitVec 128) : Nat := fld c 84 3

/-- The units of a mask that deliver an event. -/
def hits (mask : Nat) (es : List UEvent) : Nat := maskOf 8 fun n => bit mask n && es.any fun e => e.unit = n

/-- An expression of a combiner in a tick (R77): 1 ANY, 2 ALL. -/
def expression (mode mask : Nat) (es : List UEvent) : Bool := if mode = 1 then hits mask es ≠ 0 else if mode = 2 then hits mask es = mask else false

/-- The event of the lowest-numbered unit of a mask (R80). -/
def lowestEvent (mask : Nat) (es : List UEvent) : Option UEvent := (List.range 8).findSome? fun n => if bit mask n then es.find? fun e => e.unit = n else none

/-- A segment is under readout (R207): a fetch of it is in progress, or a record of it waits for delivery. -/
def Ring.locks (r : Ring) (seg : Nat) : Bool :=
  r.desc.any (fun d => d.use = .fetchRecord && d.target = seg) || r.items.any fun i => i.kind = .record && i.locked && i.index = seg

/-- An item joins those that a group's readout delivers or posts, in the order of promise 1 (R212). -/
def State.addItem (s : State) (g : Fin 4) (i : Item) : State := s.onRing g fun r => { r with items := r.items ++ [i] }

/-- The item of a missed trigger's log entry (R87, R210). -/
def missedItem (m : Missed) (after : Nat) : Item :=
  { kind := .missed, seq := 0, time := m.time, index := 0, blocks := 0, body := m.body ++ zeros 64, tableAt := 0, dataAt := 0, opening := 0, closing := 0,
    afterEvent := after, waitsSlew := false, locked := false, ready := none }

/-- Log entries whose place has come join the items: no incomplete record has an earlier trigger time (R87). -/
def State.placeMissed (s : State) (g : Fin 4) : State :=
  let gr := s.groups.get g
  let ok (m : Missed) : Bool := gr.records.all fun r => m.time < r.time
  let s1 := s.onGroup g fun x => { x with missedLog := x.missedLog.filter fun m => !ok m }
  s1.each (gr.missedLog.filter ok) fun s m => s.addItem g (missedItem m 0)

/-- A trigger is missed (R86, R87): counted, and logged while fewer than 64 are. -/
def State.missed (s : State) (g : Fin 4) (es : List UEvent) : State :=
  let gr := s.groups.get g
  let n := gr.cnt.missed + 1
  let s1 := s.onGroup g fun x => { x with cnt := { x.cnt with missed := n } }
  if 64 ≤ gr.logged then s1
  else
    let mask := hits (combFire gr.comb) es
    match lowestEvent mask es with
    | none => s1
    | some e =>
      let gt := s.groveOf e.time
      let body := leBytes 1 0x4D ++ leBytes 1 g.val ++ leBytes 1 (bAt (gr.logged = 63) 0) ++ leBytes 1 gr.logged ++ leBytes 1 mask ++ zeros 3 ++
        leBytes 8 gt.1 ++ leBytes 4 gt.2 ++ leBytes 4 n ++ leBytes 8 (gr.nextSeq - 1)
      (s1.onGroup g fun x => { x with logged := x.logged + 1, missedLog := x.missedLog ++ [{ time := e.time, body := body }] }).placeMissed g

/-- A firer tick before the re-arm sample (R85, R86): missed within the post-trigger part, otherwise a hold-off skip; a trigger before S0 is not taken at all (R104). -/
def State.refused (s : State) (g : Fin 4) (es : List UEvent) (m : Nat) : State :=
  let gr := s.groups.get g
  if gr.cnt.accepted = 0 then s
  else if gr.postEnd.all fun e => m < e then s.missed g es
  else if gr.ending.isSome then s
  else s.onGroup g fun x => { x with cnt := { x.cnt with holdoffSkips := x.cnt.holdoffSkips + 1 } }

/-- A group stops with a stream overflow (R118): V0 is the SEQ ended, or all ones. -/
def State.streamOverflow (s : State) (g : Fin 4) (seq : Nat) : State :=
  (s.onGroup g fun x => { (x.windDown .overflow true) with overflow := true, cnt := { x.cnt with streamOverflows := x.cnt.streamOverflows + 1 } }).raise
    { code := 0x0481, obj := g.val, vals := [seq] }

/-- A 2 KiB record block: 2,044 bytes, zeros to their end, and the CRC, inverted where a tainted word went in (R124, R194). -/
def blockOf (b : Bytes) (tainted : Bool) : Bytes :=
  let full := b.take 2044 ++ zeros (2044 - b.length)
  full ++ leBytes 4 (if tainted then 0xFFFFFFFF - crc32c full else crc32c full)

/-- The next stream block of a group is written, for the record in assembly (R116). -/
def State.putStream (s : State) (g : Fin 4) (b : Bytes) : State :=
  let gr := s.groups.get g
  (s.onMem fun m => m.put (gr.streamAddr gr.streamWritten) b).onGroup g fun x =>
    { (x.onCurrent fun r => { r with places := r.places ++ [x.streamWritten] }) with streamWritten := x.streamWritten + 1 }

/-- The record in assembly begins its stream blocks with its opening block, from the blocks reserved (R116, R118). -/
def State.openStream (s : State) (g : Fin 4) : State :=
  let gr := s.groups.get g
  match gr.current with
  | none => s
  | some r =>
    if gr.streaming && r.places.isEmpty then
      (s.putStream g (blockOf (recordHeader g.val r 0x5050 0 0 0 ++ s.extension r) false)).onGroup g
        fun x => { x with streamReserved := x.streamReserved - 1 }
    else s

/-- What an accepted trigger is: its events, its COINCIDENT_MASK, its time and that before any delay, the delay applied, the tick at which it is taken, and whether the grove carried it (R80, R91). -/
structure Trigger where
  events : List UEvent
  mask : Nat
  time : Nat
  before : Nat
  delay : Nat
  taken : Nat
  grove : Bool

/-- Hold-off and re-arm of an accepted trigger (R84, R85): hold-off expires at the first sample at or after its end. -/
def Group.restart (x : Group) (t : Trigger) : Group :=
  let m := sampleAfter x.f t.time
  let stop := if x.unbounded then none else some (m + x.post)
  let v := combHold x.comb
  let byEvents := combHoldEvents x.comb && v ≠ 0
  let expiry := if combHoldEvents x.comb then m else sampleAfter x.f (t.time + v * 2 ^ 32)
  { x with
    postEnd := stop
    hold := if byEvents then .events v t.time else .none
    rearm := if byEvents then none else stop.map (max · expiry)
    stage := if combArmMode x.comb = 0 then .firer else .armer
    firerFrom := 0 }

/-- The state a group shows right after an acceptance or a fill: FILLING until the last post-trigger sample is at capture, HOLDOFF until the re-arm sample, then ARMED (R86, R103). -/
def Group.stateAt (x : Group) (tick : Nat) : GState :=
  let cap := atCapture x.f tick
  match x.postEnd, x.rearm with
  | some e, some r => if cap < e then .filling else if cap < r then .holdoff else .armed
  | some e, none => if cap < e then .filling else .holdoff
  | none, _ => .filling

/-- The oldest sample index a group's ring retains (R93). -/
def Group.oldest (x : Group) (tick : Nat) : Nat := x.f * (tick - 1280 - (x.preTicks x.f + x.reserve - 1))

/-- FLAGS fixed at acceptance (R109, R94, R115, R122): bits 4, 5, 7, 9 and 10. -/
def Group.startFlags (x : Group) (m taken : Nat) (orphan untraced : Bool) : Nat :=
  let s0 := x.f * x.s0
  let old := x.oldest taken
  bAt (max (m - x.pre) s0 < old) 4 + bAt orphan 5 + bAt (m < s0 + x.pre) 7 + bAt untraced 9 + bAt (m < old) 10

/-- A record begins (R109, R113, R121): it takes the next sequence number and segment, and its header or opening block is written. -/
def State.beginRecord (s : State) (g : Fin 4) (t : Trigger) : State :=
  let x := s.groups.get g
  let m := sampleAfter x.f t.time
  let q := s.quads.get (quadOf (x.inputs.headD 0))
  let set := q.setAt (m / x.f)
  let gt := s.groveOf t.time
  let r : Record := {
    seq := x.nextSeq, segment := if x.streaming then 0 else x.nextSegment, tick := gt.1, fraction := gt.2
    eventTick := (s.groveOf t.before).1, delay := t.delay, mask := t.mask, units := t.events, time := t.time
    channels := x.channels, f := x.f, decim := x.dec, trig := m, first := max (max (m - x.pre) (x.f * x.s0)) (x.oldest t.taken)
    stop := if x.unbounded then none else some (m + x.post), flags := x.startFlags m t.taken s.grove.role.orphan set.2
    epoch := s.grove.epoch, setId := set.1, acceptedAt := t.taken, grove := t.grove, written := [], places := [], after := 0 }
  let wraps := x.wraps && !s.grove.role.orphan
  let full := !x.streaming && x.nextSegment + 1 = x.segs
  let s1 := s.onGroup g fun x => { x with
    records := x.records ++ [r], nextSeq := x.nextSeq + 1
    nextSegment := if x.streaming then 0 else if full && wraps then 0 else x.nextSegment + 1
    wrapped := x.wrapped || (full && wraps)
    streamReserved := if x.streaming then x.streamReserved + 2 else x.streamReserved
    cnt := { x.cnt with
      recordsMade := x.cnt.recordsMade + 1, wraps := x.cnt.wraps + (if full && wraps then 1 else 0)
      backdateShorts := x.cnt.backdateShorts + (if bit r.flags 4 then 1 else 0) } }
  let s2 := if full && !wraps then s1.onGroup g fun x => x.windDown .full else s1
  if x.streaming then (if x.records.isEmpty then s2.openStream g else s2)
  else s2.onMem fun mm => mm.put (x.tableBase x.f + 64 * x.nextSegment) (recordHeader g.val r 0x5050 0 0 0)

/-- A trigger is accepted (R78, R85, R94, R113, R114, R118): unless its segment is under readout. -/
def State.accept (s : State) (g : Fin 4) (t : Trigger) : State :=
  let x := s.groups.get g
  let m := sampleAfter x.f t.time
  if !x.streaming && (s.rings.get g).locks x.nextSegment then
    s.onGroup g fun x => { x with
      stage := if combArmMode x.comb = 0 then .firer else .armer, cnt := { x.cnt with lockSkips := x.cnt.lockSkips + 1 } }
  else
    let gt := s.groveOf t.time
    let s1 := (s.onGroup g fun x => { x.restart t with
      lastMask := t.mask, lastTick := gt.1, lastFraction := gt.2, lastTime := t.time
      cnt := { x.cnt with accepted := x.cnt.accepted + 1 } }).pulse 2 g.val (if t.grove then t.taken + 64 else m / x.f + 1440)
    if x.streaming && x.streamFree < 2 then (s1.streamOverflow g (2 ^ 64 - 1)).tryDone g
    else if !x.unbounded && m + x.post ≤ x.oldest t.taken then
      let s2 := (s1.onGroup g fun x => { x with cnt := { x.cnt with groveLate := x.cnt.groveLate + 1 } }).raise
        { code := 0x0380, obj := g.val, vals := [((t.events.head?).map UEvent.gtn).getD 0, gt.1] }
      s2.setGroupState g ((s2.groups.get g).stateAt s.now)
    else
      let s2 := s1.beginRecord g t
      s2.setGroupState g ((s2.groups.get g).stateAt s.now)

/-- Hold-off by EVENTS counts a unit's events (R84): it expires at the first sample after the last of them. -/
def Group.countHold (x : Group) (es : List UEvent) : Group :=
  match x.hold with
  | .none => x
  | .events left after =>
    match es.find? fun e => e.unit = combHoldUnit x.comb && after < e.time with
    | none => x
    | some e =>
      if 1 < left then { x with hold := .events (left - 1) after }
      else { x with hold := .none, rearm := x.postEnd.map (max · (e.time * x.f / 2 ^ 32 + 1)) }

/-- A fired combiner takes its trigger, or refuses it before the re-arm sample (R80, R85). -/
def State.take (s : State) (g : Fin 4) (t : Trigger) (es : List UEvent) (rearm : Nat) : State :=
  let m := sampleAfter (s.groups.get g).f t.time
  if m < rearm then s.refused g es m else s.accept g t

/-- A combiner with a delay pending in one tick (R79, R80): a delay by TICKS ends at its tick, one by EVENTS with the last event it waits for; the trigger is then taken, and where it is not accepted the firer stage stays open (R85). -/
def State.delayTick (s : State) (g : Fin 4) (c : Nat) (es : List UEvent) (rearm : Nat) : State :=
  let x := s.groups.get g
  let k := x.comb
  let s1 := s.onGroup g fun x => { x with stage := .firer, delayed := none }
  match x.delayed with
  | some d =>
    if c < d.due then s
    else
      let n := combDelay k
      s1.take g { events := d.events, mask := d.mask, time := d.before + n * 2 ^ 32, before := d.before, delay := n, taken := c, grove := false } d.events rearm
  | none =>
    match es.find? fun e => e.unit = combDelayUnit k && x.delayFrom < e.time with
    | none => s
    | some _ =>
      if 1 < x.delayLeft then s.onGroup g fun x => { x with delayLeft := x.delayLeft - 1 }
      else
        let mask := hits (combFire k) es ||| 2 ^ combDelayUnit k
        match lowestEvent mask es with
        | none => s
        | some e => s1.take g { events := es, mask := mask, time := e.time, before := e.time, delay := combDelay k, taken := c, grove := false } es rearm

/-- A combiner in the armed stages in one tick (R78, R79, R80). An event of the firing tick itself counts for a delay by EVENTS where its time is later. -/
def State.stageTick (s : State) (g : Fin 4) (c : Nat) (es : List UEvent) (rearm : Nat) : State :=
  let x := s.groups.get g
  let k := x.comb
  match x.stage with
  | .idle => s
  | .armer => if expression (combArmMode k) (combArm k) es then s.onGroup g fun x => { x with stage := .firer, firerFrom := c + 1 } else s
  | .firer =>
    if c < x.firerFrom || !expression (combFireMode k) (combFire k) es then s
    else
      let mask := hits (combFire k) es
      match lowestEvent mask es with
      | none => s
      | some e =>
        if combDelayMode k = 2 then (s.onGroup g fun x => { x with stage := .delay, delayFrom := e.time, delayLeft := combDelay k }).delayTick g c es rearm
        else if combDelayMode k = 1 ∧ combDelay k ≠ 0 then
          s.onGroup g fun x => { x with stage := .delay, delayed := some { events := es, mask := mask, before := e.time, due := c + combDelay k } }
        else s.take g { events := es, mask := mask, time := e.time, before := e.time, delay := 0, taken := c, grove := false } es rearm
  | .delay => s.delayTick g c es rearm

/-- A group's combiner in one tick, with the local events delivered in it (R77 to R87, R228). -/
def State.groupTick (s : State) (g : Fin 4) (c : Nat) (es : List UEvent) : State :=
  let x0 := s.groups.get g
  if !x0.live then s
  else
    let s1 := s.onGroup g fun x => x.countHold es
    let x := s1.groups.get g
    let fires := expression (combFireMode x.comb) (combFire x.comb) es
    if x.closed ≠ 0 && x.closedAt ≤ c && x.reopen.all (fun r => c - 1376 < r / x.f) then
      (if fires then s1.onGroup g fun x => { x with cnt := { x.cnt with calSkips := x.cnt.calSkips + 1 } } else s1)
    else
      let early : State := if !fires then s1 else match lowestEvent (hits (combFire x.comb) es) es with
        | none => s1
        | some e => s1.refused g es (sampleAfter x.f e.time)
      match x.rearm with
      | none => early
      | some r => if c - 1376 < r / x.f then early else if x.ending.isSome then s1 else s1.stageTick g c es r

/-- An event of a unit with source GROVE reaches a group (R91, R228): acceptance is judged in trigger time; taken is the tick at which it reaches the combiners. -/
def State.groveGroup (s : State) (g : Fin 4) (e : UEvent) (taken : Nat) : State :=
  let s1 := s.onGroup g fun x => x.countHold [e]
  let x := s1.groups.get g
  if !x.live || combFire x.comb ≠ 2 ^ e.unit then s1
  else
    let m := sampleAfter x.f e.time
    if x.closed ≠ 0 || x.closedPast.any (fun (a, b) => a * x.f ≤ m && m < b) then
      s1.onGroup g fun x => { x with cnt := { x.cnt with calSkips := x.cnt.calSkips + 1 } }
    else if m < x.f * x.s0 then s1.onGroup g fun x => { x with cnt := { x.cnt with groveEarly := x.cnt.groveEarly + 1 } }
    else
      let t : Trigger := { events := [e], mask := 2 ^ e.unit, time := e.time, before := e.time, delay := 0, taken := taken, grove := true }
      match x.rearm with
      | none => s1.refused g [e] m
      | some r => if m < r then s1.refused g [e] m else if x.ending.isSome then s1 else s1.accept g t

/-- A trigger request of this device's own unit is released upward, or to the broadcast queue of a manager (R88, R437, R451); in an orphan or a sapling it is dropped. -/
def State.originate (s : State) (e : UEvent) : State :=
  let gt := s.groveOf e.time
  let r : TrigReq := { origin := s.grove.devaddr, tick := gt.1, fraction := gt.2, arrived := s.now + 80 }
  s.onGrove fun g =>
    if g.role.orphan then { g with orphanRequestDrops := g.orphanRequestDrops + 1 }
    else match g.role with
      | .manager => if 16 ≤ g.requests.length then { g with queueDrops := g.queueDrops + 1 } else { g with requests := g.requests ++ [r] }
      | .worker => if 8 ≤ g.forwards.length then { g with requestDrops := g.requestDrops + 1 } else { g with forwards := g.forwards ++ [r] }
      | _ => g

/-- An event of a unit is delivered: it is counted, originates a grove trigger, drives the outputs that follow the unit from a tick on, and may ask a playing channel to jump (R80, R88, R97, R303). -/
def State.deliver (s : State) (e : UEvent) (pulseFrom : Nat) : State :=
  let s1 := s.onUnit (Fin.ofNat 8 e.unit) fun u => { u with events := u.events + 1 }
  let s2 := if (s.units.get (Fin.ofNat 8 e.unit)).originate then s1.originate e else s1
  (s2.pulse 1 e.unit pulseFrom).each two fun s c =>
    if (s.stim.chs.get c).state = .playing then s.onCh c fun k => { k with requests := k.requests ++ [(e.unit, s.groveAt (e.time / 2 ^ 32) + 4096)] } else s

/-- The combiners' work of one tick (R55, R77): every event whose sample was taken 1,376 ticks before is delivered. -/
def State.combine (s : State) (c : Nat) : State :=
  let es := s.units.toList.flatMap fun u => u.queued.filter fun e => e.sampleTick + 1376 = c
  let s1 := s.allUnits fun u => { u with queued := u.queued.filter fun e => e.sampleTick + 1376 ≠ c }
  let s2 := s1.each es fun s e => s.deliver e (e.sampleTick + 1440)
  s2.each four fun s g => s.groupTick g c es

/-- The combiner ticks up to one in which there is something to decide, rising: those of the events that wait, those at which a delay by TICKS that is pending ends, and those at which one begun by these events would (R55, R79). -/
def State.combineTicks (s : State) (c : Nat) : List Nat :=
  let events := s.units.toList.flatMap fun u => u.queued.map fun e => e.sampleTick + 1376
  let delays := s.groups.toList.flatMap fun x =>
    (x.delayed.map Delayed.due).toList ++ (if combDelayMode x.comb = 1 then events.map (· + combDelay x.comb) else [])
  (events ++ delays).foldl (fun l t => if t ≤ c then insertNat t l else l) []

/-- The units and combiners have decided every tick up to one (R55, R58): all combiners of all groups, in order of ticks. -/
def State.decideTo (s : State) (c : Nat) : State :=
  let s1 := s.evalTo (c - 1376)
  let s2 := s1.each (s1.combineTicks c) State.combine
  s2.noteDecided c

end Sys2Proof.Machine
end

