-- ==== Sys2Proof/Machine/CheckOps.lean ====
section
/-!
DEFINITION. The arm-time consistency check (13): its checks in order, the bandwidth budget, and placement in the accumulator store.
-/
namespace Sys2Proof.Machine

/-- A refusal with the DETAIL of R392. -/
def refusedAt (reason kind index aux : Nat) : Reply := Reply.refused reason (at' kind 24 + at' index 12 + aux)

/-- A group counts for others' checks (R390): in use, or armed with its reply waiting. -/
def Group.counted (g : Group) : Bool := g.live || g.armWait.isSome

/-- Two byte ranges share a byte. -/
def overlaps (a n b m : Nat) : Bool := 0 < n && 0 < m && a < b + m && b < a + n

/-- The regions and areas of a group, base and bytes (R169, R390). -/
def State.holds (s : State) (g : Fin 4) : List (Nat × Nat) :=
  let x := s.groups.get g
  let a := s.accs.get g
  (x.base, x.bytes) :: (if a.mode = 0 then [] else [(a.areaBase, a.areaBytes)])

/-- STIM_BASE, STIM_BYTES and STIM_GRAIN (R287). -/
def seqBase (c : BitVec 128) : Nat := fld c 88 40
/-- STIM_BYTES (R287). -/
def seqBytes (c : BitVec 128) : Nat := fld c 48 40
/-- STIM_GRAIN (R287). -/
def seqGrain (c : BitVec 128) : Nat := fld c 44 4
/-- PERIOD of a channel (R287). -/
def seqPeriod (c : BitVec 128) (ch : Nat) : Nat := fld c (16 + 14 * ch) 14
/-- CH_EN of a channel (R287). -/
def seqOn (c : BitVec 128) (ch : Nat) : Bool := flag c ch

/-- A range touches a stripe of another range that has a different grain (R169). -/
def grainClash (mine : List (Nat × Nat)) (grain : Nat) (other : List (Nat × Nat)) (og : Nat) : Bool :=
  grain ≠ og && mine.any fun (a, n) => (stripesOf a n).any fun k => other.any fun (b, m) => (stripesOf b m).contains k

/-- The checks of one channel (steps 5 and 10 of R391). -/
def State.channelCheck (s : State) (i : Fin 16) (aux : Nat) : Option Reply :=
  let q := s.quads.get (quadOf i)
  if s.feeding i = [] then some (refusedAt 0x0201 2 i.val aux)
  else if q.state ≠ .ready then some (refusedAt 0x0203 3 (quadOf i).val aux)
  else match (s.feeding i).find? fun b => (s.banks.get b).link.faulted with
    | some b => some (refusedAt 0x0204 0x0D b.val aux)
    | none => if filterOk q.fusion (filterCode (s.inputs.get i).cfg) then none else some (refusedAt 0x0202 2 i.val aux)

/-- Combiner fields are invalid (R83). -/
def combInvalid (c : BitVec 128) : Bool :=
  combFire c = 0 || (combArm c = 0 && (combArmMode c = 1 || combArmMode c = 2)) || !(combFireMode c = 1 || combFireMode c = 2) ||
  combArmMode c = 3 || combDelayMode c = 3 || (combDelayMode c = 2 && combDelay c = 0) || (combHoldEvents c && 2 ^ 32 < combHold c)

/-- A unit's source is GROVE. -/
def State.isGrove (s : State) (u : Nat) : Bool := (vnat s.units u).source = 0x20

/-- The GROVE unit that a combiner misplaces (R90). -/
def State.groveMisplaced (s : State) (c : BitVec 128) : Option Nat :=
  let named := combFire c ||| combArm c ||| (if combDelayMode c = 2 then 2 ^ combDelayUnit c else 0)
  lowest 8 fun u => bit named u && s.isGrove u &&
    !(combFireMode c = 1 && combFire c = 2 ^ u && combArmMode c = 0 && combDelayMode c = 0)

/-- A fraction: numerator and denominator. -/
structure Frac where
  num : Nat
  den : Nat

/-- The sum of fractions. -/
def Frac.sum : List Frac → Frac
  | [] => ⟨0, 1⟩
  | a :: rest => let b := Frac.sum rest; ⟨a.num * b.den + b.num * a.den, a.den * b.den⟩

/-- r of R112 with F samples per tick, in channel samples per second. -/
def Group.rate (g : Group) (f : Nat) : Nat := g.width * f * 20000000000
/-- gap of R112. -/
def Group.gap (g : Group) (f : Nat) : Nat := max g.post (f * (if combHoldEvents g.comb then 0 else combHold g.comb))
/-- d of R112. -/
def Group.duty (g : Group) (f : Nat) : Frac :=
  if g.unbounded || (!g.streaming && !g.wraps && g.segs = 1) then ⟨1, 1⟩ else ⟨g.pre + g.post, g.gap f⟩
/-- w of R139. -/
def Group.stored (g : Group) : Frac :=
  let n := decN g.dec
  let two := if decDual g.dec then 2 * n else 0
  match decMode g.dec with
  | 1 => ⟨2 + two, n⟩
  | 2 => ⟨4 + two, n⟩
  | 3 => ⟨2 + two, n⟩
  | 4 => ⟨2 * decRatio g.dec, 2 ^ 24⟩
  | _ => ⟨2, 1⟩
/-- σ of R139. -/
def Group.sigma (g : Group) : Frac := if decMode g.dec = 4 then ⟨decRatio g.dec, 2 ^ 24⟩ else ⟨1, decN g.dec⟩

/-- A rate in B/s or S/s rounded up to millions. -/
def Frac.millions (x : Frac) : Nat := ceilDiv x.num (x.den * 1000000)

/-- b_capture (R112). -/
def Group.bCapture (g : Group) (f : Nat) : Frac :=
  let d := g.duty f
  let w := g.stored
  ⟨g.rate f * (2 * d.den * w.den + d.num * (2 * w.den + w.num)), d.den * w.den⟩

/-- The accumulation rate a (R152). -/
def accRate (g : Group) (a : Acc) (f : Nat) : Frac :=
  let d := g.duty f
  let k2 := if a.mode = 3 ∧ decMode g.dec = 2 then 2 else 1
  ⟨g.rate f * d.num * g.sigma.num * k2, d.den * g.sigma.den⟩

/-- Records of a charged snapshot interval (R160). -/
def Acc.charged (a : Acc) : Nat := if a.count = 0 then 1024 else a.count

/-- The charged snapshot interval in ticks, rounded up (R155, R160). -/
def snapInterval (g : Group) (a : Acc) : Nat := ceilDiv (a.charged * g.gap g.f) g.f

/-- The budget terms of a group in MB/s, each rounded up (R395), with its accumulators spilled or not. -/
def groupBudget (g : Group) (a : Acc) (f : Nat) (spilled : Bool) : Nat :=
  (g.bCapture f).millions +
    (if a.mode = 0 then 0 else
      (if spilled then (let x := accRate g a f; (Frac.mk (8 * x.num) x.den).millions) else 0) +
        (Frac.mk ((if spilled then 2 else 1) * snapBytes g a * f * 20000000000) (a.charged * g.gap f)).millions)

/-- The sequencer's budget term in MB/s (R297): enabled channels, where a defined step names a STREAM segment. -/
def Stim.budget (q : Stim) (on : Bool) : Nat :=
  let stream := q.steps.any fun (_, st) => (List.range (fld st 112 4 + 1)).any fun k =>
    q.segs.any fun (i, d) => i = fld st 116 12 + k && fld d 1 2 = 2
  if !on || !stream then 0
  else (Frac.sum ((List.range 2).map fun c => if seqOn q.cfg c then ⟨16 * 12000000000, seqPeriod q.cfg c⟩ else ⟨0, 1⟩)).millions

/-- Samples per tick of a group's channels. -/
def State.groupRate (s : State) (g : Fin 4) : Nat := rateOf (s.fusion ((s.groups.get g).inputs.headD 0))

/-- The budget total with a group taken as spilled or not (R395), and the sequencer as enabled or not. -/
def State.budget (s : State) (arming : Option (Fin 4 × Bool)) (seq : Bool) : Nat :=
  let term (g : Fin 4) (spilled : Bool) : Nat := groupBudget (s.groups.get g) (s.accs.get g) (s.groupRate g) spilled
  four.foldl (fun t g => t + (match arming with
    | some (x, sp) => if x = g then term g sp else if (s.groups.get g).counted then term g ((s.accs.get g).placed = .spilled) else 0
    | none => if (s.groups.get g).counted then term g ((s.accs.get g).placed = .spilled) else 0)) 0 + s.stim.budget seq

/-- The lowest run of free store blocks, not counting a group's own (R149, R390). -/
def State.storeRun (s : State) (g : Fin 4) (n : Nat) : Option Nat :=
  let used := (four.filter fun x => x ≠ g && (s.accs.get x).placed = .store).map fun x => ((s.accs.get x).block, (s.accs.get x).blocks)
  let starts := (used.map fun (b, k) => b + k).foldl (fun l x => insertNat x l) [0]
  starts.find? fun b => b + n ≤ 24576 && used.all fun (u, k) => !overlaps b n u k

/-- The placement of step 19: the store block, or none for the area; or a refusal (R149). -/
def State.placement (s : State) (g : Fin 4) : Except Reply (Option Nat) :=
  let a := s.accs.get g
  if a.mode = 0 then .ok none
  else
    let run := s.storeRun g (ceilDiv (accCount (s.groups.get g) a) 512)
    match a.place, run with
    | 1, none => .error (refusedAt 0x0501 1 g.val 0)
    | 2, _ => .ok none
    | _, r => .ok r

/-- Step 20 of R391 (R152). -/
def State.areaCheck (s : State) (g : Fin 4) (spilled : Bool) : Option Reply :=
  let x := s.groups.get g
  let a := s.accs.get g
  let bad (k i : Nat) : Option Reply := some (refusedAt 0x0504 k i 0)
  if a.areaBytes < areaLayout x a spilled || s.memBytes < a.areaBase + a.areaBytes then bad 1 g.val
  else match four.find? fun o => o ≠ g && (s.groups.get o).counted && (s.holds o).any fun (b, n) => overlaps a.areaBase a.areaBytes b n with
    | some o => bad 1 o.val
    | none =>
      if overlaps a.areaBase a.areaBytes x.base x.bytes then bad 1 g.val
      else if s.stim.enabled && overlaps a.areaBase a.areaBytes (seqBase s.stim.cfg) (seqBytes s.stim.cfg) then bad 0x0E 0
      else none

/-- The summed accumulation rate of counted groups of a placement, the arming one with the placement chosen (R152). -/
def State.rateSum (s : State) (g : Fin 4) (spilled : Bool) (of : Bool) : Frac :=
  Frac.sum (four.map fun o =>
    let mine := if o = g then spilled = of else (s.groups.get o).counted && (s.accs.get o).placed = (if of then .spilled else .store)
    if mine && (s.accs.get o).mode ≠ 0 then accRate (s.groups.get o) (s.accs.get o) (s.groupRate o) else ⟨0, 1⟩)

/-- Step 14 of R391 (R117, R125). -/
def State.sizeCheck (s : State) (g : Fin 4) (f : Nat) : Option Reply :=
  let x := s.groups.get g
  let d := x.dec
  let r := (s.rings.get g).cfg
  if x.streaming then
    let blocks := 2 + x.width * ceilDiv (storedCount d x.pre 0 (x.pre + x.post)) (2044 / decSize d)
    firstOf [((x.unbounded && !(flag r 2 && fld r 0 2 = 1)) || (!x.unbounded && x.streamBlocks f < blocks), refusedAt 0x0402 1 g.val 0)]
  else
    let max := x.segBytes / 2048
    firstOf [(max < recordBlocks d x.width (storedCount d 0 0 x.post), refusedAt 0x0402 1 g.val 0),
      (max < recordBlocks d x.width (storedCount d x.pre 0 (x.pre + x.post)), refusedAt 0x0403 1 g.val 0)]

/-- The VALID bits a channel's banks need (R252). -/
def validBits (cfg : BitVec 32) (fusion : Nat) : List Nat :=
  [rangeCode cfg, 4 + 3 * rangeCode cfg + filterCode cfg] ++ (if fusion = 1 then [16] else if fusion = 2 then [17] else []) ++ [18]

/-- Step 23 of R391 (R252). -/
def State.calCheck (s : State) (g : Fin 4) : Option Reply :=
  ((s.groups.get g).inputs.flatMap fun i => (s.feeding i).map fun b => (i, b)).findSome? fun (i, b) =>
    let k := s.banks.get b
    let q := s.quads.get (quadOf i)
    match (validBits (s.inputs.get i).cfg q.fusion).find? fun v => !bit k.coef.valid v || q.setId = 0 with
    | some v => some (refusedAt 0x0801 0x0D b.val v)
    | none => none

/-- The first of several checks that applies. -/
def firstCheck (l : List (Option Reply)) : Option Reply := l.findSome? id

/-- The consistency check of a group (R391): the placement chosen, or the first refusal. -/
def State.groupCheck (s : State) (g : Fin 4) : Except Reply (Option Nat) :=
  let x := s.groups.get g
  let a := s.accs.get g
  let f := s.groupRate g
  let me (reason : Nat) : Reply := refusedAt reason 1 g.val 0
  let ins := x.inputs
  let mixed := ins.find? fun i => s.fusion i ≠ s.fusion (ins.headD 0)
  let others := four.filter (· ≠ g)
  let seq := (seqBase s.stim.cfg, seqBytes s.stim.cfg)
  let units := combUnits x.comb
  let named := eight.filter fun u => bit units u.val
  let early := firstCheck [
    firstOf [(s.clock.drive = .stopped, Reply.refused 0x0102), (s.clock.sync.isSome, Reply.refused 0x0105),
      (s.grove.role.orphan && x.state = .configured, me 0x0406), (ins.isEmpty, me 0x0401)],
    ins.findSome? fun i => s.channelCheck i 0,
    mixed.map fun i => refusedAt 0x0405 2 i.val 0,
    firstOf [(combInvalid x.comb, me 0x0304)],
    (named.find? fun u => !(s.units.get u).on).map fun u => refusedAt 0x0303 4 u.val 0,
    (s.groveMisplaced x.comb).map fun u => refusedAt 0x0306 4 u 0,
    sixteen.findSome? fun i => match named.find? fun u => (s.units.get u).watches i with
      | some u => s.channelCheck i (u.val + 1)
      | none => none,
    firstOf [(decDual x.dec && x.streaming, me 0x040A), (decDual x.dec && (decMode x.dec = 0 || decMode x.dec = 4), me 0x040C),
      (s.memBytes < x.base + x.bytes, me 0x0407),
      ((if x.streaming then x.bytes < x.ringBytes f + 0x10000 else x.bytes < x.ringBytes f + x.tableBytes + x.segs * x.segBytes), me 0x0404)],
    s.sizeCheck g f,
    (others.find? fun o => (s.groups.get o).counted && overlaps x.base x.bytes (s.groups.get o).base (s.groups.get o).bytes).map
      fun o => refusedAt 0x0408 1 o.val 0,
    firstOf [(s.stim.enabled && overlaps x.base x.bytes seq.1 seq.2, refusedAt 0x0408 0x0E 0 0)],
    (others.find? fun o => (s.groups.get o).state ≠ .off && grainClash (s.holds g) x.grain (s.holds o) (s.groups.get o).grain).map
      fun o => refusedAt 0x0602 1 o.val 0,
    firstOf [(seq.2 ≠ 0 && grainClash (s.holds g) x.grain [seq] (seqGrain s.stim.cfg), refusedAt 0x0602 0x0E 0 0),
      (named.any (fun u => s.isGrove u.val) && x.reserve < s.grove.bound, me 0x0305),
      (a.mode = 1 && decMode x.dec = 2, me 0x0502),
      (a.mode = 1 && (decMode x.dec = 3 || decMode x.dec = 4) && 131072 < a.count, me 0x0507),
      (a.mode ≠ 0 && (x.unbounded || (a.mode = 3 && positions x < a.tbins)), me 0x0506)]]
  match early with
  | some r => .error r
  | none =>
    match s.placement g with
    | .error r => .error r
    | .ok p =>
      let spilled := a.mode ≠ 0 && p.isNone
      let store := s.rateSum g spilled false
      let spill := s.rateSum g spilled true
      let total := s.budget (some (g, spilled)) s.stim.enabled
      let late := firstCheck [
        if a.mode = 0 then none else s.areaCheck g spilled,
        firstOf [(a.mode ≠ 0 && 640000000000 * store.den < store.num, Reply.refused 0x0508 store.millions),
          (a.mode ≠ 0 && 160000000000 * spill.den < spill.num, Reply.refused 0x0503 spill.millions),
          (rateBudget s.mem.clock.rate < total, Reply.refused 0x0601 total)],
        s.calCheck g]
      match late with
      | some r => .error r
      | none => .ok p

/-- Stripes that an arm or an enable re-grains, each once (R169, R170). -/
def State.regrains (s : State) (ranges : List (Nat × Nat)) (grain : Nat) : List Nat :=
  (ranges.flatMap fun (a, n) => stripesOf a n).eraseDups.filter fun k => s.mem.grain k ≠ grain

end Sys2Proof.Machine
end

