-- ==== Sys2Proof/Machine/ConfigCards.lean ====
section
/-!
DEFINITION. The cards of the input, trigger, decimation, accumulate and memory families with their query twins (R364 to R374), but for those that arm a group.
-/
namespace Sys2Proof.Machine

/-- The index of a SELECT word among n objects; beyond the range the cards refuse first. -/
def selFin (n : Nat) [NeZero n] (b : Bytes) : Fin n := Fin.ofNat n (selIndex b)

/-- The fields of w bits at lo of a structure are all zero. -/
def zeroFields {n : Nat} (c : BitVec n) (l : List (Nat × Nat)) : Bool := l.all fun (lo, w) => fld c lo w == 0

/-- Groups whose state makes a channel in use (R28). -/
def State.useMask (s : State) (is : List (Fin 16)) : Nat :=
  maskOf 4 fun n =>
    let g := vnat s.groups n
    g.live && is.any fun i => bit g.channels i.val || eight.any fun u => bit (combUnits g.comb) u.val && (s.units.get u).watches i

/-- Groups in use whose combiner refers to a unit. -/
def State.unitMask (s : State) (u : Nat) : Nat := maskOf 4 fun n => (vnat s.groups n).live && bit (combUnits (vnat s.groups n).comb) u

/-- STATE 0x0011 for a group (R338). -/
def State.groupState (s : State) (g : Fin 4) : Reply := Reply.state 0x0011 (stateDetail 1 g.val (2 ^ g.val) (s.groups.get g).state.code)

/-- STATE 0x0012 for a quad (R338, R364). -/
def State.quadState (s : State) (q : Fin 4) : Reply := Reply.state 0x0012 (stateDetail 3 q.val (s.useMask (ofQuad q)) (s.quads.get q).state.code)

/-- A quad's power-on, training or re-timing is in progress (R366). -/
def QuadState.busy : QuadState → Bool
  | .off => false
  | .ready => false
  | .powering => true
  | .training => true
  | .converging => true
  | .retiming => true

/-- INPUT_CONFIG (R28, R364, R365). -/
def cardInputConfig (b : Bytes) : Card where
  opcode := 0x0201
  states := setC
  reservedOk := selOk b && fld (structAt 32 b 4) 16 12 == 0
  sizeOk := b.length = 8
  checks := fun s =>
    let i := selFin 16 b
    let same : Bool := (s.inputs.get i).cfg = structAt 32 b 4
    firstOf [(selIndex b < 16 && !same && s.inUse i, Reply.state 0x0012 (stateDetail 2 i.val (s.useMask [i]) 0)),
      (16 ≤ selIndex b || filterCode (structAt 32 b 4) = 3, Reply.refused 0x0205)]
  run := fun _ s =>
    let i := selFin 16 b
    if (s.inputs.get i).cfg = structAt 32 b 4 then (s, .done (Reply.ok))
    else (s.onInput i fun x => { x with cfg := structAt 32 b 4 }, .held (.input i.val))

/-- A quad's channels get a new routing or lose their samples: what has reached the units is evaluated, and what the banks delivered is forgotten (R35, R39, R537). -/
def State.quiesce (s : State) (q : Fin 4) : State :=
  (s.reconfigure fun s => s.idleLinks q).each (ofQuad q) fun s b => s.onBank b fun k => { k with hist := [] }

/-- QUAD_FUSION (R39, R366). -/
def cardQuadFusion (b : Bytes) : Card where
  opcode := 0x0202
  states := setC
  reservedOk := selOk b && onlyBits (word b 1) 3
  sizeOk := b.length = 8
  busy := fun s => firstOf [(selIndex b < 4 && (s.quads.get (selFin 4 b)).state.busy, Reply.busy 0x0203)]
  checks := fun s =>
    let q := selFin 4 b
    let old := (s.quads.get q).fusion
    firstOf [(selIndex b < 4 && word b 1 ≠ old && (s.quadInUse q old || s.quadInUse q (word b 1)), s.quadState q),
      (4 ≤ selIndex b || word b 1 = 3, Reply.refused 0x0205)]
  run := fun _ s =>
    let q := selFin 4 b
    let k := s.quads.get q
    if k.fusion = word b 1 then (s, .done (Reply.ok))
    else if k.state = .ready then
      ((s.quiesce q).onQuad q fun k => { k with fusion := word b 1, state := .retiming, since := s.now }, .held (.fusion q.val))
    else (s.onQuad q fun k => { k with fusion := word b 1 }, .done (Reply.ok))

/-- QUAD_POWER (R35, R366). -/
def cardQuadPower (b : Bytes) : Card where
  opcode := 0x0203
  states := setC
  reservedOk := selOk b && onlyBits (word b 1) 1
  sizeOk := b.length = 8
  busy := fun s =>
    let st := (s.quads.get (selFin 4 b)).state
    firstOf [(selIndex b < 4 && st.busy && !(word b 1 = 1 && st = .retiming), Reply.busy 0x0203)]
  checks := fun s =>
    let q := selFin 4 b
    firstOf [(selIndex b < 4 && word b 1 = 0 && (s.quads.get q).state ≠ .off && s.quadInUse q (s.quads.get q).fusion, s.quadState q),
      (4 ≤ selIndex b, Reply.refused 0x0205)]
  run := fun h s =>
    let q := selFin 4 b
    let st := (s.quads.get q).state
    if word b 1 = 0 then
      if st = .off then (s, .done (Reply.ok)) else ((s.quiesce q).onQuad q fun k => { k with state := .off, since := s.now }, .done (Reply.ok))
    else if st = .off then
      (s.onQuad q fun k => { k with state := .powering, since := s.now, ticket := h.ticket.toNat }, .done Reply.deferred)
    else (s, .done (Reply.ok))

/-- The conditions a source permits (R57). -/
def permitted (source : Nat) : List Nat :=
  if source < 16 then [0, 1, 2, 3, 4, 5]
  else if source < 20 then [0, 2, 5]
  else if source = 0x20 ∨ source = 0x40 ∨ (0x30 ≤ source ∧ source < 0x38) then [7]
  else if source = 0x50 then [6] else []

/-- A unit's parameters are invalid (R60). -/
def tuInvalid (c : BitVec 256) : Bool :=
  let cond := fld c 28 4
  tuPolarity c = 3 || ((cond = 1 || cond = 3 || cond = 4) && tuLevelA c ≤ tuLevelB c) ||
  (2 ≤ fld c 24 2 && fld c 176 48 < fld c 128 48) || (flag c 22 && fld c 32 8 = 0x20)

/-- TU_CONFIG (R59 to R61, R96, R367). -/
def cardTuConfig (b : Bytes) : Card where
  opcode := 0x0301
  states := setC
  reservedOk := selOk b && zeroFields (structAt 256 b 4) [(40, 44), (1, 21)]
  sizeOk := b.length = 36
  checks := fun s =>
    let c := structAt 256 b 4
    let u := selIndex b
    firstOf [(u < 8 && s.referenced u, Reply.state 0x0013 (stateDetail 4 u (s.unitMask u) 0)),
      (8 ≤ u, Reply.refused 0x0302), (!(permitted (fld c 32 8)).contains (fld c 28 4), Reply.refused 0x0301), (tuInvalid c, Reply.refused 0x0302)]
  run := fun _ s => (s.reconfigure fun s => s.onUnit (selFin 8 b) fun u =>
    { u with cfg := structAt 256 b 4, cond := {}, last := none, atTick := none, cancels := u.cancels + (if u.atTick.isSome then 1 else 0) },
    .done (Reply.ok))

/-- Groups in use whose combiner refers to a PATTERN unit with a term of an input (R61). -/
def State.cmpMask (s : State) (i : Nat) : Nat :=
  (eight.filter fun u => (s.units.get u).source = 0x50 && flag (s.units.get u).cfg (240 + i)).foldl (fun m u => m ||| s.unitMask u.val) 0

/-- CMP_CONFIG (R61, R68, R368). -/
def cardCmpConfig (b : Bytes) : Card where
  opcode := 0x0302
  states := setC
  reservedOk := selOk b && fld (structAt 32 b 4) 0 4 == 0
  sizeOk := b.length = 8
  checks := fun s => firstOf [(selIndex b < 16 && s.cmpMask (selIndex b) ≠ 0, Reply.state 0x0013 (stateDetail 5 (selIndex b) (s.cmpMask (selIndex b)) 0)),
    (16 ≤ selIndex b, Reply.refused 0x0308)]
  run := fun _ s => (s.reconfigure fun s => s.onInput (selFin 16 b) fun i => { i.cmpRestart with cmp := structAt 32 b 4 }, .done (Reply.ok))

/-- COMBINER_CONFIG (R76, R367). -/
def cardCombinerConfig (b : Bytes) : Card where
  opcode := 0x0303
  states := setC
  reservedOk := selOk b && zeroFields (structAt 128 b 4) [(32, 15), (0, 12)]
  sizeOk := b.length = 20
  checks := fun s => firstOf [(selIndex b < 4 && (s.groups.get (selFin 4 b)).live, s.groupState (selFin 4 b)), (4 ≤ selIndex b, Reply.refused 0x0304)]
  run := fun _ s => (s.onGroup (selFin 4 b) fun g => { g with comb := structAt 128 b 4 }, .done (Reply.ok))

/-- SW_TRIGGER (R96, R367, R370). -/
def cardSwTrigger (b : Bytes) : Card where
  opcode := 0x0304
  states := setW
  reservedOk := selOk b && onlyBits (word b 1) 1 && (bit (word b 1) 0 || leAt b 8 8 = 0)
  sizeOk := b.length = 16
  busy := fun s => firstOf [(selIndex b < 8 && bit (word b 1) 0 && (s.units.get (selFin 8 b)).atTick.isSome, Reply.busy 0x030A)]
  checks := fun s =>
    let u := s.units.get (selFin 8 b)
    firstOf [(8 ≤ selIndex b || !u.on || u.source ≠ 0x40, Reply.refused 0x0309),
      (bit (word b 1) 0 && s.internal (leAt b 8 8) < (s.now : Int) - 1280, Reply.refused 0x0307)]
  run := fun _ s =>
    if bit (word b 1) 0 then
      (s.onUnit (selFin 8 b) fun u => { u with atTick := some (s.internal (leAt b 8 8)).toNat }, .done (Reply.ok (leBytes 8 (leAt b 8 8))))
    else
      (s.tag { source := 0x40, rising := true, time := (s.now - 1280) * 2 ^ 32, unit := selIndex b },
        .done (Reply.ok (leBytes 8 (s.groveAt (s.now - 1280)))))

/-- The ARMED level of a group at a tick, as far back as its changes are kept (R97). -/
def Group.armedAt (g : Group) (tick : Nat) : Bool := ((g.armedLog.find? fun (t, _) => t ≤ tick).map Prod.snd).getD false

/-- TRIGOUT_CONFIG (R97, R369). -/
def cardTrigoutConfig (b : Bytes) : Card where
  opcode := 0x0305
  states := setC
  reservedOk := selOk b && zeroFields (structAt 64 b 4) [(11, 17), (2, 6)]
  sizeOk := b.length = 12
  checks := fun _ =>
    let c := structAt 64 b 4
    firstOf [(4 ≤ selIndex b || ((outSource c = 1 || outSource c = 2) && fld c 28 16 = 0) || (2 ≤ outSource c && 3 < outIndex c), Reply.refused 0x030B)]
  run := fun _ s =>
    let c := structAt 64 b 4
    let o := selFin 4 b
    let old := (s.trigouts.get o).cfg
    let g := vnat s.groups (outIndex c)
    let lag := 160 + outDelay c
    if old = c then (s, .done (Reply.ok))
    else (s.onOut o fun t => { t with
      cfg := c, starts := [], high := t.high && outSource old ≠ 3
      levels := if outSource c = 3 then
          (s.now + 1, g.armedAt (s.now + 1 - lag)) :: ((g.armedLog.filter fun (t, _) => s.now + 1 < t + lag).reverse.map fun (t, l) => (t + lag, l))
        else [] }, .done (Reply.ok))

/-- CAPTURE_CONFIG's parameters are invalid (R100, R101). -/
def capInvalid (c : BitVec 384) : Bool :=
  let g : Group := { Group.reset with cap := c }
  g.post = 0 || g.reserve < 256 || g.segs = 0 || 2 ^ 24 < g.segs || 8 < g.grain || 2 ≤ fld c 42 2 || (g.unbounded && !g.streaming) ||
  g.base % 0x10000 ≠ 0 || g.bytes % 0x10000 ≠ 0 || g.segBytes % 2048 ≠ 0 || (g.segBytes = 0 && !g.streaming)

/-- CAPTURE_CONFIG (R100, R101, R103, R371). -/
def cardCaptureConfig (b : Bytes) : Card where
  opcode := 0x0401
  states := setC
  reservedOk := selOk b && zeroFields (structAt 384 b 4) [(240, 24), (64, 39), (0, 41)]
  sizeOk := b.length = 52
  checks := fun s => firstOf [(selIndex b < 4 && (s.groups.get (selFin 4 b)).live, s.groupState (selFin 4 b)),
    (4 ≤ selIndex b || capInvalid (structAt 384 b 4), Reply.refused 0x0409)]
  run := fun _ s => (s.onGroup (selFin 4 b) fun g => { g with cap := structAt 384 b 4, state := if g.state = .off then .configured else g.state },
    .done (Reply.ok))

/-- DECIM_CONFIG (R129, R130, R371). -/
def cardDecimConfig (b : Bytes) : Card where
  opcode := 0x0402
  states := setC
  reservedOk := selOk b && zeroFields (structAt 128 b 4) [(81, 15), (5, 59)]
  sizeOk := b.length = 20
  checks := fun s =>
    let d := structAt 128 b 4
    firstOf [(selIndex b < 4 && (s.groups.get (selFin 4 b)).live, s.groupState (selFin 4 b)),
      (4 ≤ selIndex b || 4 < decMode d || decFactor d = 0 || 65536 < decFactor d || decRatio d < 4096 || 16777216 < decRatio d, Reply.refused 0x040B)]
  run := fun _ s => (s.onGroup (selFin 4 b) fun g => { g with dec := structAt 128 b 4 }, .done (Reply.ok))

/-- ACC_CONFIG's parameters are invalid (R140, R141). -/
def accInvalid (c : BitVec 256) : Bool :=
  let a : Acc := { Acc.reset with cfg := c }
  a.areaBase % 0x10000 ≠ 0 || a.areaBytes % 0x10000 ≠ 0 || a.tbins = 0 || 4096 < a.tbins || 10 < a.abinsLog2 || a.slots = 0 ||
  2 ≤ fld c 66 2 || a.place = 3 || (a.mode = 1 && (a.count = 0 || 2 ^ 20 < a.count))

/-- ACC_CONFIG (R140, R141, R373). -/
def cardAccConfig (b : Bytes) : Card where
  opcode := 0x0501
  states := setC
  reservedOk := selOk b && zeroFields (structAt 256 b 4) [(128, 31), (72, 8), (2, 62)]
  sizeOk := b.length = 36
  checks := fun s => firstOf [(selIndex b < 4 && (s.groups.get (selFin 4 b)).live, s.groupState (selFin 4 b)),
    (4 ≤ selIndex b || accInvalid (structAt 256 b 4), Reply.refused 0x0505)]
  run := fun _ s => (s.onAcc (selFin 4 b) fun a => { a with cfg := structAt 256 b 4 }, .done (Reply.ok))

/-- ACC_SNAPSHOT (R155, R156, R373): with ON_COUNT STOP one free slot is held back. -/
def cardAccSnapshot (b : Bytes) : Card where
  opcode := 0x0502
  states := setW
  reservedOk := selOk b
  sizeOk := b.length = 4
  busy := fun s => firstOf [(selIndex b < 4 && !(s.accs.get (selFin 4 b)).snaps.isEmpty, Reply.busy 0x0509)]
  checks := fun s =>
    let g := selFin 4 b
    let a := s.accs.get g
    firstOf [(selIndex b < 4 && !(s.groups.get g).live, s.groupState g), (4 ≤ selIndex b || a.mode = 0, Reply.refused 0x0505),
      (a.slots ≤ a.occupied.length + (if a.restarts then 0 else 1), Reply.busy 0x0509),
      (a.lastBegun.any fun t => s.now - t < snapInterval (s.groups.get g) a, Reply.busy 0x050A)]
  run := fun _ s =>
    let g := selFin 4 b
    let a := s.accs.get g
    match a.freeSlot with
    | none => (s, .done (Reply.busy 0x0509))
    | some k => (s.takeSnap g k false false, .done (Reply.ok (leBytes 1 k ++ zeros 7 ++ leBytes 8 (s.snapSeq g))))

/-- Real-time groups and the sequencer that use a memory port (R174). -/
def State.portUsers (s : State) (code : Nat) : Nat :=
  if code < 16 then maskOf 4 fun n =>
    let g := vnat s.groups n
    g.live && g.inputs.any fun i => (s.feeding i).any fun k => k.val = code
  else 0

/-- MEM_PORT_CONFIG (R174, R374). -/
def cardMemPortConfig (b : Bytes) : Card where
  opcode := 0x0601
  states := setS
  reservedOk := selOk b && zeroFields (structAt 64 b 4) [(4, 28), (0, 2)]
  sizeOk := b.length = 12
  checks := fun s => firstOf [(s.portUsers (selIndex b) ≠ 0 || (selIndex b = 0x15 && s.stim.enabled),
      Reply.state 0x0017 (stateDetail 0x0A (selIndex b) (s.portUsers (selIndex b)) 0)),
    (23 ≤ selIndex b || !portCfgOk (selIndex b) (structAt 64 b 4), Reply.refused 0x0604)]
  run := doOk fun s => s.onMem fun m => m.onPort (selFin 23 b) fun p => { p with cfg := structAt 64 b 4 }

/-- MEM_CONFIG (R188, R374). -/
def cardMemConfig (b : Bytes) : Card where
  opcode := 0x0602
  states := setS
  reservedOk := zeroFields (structAt 32 b 0) [(16, 16), (4, 4)]
  sizeOk := b.length = 4
  checks := fun _ => firstOf [(fld (structAt 32 b 0) 8 8 < 4 || fld (structAt 32 b 0) 0 4 < 8, Reply.refused 0x0604)]
  run := doOk fun s => s.onMem fun m => { m with cfg := structAt 32 b 0 }

/-- MEM_CLOCK (R190, R374). -/
def cardMemClock (b : Bytes) : Card where
  opcode := 0x0603
  states := [3, 4]
  reservedOk := onlyBits (word b 0) 0xF
  sizeOk := b.length = 4
  busy := fun s => firstOf [(s.mem.clock.queued.isSome, Reply.busy 0x0605)]
  checks := fun s => firstOf [(s.stim.enabled, s.seqState), (3 < word b 0, Reply.refused 0x0604)]
  run := fun h s => s.memClock (word b 0) h.ticket.toNat

/-- BAR2_SET (R167, R374). -/
def cardBar2Set (b : Bytes) : Card where
  opcode := 0x0604
  states := setS
  reservedOk := leAt b 5 3 == 0
  sizeOk := b.length = 8
  checks := fun s => firstOf [(leAt b 0 5 % 2 ^ 28 ≠ 0, Reply.refused 0x0604), (s.memBytes ≤ leAt b 0 5, Reply.refused 0x0603)]
  run := doOk fun s => s.onMem fun m => { m with bar2 := leAt b 0 5 }

/-- READOUT_RINGS' parameters are invalid (R198). -/
def ringsInvalid (c : BitVec 256) : Bool :=
  fld c 192 64 % 4096 ≠ 0 || fld c 128 64 % 4096 ≠ 0 || fld c 124 4 < 4 || fld c 120 4 < 4 || 2 ≤ fld c 0 2

/-- A ring configuration is taken (R198): counts at zero, descriptors not taken forgotten, complete items kept and delivered anew. -/
def Ring.configure (r : Ring) (c : BitVec 256) : Ring :=
  { r with
    cfg := c, descTail := 0, descHead := 0, desc := none, delivery := none
    items := r.items.map fun i => { i with ready := none }
    cpl := { CplRing.reset with fullWaits := r.cpl.fullWaits } }

/-- READOUT_RINGS (R198, R375). -/
def cardReadoutRings (b : Bytes) : Card where
  opcode := 0x0701
  states := setC
  reservedOk := selOk b && zeroFields (structAt 256 b 4) [(96, 13), (3, 45)]
  sizeOk := b.length = 36
  checks := fun s =>
    let g := selFin 4 b
    let r := s.rings.get g
    firstOf [(selIndex b < 4 && (s.groups.get g).live, s.groupState g),
      (selIndex b < 4 && (r.desc.isSome || !r.cpl.waiting.isEmpty), Reply.state 0x0017 (stateDetail 0x0B g.val 0 0)),
      (4 ≤ selIndex b || ringsInvalid (structAt 256 b 4), Reply.refused 0x0701)]
  run := doOk fun s => s.onRing (selFin 4 b) fun r => r.configure (structAt 256 b 4)

/-- The little-endian bytes of a structure (R351). -/
def structBytes {n : Nat} (c : BitVec n) : Bytes := leBytes (n / 8) c.toNat

/-- The query twins of these families (R353). -/
def configQuery (op : Nat) (b : Bytes) : Option Card :=
  match op with
  | 0x0181 => some (queryCard op b 0 0 fun s _ => structBytes s.clock.plan)
  | 0x0281 => some (queryCard op b 16 0x0205 fun s i => structBytes (vnat s.inputs i).cfg)
  | 0x0282 => some (queryCard op b 4 0x0205 fun s i => leBytes 4 (vnat s.quads i).fusion)
  | 0x0283 => some (queryCard op b 4 0x0205 fun s i => leBytes 4 (if (vnat s.quads i).state = .off then 0 else 1))
  | 0x0381 => some (queryCard op b 8 0x0302 fun s i => structBytes (vnat s.units i).cfg)
  | 0x0382 => some (queryCard op b 16 0x0308 fun s i => structBytes (vnat s.inputs i).cmp)
  | 0x0383 => some (queryCard op b 4 0x0304 fun s i => structBytes (vnat s.groups i).comb)
  | 0x0385 => some (queryCard op b 4 0x030B fun s i => structBytes (vnat s.trigouts i).cfg)
  | 0x0481 => some (queryCard op b 4 0x0409 fun s i => structBytes (vnat s.groups i).cap)
  | 0x0482 => some (queryCard op b 4 0x040B fun s i => structBytes (vnat s.groups i).dec)
  | 0x0581 => some (queryCard op b 4 0x0505 fun s i => structBytes (vnat s.accs i).cfg)
  | 0x0681 => some (queryCard op b 23 0x0604 fun s i => structBytes (vnat s.mem.ports i).cfg)
  | 0x0682 => some (queryCard op b 0 0 fun s _ => structBytes s.mem.cfg)
  | 0x0684 => some (queryCard op b 0 0 fun s _ => leBytes 8 s.mem.bar2)
  | 0x0781 => some (queryCard op b 4 0x0701 fun s i => structBytes (vnat s.rings i).cfg)
  | _ => none

end Sys2Proof.Machine
end

