-- ==== Sys2Proof/Machine/CalOps.lean ====
section
/-!
DEFINITION. Calibration (07): correction sets as byte streams, interpolation, limits, live slice coefficients, changeovers and gathers, foreground runs, and the cards of the family.
-/
namespace Sys2Proof.Machine

/-- Points of a quad section (R246). -/
def setCount (b : Bytes) (q : Nat) : Nat := leAt b (24 + q) 1
/-- Point k of a quad section of a set (R246). -/
def setPoint (b : Bytes) (q k : Nat) : Bytes :=
  (b.drop (64 + 3136 * (((List.range q).map (setCount b)).foldl (· + ·) 0 + k))).take 3136
/-- The points of a quad section. -/
def setSection (b : Bytes) (q : Nat) : List Bytes := (List.range (setCount b q)).map (setPoint b q)
/-- TEMP of a point (R247). -/
def pointTemp (p : Bytes) : Int := signed 16 (leAt p 0 2)
/-- UNTRACED of a point (R247). -/
def pointUntraced (p : Bytes) : Bool := bit (leAt p 2 1) 0
/-- LEAKY of a point (R247). -/
def pointLeaky (p : Bytes) : Bool := bit (leAt p 2 1) 1
/-- The bank record j of a point (R247). -/
def bankRecord (p : Bytes) (j : Nat) : Bytes := (p.drop (64 + 768 * j)).take 768
/-- A signed field of a record. -/
def sAt (b : Bytes) (off n : Nat) : Int := signed (8 * n) (leAt b off n)

/-- The coefficients of a bank record (R248). -/
def coefOf (r : Bytes) : BankCoef where
  gains := (List.range 4).map fun i => (leAt r (4 + 8 * i) 4 : Int)
  offsets := (List.range 4).map fun i => sAt r (8 + 8 * i) 4
  skew := sAt r 36 4
  phaseF2 := sAt r 40 4
  phaseF4 := sAt r 44 4
  valid := leAt r 48 4
  taps := (List.range 12).map fun p => (List.range 16).map fun n => sAt r (64 + 32 * p + 2 * n) 2
  slices := (List.range 33).map fun s => { offset := sAt r (448 + 8 * s) 2, gain := sAt r (450 + 8 * s) 2, skew := sAt r (452 + 8 * s) 2 }

/-- Linear interpolation of a field between two points, ties away from zero (R249). -/
def lerp (t0 t1 t : Int) (a b : Int) : Int := roundDiv (a * (t1 - t) + b * (t - t0)) (t1 - t0).toNat

/-- Every numeric field of two bank records interpolated; VALID where both are (R249). -/
def lerpCoef (f : Int → Int → Int) (a b : BankCoef) : BankCoef where
  gains := List.zipWith f a.gains b.gains
  offsets := List.zipWith f a.offsets b.offsets
  skew := f a.skew b.skew
  phaseF2 := f a.phaseF2 b.phaseF2
  phaseF4 := f a.phaseF4 b.phaseF4
  valid := a.valid &&& b.valid
  taps := List.zipWith (List.zipWith f) a.taps b.taps
  slices := List.zipWith (fun x y => { offset := f x.offset y.offset, gain := f x.gain y.gain, skew := f x.skew y.skew }) a.slices b.slices

/-- The two points of a section that bracket a temperature, the same one twice at and beyond the ends (R249). -/
def bracket (ps : List Bytes) (t : Int) : Option (Bytes × Bytes) :=
  match ps with
  | [] => none
  | p :: rest =>
    if t ≤ pointTemp p then some (p, p)
    else match rest with
      | [] => some (p, p)
      | q :: _ => if t < pointTemp q then some (p, q) else bracket rest t

/-- A value read from both bracketing points and interpolated. -/
def betweenPoints (a b : Bytes) (t : Int) (x y : Int) : Int :=
  if pointTemp a = pointTemp b then x else lerp (pointTemp a) (pointTemp b) t x y

/-- Coefficients of bank j of a section at a temperature (R249). -/
def sectionCoef (ps : List Bytes) (t : Int) (j : Nat) : Option BankCoef :=
  (bracket ps t).map fun (a, b) => lerpCoef (betweenPoints a b t) (coefOf (bankRecord a j)) (coefOf (bankRecord b j))

/-- The interpolated coefficients use a LEAKY point (R253). -/
def sectionLeaky (ps : List Bytes) (t : Int) : Bool := match bracket ps t with
  | none => false
  | some (a, b) => pointLeaky a || pointLeaky b

/-- A set is UNTRACED (R245, R246). -/
def setUntraced (b : Bytes) : Bool := bit (leAt b 3 1) 0
/-- The CAL_SET_ID of a set (R246). -/
def setIdOf (b : Bytes) : Nat := leAt b 4 4

/-- The live coefficient of a slice in the units of R248. -/
def liveUnits (c : SliceCoef) : SliceCoef :=
  { offset := roundDiv c.offset 65536, gain := roundDiv c.gain 65536, skew := roundDiv c.skew 65536 }
/-- A slice coefficient as a live one. -/
def liveOf (c : SliceCoef) : SliceCoef := { offset := 65536 * c.offset, gain := 65536 * c.gain, skew := 65536 * c.skew }

/-- A slice coefficient of R248 lies within R224. -/
def sliceOk (c : SliceCoef) : Bool := c.offset.natAbs ≤ 16384 && 100 * c.gain.natAbs ≤ 3 * 2 ^ 20 && c.skew.natAbs ≤ 15000

/-- sin of m turns of 1/640, in units of 2^-160. -/
def sinTurn (m : Nat) : Int :=
  let r : Int := m % 640
  let a := (if 320 < r then r - 640 else r) * piFix / 320
  sinSeries 60 a (a * a / 2 ^ 160) 1
/-- sin of every multiple of 1/640 turn. -/
def sinTable : Vector Int 640 := Vector.ofFn fun i => sinTurn i.val

/-- An equaliser's magnitude lies within 3 dB at the 32 measurement frequencies of its filter (R232, R233). -/
def tapsOk (table : Vector Int 640) (filter : Nat) (taps : List Int) : Bool :=
  let fn := match filter with
    | 0 => 10
    | 1 => 18
    | _ => 32
  (List.range 32).all fun k =>
    let sum (quarter : Nat) : Int := (taps.zipIdx.map fun (t, n) => t * vnat table (((k + 1) * fn * n + quarter) % 640)).foldl (· + ·) 0
    let p := (sum 160 ^ 2 + sum 0 ^ 2).toNat ^ 10
    let one := 2 ^ 3480
    one ≤ 1000 * p && p ≤ 1000 * one

/-- The bank fields that are VALID lie within R233 (R250). -/
def bankOk (table : Vector Int 640) (c : BankCoef) : Bool :=
  ((List.range 4).all fun r => !bit c.valid r ||
    (20 * (c.gains.getD r 0 - 2 ^ 30).natAbs ≤ 2 ^ 30 && (c.offsets.getD r 0).natAbs ≤ 32768)) &&
  ((List.range 12).all fun p => !bit c.valid (4 + p) || tapsOk table (p % 3) (c.taps.getD p [])) &&
  (!bit c.valid 16 || c.phaseF2.natAbs ≤ 5000) && (!bit c.valid 17 || c.phaseF4.natAbs ≤ 5000) && (!bit c.valid 18 || c.skew.natAbs ≤ 5000)

/-- A staged stream is a valid set (R250). -/
def setValid (b : Bytes) (table : Vector Int 640) : Bool :=
  let n := ((List.range 4).map (setCount b)).foldl (· + ·) 0
  leAt b 0 2 = 0x5343 && leAt b 2 1 = 1 && ((List.range 4).all fun q => 1 ≤ setCount b q && setCount b q ≤ 8) &&
  leAt b 20 4 = 64 + 3136 * n + 4 && crcOk (b.take (leAt b 20 4)) &&
  (List.range 4).all fun q =>
    let ps := setSection b q
    ((ps.zip (ps.drop 1)).all fun (x, y) => pointTemp x < pointTemp y) &&
    ps.all fun p => (List.range 4).all fun j =>
      let r := bankRecord p j
      leAt r 0 1 = 4 * q + j && ((coefOf r).slices.all sliceOk) && bankOk table (coefOf r)

/-- A group uses a quad (R241). -/
def State.usesQuad (s : State) (g : Fin 4) (q : Fin 4) : Bool :=
  (s.groups.get g).live && (ofQuad q).any fun i => bit (s.groups.get g).channels i.val

/-- The groups that use a quad. -/
def State.usersOf (s : State) (q : Fin 4) : List (Fin 4) := four.filter fun g => s.usesQuad g q

/-- A group is closed for a quad at once (R228, R242). -/
def State.closeGroup (s : State) (g : Fin 4) (mask : Nat) (at_ : Nat) : State :=
  s.onGroup g fun x => { x with closed := x.closed ||| mask, closedAt := if x.closed = 0 then at_ else x.closedAt, reopen := none }

/-- A gather opens for a used quad (R242). -/
def State.openGather (s : State) (q : Fin 4) : State :=
  if (s.quads.get q).gather.isSome || (s.usersOf q).isEmpty then s
  else ((s.decideTo s.now).onQuad q fun k => { k with gather := some s.now }).each (s.usersOf q) fun s g =>
    if (s.groups.get g).state = .filling then s.onGroup g fun x => { x with closeAtFill := x.closeAtFill ||| 2 ^ q.val }
    else s.closeGroup g (2 ^ q.val) s.now

/-- A group closed for some quads and for no other reopens at its re-arm sample and the one given, from the armer stage (R228, R242). -/
def Group.release (x : Group) (mask from_ tick : Nat) : Group :=
  let rest := x.closed &&& (x.closed ^^^ mask)
  if x.closed = 0 || x.reopen.isSome then { x with closeAtFill := x.closeAtFill &&& (x.closeAtFill ^^^ mask) }
  else if rest ≠ 0 then { x with closed := rest }
  else
    let r := max (max (x.rearm.getD 0) from_) (atCapture x.f tick)
    { x with
      reopen := some r, rearm := if x.rearm.isSome then some r else none
      closedPast := x.closedPast ++ [(x.closedAt, r)]
      stage := if x.ending.isSome then x.stage else if combArmMode x.comb = 0 then .firer else .armer, firerFrom := 0, delayLeft := 0, delayed := none }

/-- Groups closed for quads reopen after a changeover at X (R242). -/
def State.reopenAfter (s : State) (mask : Nat) (x : Nat) : State :=
  s.each four fun s g => s.onGroup g fun k => if k.closed &&& mask = 0 then k else k.release mask (k.f * x + k.pre) s.now

/-- The coefficients a bank takes at a changeover (R240, R249): the set's, with the live slice values. -/
def State.newCoef (s : State) (set : Option Bytes) (q : Fin 4) (j : Nat) (b : Bank) : BankCoef :=
  let k := (set.bind fun x => sectionCoef (setSection x q.val) (s.quads.get q).temp j).getD b.coef
  { k with slices := b.live.map liveUnits }

/-- The changeover of one quad at X (R240): its banks take the coefficients of the set given; the first set after power-up also gives the live slice values (R223). -/
def State.changeQuad (s : State) (set : Option Bytes) (first : Bool) (x : Nat) (q : Fin 4) : State :=
  let k := s.quads.get q
  let s0 := s.each (ofQuad q).zipIdx fun s (b, j) => s.onBank b fun c =>
    let live := if first then (((set.bind fun y => sectionCoef (setSection y q.val) k.temp j).map fun z => z.slices.map liveOf).getD c.live) else c.live
    let c1 := { c with live := live }
    { c1 with oldCoef := some (x, c.coef), coef := s.newCoef set q j c1 }
  s0.onQuad q fun k => { k with
    coefTemp := k.temp, bgPending := false, lastChangeover := x, changeovers := k.changeovers + 1
    gatherTicks := k.gatherTicks + (k.gather.map (x - ·)).getD 0, gather := none
    leaky := (set.map fun y => sectionLeaky (setSection y q.val) k.temp).getD k.leaky }

/-- CAL_ENTERED for quads at X (R244), remembered by each of them. -/
def State.entered (s : State) (qs : List (Fin 4)) (id x : Nat) : State :=
  (s.raiseAt { code := 0x0881, vals := [(qs.map fun (q : Fin 4) => 2 ^ q.val).foldl (· + ·) 0, id] } (s.groveAt x)).each qs
    fun s q => s.onQuad q fun k => { k with entered := s.events.seq }

/-- A quad named by a run whose RESTORE has not ended has no changeover (R240). -/
def State.runHolds (s : State) (q : Fin 4) : Bool := match s.cal.run with
  | some r => bit r.mask q.val && r.ended.isNone
  | none => s.cal.self.isSome

/-- The quads whose coefficients a set changes (R244): those whose section differs from that of the active set. -/
def State.changedBy (s : State) (set : Bytes) : List (Fin 4) := match s.cal.active with
  | none => four
  | some a => four.filter fun q => setSection a q.val ≠ setSection set q.val

/-- Every group that uses a quad is closed for it (R242). -/
def State.allClosed (s : State) (q : Fin 4) : Bool :=
  (s.usersOf q).all fun g => bit (s.groups.get g).closed q.val && (s.groups.get g).reopen.isNone

/-- The pending set can enter now (R240, R244). -/
def State.setReady (s : State) : Bool := match s.cal.pending with
  | none => false
  | some p => four.all (fun q => !s.runHolds q) && (s.changedBy p).all s.allClosed

/-- The pending set enters all four quads at X (R244): those it changes, and unused ones with a change of their own, change over; the others take its identifier. -/
def State.enterSet (s : State) (x : Nat) : State :=
  match s.cal.pending with
  | none => s
  | some p =>
    let qs := four.filter fun q => (s.changedBy p).contains q || ((s.quads.get q).bgPending && s.allClosed q)
    let first := s.cal.active.isNone
    let s1 := s.each qs fun s q => s.changeQuad (some p) first x q
    let s2 := s1.each four fun s q => s.onQuad q fun k => { k with
      oldSet := some (x, k.setId, k.untraced), setId := setIdOf p, untraced := setUntraced p, setPending := false }
    ((s2.onCal fun c => { c with active := some p, pending := none }).entered four (setIdOf p) x).reopenAfter 15 x

/-- A background or temperature change of a quad can enter now (R241, R243). -/
def State.bgReady (s : State) (q : Fin 4) : Bool :=
  let k := s.quads.get q
  k.bgPending && !s.runHolds q && s.allClosed q && !k.setPending

/-- A background or temperature change enters a quad at X (R240, R243). -/
def State.enterBg (s : State) (q : Fin 4) (x : Nat) : State :=
  ((s.changeQuad s.cal.active false x q).entered [q] (s.quads.get q).setId x).reopenAfter (2 ^ q.val) x

/-- A new set becomes the pending one (R245) and opens its gathers (R243, R244). -/
def State.setPends (s : State) (set : Bytes) : State :=
  let s1 := s.onCal fun c => { c with pending := some set, nextId := c.nextId + 1 }
  let s2 := s1.each four fun s q => s.onQuad q fun k => { k with setPending := true }
  if s.cal.self.isSome then s2 else s2.each (s2.changedBy set) State.openGather

/-- Whether a quad has a temperature change pending (R243), or a live coefficient one unit away from the one in force (R223). -/
def State.changeDue (s : State) (q : Fin 4) : Bool :=
  let k := s.quads.get q
  (k.setId ≠ 0 && 8 ≤ (k.temp - k.coefTemp).natAbs) ||
  (ofQuad q).any fun b =>
    let c := s.banks.get b
    (c.live.zip c.coef.slices).any fun (l, f) => 65536 ≤ (l.offset - 65536 * f.offset).natAbs || 65536 ≤ (l.gain - 65536 * f.gain).natAbs ||
      65536 ≤ (l.skew - 65536 * f.skew).natAbs

/-- A quad's pending background or temperature change is judged anew. -/
def State.judgeBg (s : State) (q : Fin 4) : State := s.onQuad q fun k => { k with bgPending := s.changeDue q }

/-- One quarter of the way to an estimate (R223), rounded to 2^-16 unit. -/
def quarter (live est : Int) : Int := live + roundDiv (65536 * est - live) 4

/-- The last two estimates of a quantity agree within a bound (R225). -/
def agrees (l : List Int) (bound : Nat) : Bool := match l with
  | a :: b :: _ => (a - b).natAbs < bound
  | _ => false

/-- A bank is BG_CONVERGED by its estimates (R225, R232): 0.25 LSB, 0.025 % and 25 fs. -/
def Bank.converges (b : Bank) : Bool :=
  b.bg.all fun g => agrees g.offsets 64 && agrees g.gains 263 && agrees g.skews 250

/-- A slice is found outside the limits (R32, R224): the first is retired, which ends the spare, a second one degrades its bank. -/
def State.sliceOut (s : State) (b : Fin 16) (slice : Nat) : State :=
  if (s.banks.get b).retired.isNone then
    (s.onBank b fun k => { k with retired := some slice, spare := none }).raise { code := 0x0281, obj := b.val, vals := [slice] }
  else (s.onBank b fun k => { k with degraded := true }).raise { code := 0x0282, obj := b.val, vals := [slice] }

/-- The background tier's period ends with an estimate of the free slice (R222 to R225). -/
def State.bgEstimate (s : State) (b : Fin 16) (e : SliceEstimate) : State :=
  match (s.banks.get b).spare with
  | none => s
  | some n =>
    let k := s.banks.get b
    let old := k.live.getD n {}
    let new : SliceCoef := {
      offset := (e.offset.map (quarter old.offset)).getD old.offset, gain := (e.gain.map (quarter old.gain)).getD old.gain
      skew := (e.skew.map (quarter old.skew)).getD old.skew }
    let add (l : List Int) (x : Option Int) : List Int := (x.toList ++ l).take 2
    let s1 := s.onBank b fun k => { k with
      bgEstimates := k.bgEstimates + 1, bgSkips := k.bgSkips + (if e.gain.isNone && e.skew.isNone then 1 else 0)
      bg := modAt k.bg n fun g => { offsets := add g.offsets e.offset, gains := add g.gains e.gain, skews := add g.skews e.skew } }
    if sliceOk (liveUnits new) then
      ((s1.onBank b fun k => { k with live := k.live.set n new }).onBank b fun k => { k with converged := k.converges }).judgeBg (quadOf b)
    else s1.sliceOut b n

/-- RUN of CAL_STATUS while a run names the quad (R253). -/
def CalRun.code (r : CalRun) (q : Nat) : Nat :=
  if !bit r.mask q then 0
  else if r.drain.isSome then 1
  else match r.cur with
    | some (c, p, _) =>
      if c = q then (match p with
        | .leakage => 3
        | .isolating => 4
        | .sourcing => 4
        | .runA => 5
        | .runB => 5
        | .compare => 5
        | .restore => 6
        | .stopping => 6
        | .stopHeld => 6)
      else if c < q && r.ended.isNone then 2 else 0
    | none => 0

/-- RUN and SWITCH of a quad while the self-calibration runs at a tick (R470): the phases of its windows by their times. -/
def SelfCal.view (c : SelfCal) (now : Nat) : Nat × Switch3 :=
  let e := now - c.since
  let window (source : Nat) : Nat × Switch3 :=
    if e < ms / 2 then (4, .isolate) else if e < ms / 2 + source then (5, .source) else (6, .connect)
  match c.phase with
  | .leakage => (3, .connect)
  | .converge _ => window (115 * ms + ms / 2)
  | .measure => window (116 * ms + ms / 2)

/-- CAL_STATUS of a quad (R253). -/
def State.calStatus (s : State) (q : Fin 4) : Nat :=
  let k := s.quads.get q
  let v := match s.cal.self with
    | some c => c.view s.now
    | none => ((s.cal.run.map fun (r : CalRun) => r.code q.val).getD 0, k.switch)
  let held := (match k.held with
    | some (a, none) => a ≤ s.now
    | some (a, some e) => a ≤ s.now && s.now < e
    | none => false) || (s.cal.self.isSome && v.2 ≠ .connect)
  at' v.1 29 + at' v.2.code 27 + bAt held 26 + bAt k.gather.isSome 25 + bAt k.setPending 24 + bAt k.bgPending 23 +
    bAt ((ofQuad q).all fun b => (s.banks.get b).converged) 22 + bAt k.untraced 21 + bAt k.leaky 20 +
    at' (maskOf 4 fun g => bit (vnat s.groups g).closed q.val) 16 + k.lastOutcome % 65536

/-- A switch leaves CONNECT at a beat boundary: held words begin and CAL_ISOLATED is posted (R237, R244). -/
def State.leaveConnect (s : State) (q : Fin 4) (dest : Switch3) : State :=
  let a := s.beatFrom s.now
  let s1 := s.raiseAt { code := 0x0882, obj := q.val } (s.groveAt a)
  s1.onQuad q fun k => { k with
    switch := dest, outSince := a, held := some (a, none), isolated := s1.events.seq
    heldPast := match k.held with
      | some (x, some e) => k.heldPast ++ [(x, e)]
      | _ => k.heldPast }

/-- A switch returns to CONNECT; held words end some ticks later (R229, R234, R237). -/
def State.returnSwitch (s : State) (q : Fin 4) (after : Nat) : State :=
  s.onQuad q fun k =>
    if k.switch = .connect then k
    else { k with
      switch := .connect, outTicks := k.outTicks + (s.now - k.outSince)
      held := k.held.map fun (a, e) => (a, some (e.getD (s.beatFrom (s.now + after)))) }

/-- All calibration switches return to CONNECT (R412, R476, R484). -/
def State.returnAll (s : State) : State := s.each four fun s q => s.returnSwitch q (2 * ms)

/-- The quad after a given one that a run names and has not run. -/
def CalRun.next (r : CalRun) (after : Option Nat) : Option Nat :=
  lowest 4 fun q => bit r.mask q && r.outcomes.getD q 0xFFFF = 0xFFFF && after.all (· < q)

/-- A run goes on with its next quad, or its last quad has ended (R229, R235). -/
def State.nextQuad (s : State) : State :=
  match s.cal.run with
  | none => s
  | some r =>
    match r.next none with
    | some q => s.onCal fun c => { c with runs := c.runs + 1, run := some { r with cur := some (q, .leakage, s.now) } }
    | none => s.onCal fun c => { c with run := some { r with cur := none, ended := some s.now } }

/-- The outcome of a quad of the run. -/
def CalRun.outcome (r : CalRun) (q reason : Nat) : CalRun := { r with outcomes := r.outcomes.set q reason }

/-- A quad of the run in progress leaves its phase before COMPARE (R234); after that, RESTORE runs to its end. -/
def CalRun.stopCur (r : CalRun) (now : Nat) : CalRun :=
  match r.cur with
  | none => if r.ended.isSome then r else { r with drain := none, ended := some now }
  | some (q, p, t) =>
    { r with cur := some (match p with
      | .compare => (q, .compare, t)
      | .restore => (q, .restore, t)
      | .stopping => (q, .stopping, t)
      | .stopHeld => (q, .stopHeld, t)
      | _ => (q, .stopping, now)) }

/-- Every quad of a run that has no outcome, or the one now run, gets one. -/
def CalRun.outcomeRest (r : CalRun) (reason : Nat) : CalRun :=
  { r with outcomes := (List.range 4).map fun q =>
      if bit r.mask q && (r.outcomes.getD q 0xFFFF = 0xFFFF || r.cur.any fun (c, _, _) => c = q) then reason else r.outcomes.getD q 0xFFFF }

/-- A run is aborted (R234): it creates no set. -/
def State.abortRun (s : State) : State := s.onCal fun c => { c with run := c.run.map fun r =>
  if r.aborted then r else { ((r.outcomeRest 0x0808).stopCur s.now) with aborted := true } }

/-- A self-calibration in MEASURE has lost its reference (R479): its quads end with CAL_NO_REFIN. -/
def SelfCal.noRefin (c : SelfCal) : SelfCal := if c.phase = .measure then { c with outcomes := List.replicate 4 0x0805 } else c

/-- A run loses REFIN (R234, R479): the quad now run and every later one end with CAL_NO_REFIN. -/
def State.runNoRefin (s : State) : State := s.onCal fun c => { c with
  self := c.self.map SelfCal.noRefin
  run := c.run.map fun r => if r.aborted || r.ended.isSome || r.drain.isSome then r else (r.outcomeRest 0x0805).stopCur s.now }

/-- Groups closed by a run that brings no changeover reopen at their normal re-arm sample (R228). -/
def State.reopenRun (s : State) (mask : Nat) : State :=
  s.each four fun s g => s.onGroup g fun k => if k.closed &&& mask = 0 then k else k.release mask 0 s.now

/-- Some group that the run has closed is still FILLING (R228). -/
def State.draining (s : State) (mask : Nat) : Bool := four.any fun g => (s.groups.get g).closed &&& mask ≠ 0 && (s.groups.get g).state = .filling

/-- Every named quad of a run ends with an outcome, and none was isolated (R228). -/
def State.endDrain (s : State) (r : CalRun) : State :=
  (s.onCal fun c => { c with run := some { (r.outcomeRest 0x080B) with drain := none, ended := some s.now } }).reopenRun r.mask

/-- INTERRUPT is selected for a group (R226). -/
def State.interrupts (s : State) (g : Nat) : Bool := flag s.cal.cfg g
/-- CALDC_UV (R226). -/
def calDc (c : BitVec 64) : Nat := fld c 32 32
/-- BG_PERIOD in ms (R226). -/
def bgPeriod (c : BitVec 64) : Nat := fld c 16 16
/-- BG_ENTRY is GATHER (R226). -/
def bgGathers (c : BitVec 64) : Bool := fld c 8 2 = 1

/-- Quads of a mask whose channels a group owns, as a mask. -/
def Group.ownedQuads (g : Group) (mask : Nat) : Nat := maskOf 4 fun q => bit mask q && bits g.channels (4 * q) 4 ≠ 0

/-- A run begins (R227, R228): INTERRUPT groups are closed, and drained. -/
def State.startRun (s : State) (mask : Nat) (proceed : Bool) (ticket : Nat) : State :=
  let s0 := s.decideTo s.now
  let gs := four.filter fun g => s0.interrupts g.val && (s0.groups.get g).live && (s0.groups.get g).ownedQuads mask ≠ 0
  let s1 := s0.each gs fun s g => s.closeGroup g ((s.groups.get g).ownedQuads mask) s.now
  let r : CalRun := { mask := mask, proceed := proceed, ticket := ticket, drain := some s.now, cur := none,
                      outcomes := List.replicate 4 0xFFFF, points := [], aborted := false, ended := none, leaky := 0 }
  let s2 := s1.onCal fun c => { c with run := some r }
  if gs.any fun g => (s1.groups.get g).state = .filling && (s1.groups.get g).unbounded then s2.endDrain r else s2

/-- The measured point of a quad as it enters a set (R235, R229, R231): flags, source levels, ticks, bank numbers, other fusion modes' phases and VALID bits, and the live slice coefficients. -/
def State.formPoint (s : State) (q : Fin 4) (base : Option Bytes) (m : Bytes) (untraced leaky : Bool) (tick : Nat) : Bytes :=
  let t := pointTemp m
  let ps := (base.map fun b => setSection b q.val).getD []
  let levels := (List.range 4).map fun i => leBytes 4 (match untraced, bracket ps t with
    | true, some (a, b) => (betweenPoints a b t (leAt a (4 + 4 * i) 4) (leAt b (4 + 4 * i) 4)).toNat
    | _, _ => leAt m (4 + 4 * i) 4)
  let fu := (s.quads.get q).fusion
  let bank (j : Nat) : Bytes :=
    let r := bankRecord m j
    let k := (sectionCoef ps t j).getD { BankCoef.unity with valid := 0 }
    let own := coefOf r
    let f2 := if fu = 1 then (own.phaseF2, true) else (k.phaseF2, bit k.valid 16)
    let f4 := if fu = 2 then (own.phaseF4, true) else (k.phaseF4, bit k.valid 17)
    leBytes 1 (4 * q.val + j) ++ zeros 3 ++ (r.drop 4).take 36 ++ leBytes 4 (unsigned 32 f2.1) ++ leBytes 4 (unsigned 32 f4.1) ++
      leBytes 4 (0x4FFFF + bAt f2.2 16 + bAt f4.2 17) ++ zeros 12 ++ (r.drop 64).take 384 ++
      ((s.banks.get (Fin.ofNat 16 (4 * q.val + j))).live.flatMap fun c =>
        let u := liveUnits c
        leBytes 2 (unsigned 16 u.offset) ++ leBytes 2 (unsigned 16 u.gain) ++ leBytes 2 (unsigned 16 u.skew) ++ zeros 2) ++ zeros 56
  leBytes 2 (leAt m 0 2) ++ leBytes 1 (bAt untraced 0 + bAt leaky 1) ++ zeros 1 ++ levels.flatten ++ leBytes 8 tick ++ zeros 36 ++
    ((List.range 4).map bank).flatten

/-- A point placed in a section (R235): it replaces the nearest point within 2.0 °C, or the nearest of eight, or is inserted in order. -/
def placePoint (ps : List Bytes) (p : Bytes) : List Bytes :=
  let t := pointTemp p
  let near := ps.zipIdx.foldl (fun (best : Option (Nat × Nat)) (x, i) =>
    let d := (pointTemp x - t).natAbs
    match best with
    | some (e, _) => if d < e then some (d, i) else best
    | none => some (d, i)) none
  match near with
  | some (d, i) =>
    if d ≤ 32 || 8 ≤ ps.length then ps.set i p
    else ps.filter (fun x => pointTemp x < t) ++ [p] ++ ps.filter fun x => t < pointTemp x
  | none => [p]

/-- The byte stream of a set (R246). -/
def setBytes (sections : List (List Bytes)) (id tick caldc : Nat) : Bytes :=
  let all := sections.flatten
  withCrc (leBytes 2 0x5343 ++ leBytes 1 1 ++ leBytes 1 (bAt (all.any pointUntraced) 0 + bAt (all.any pointLeaky) 1) ++ leBytes 4 id ++
    leBytes 8 tick ++ leBytes 4 caldc ++ leBytes 4 (64 + 3136 * all.length + 4) ++ (sections.map fun ps => leBytes 1 ps.length).flatten ++
    zeros 36 ++ all.flatten)

/-- The set that measured points make of a base set (R235, R471); none where there is no base and not every quad succeeded. -/
def State.makeSet (s : State) (base : Option Bytes) (points : List (Nat × Bytes)) (leaky caldc : Nat) : Option Bytes :=
  if points.isEmpty || (base.isNone && points.length < 4) then none
  else
    let sections := four.map fun q =>
      let ps := (base.map fun b => setSection b q.val).getD []
      match points.find? fun (n, _) => n = q.val with
      | some (_, m) => placePoint ps (s.formPoint q base m (caldc = 0) (bit leaky q.val) s.grove64)
      | none => ps
    some (setBytes sections s.cal.nextId s.grove64 caldc)

/-- Banks of successful quads count a calibration (R235). -/
def State.countCal (s : State) (qs : List Nat) : State :=
  s.each qs fun s q => s.each (ofQuad (Fin.ofNat 4 q)) fun s b => s.onBank b fun k => { k with calCount := (k.calCount + 1) % 2 ^ 32, lastFgTick := s.grove64 }

/-- A run's results are formed and CAL_DONE is posted (R235). -/
def State.formResults (s : State) (r : CalRun) : State :=
  let good := (List.range 4).filter fun q => r.outcomes.getD q 0xFFFF = 0
  let caldc := calDc s.cal.cfg
  let base := match s.cal.pending with
    | some p => some p
    | none => s.cal.active
  let set := if r.aborted then none else s.makeSet base (r.points.filter fun (q, _) => good.contains q) r.leaky caldc
  let bad := ((List.range 4).filter fun q => bit r.mask q && r.outcomes.getD q 0xFFFF ≠ 0).length
  let s1 := (s.onCal fun c => { c with run := none, failures := c.failures + bad }).each four fun s q =>
    if bit r.mask q.val then s.onQuad q fun k => { k with lastOutcome := r.outcomes.getD q.val 0xFFFF } else s
  let s2 := s1.countCal good
  let s3 := s2.raise {
    code := 0x0880, ticket := r.ticket
    vals := [(r.outcomes.zipIdx.map fun (o, i) => o <<< (16 * i)).foldl (· + ·) 0, (set.map setIdOf).getD 0, s.grove64] }
  match set with
  | some b => s3.setPends b
  | none => s3.reopenRun r.mask

/-- STATE 0x0014 for the foreground run or self-calibration in progress (R338). -/
def State.calRunState (s : State) : Reply :=
  let q := (s.cal.run.bind fun r => lowest 4 (bit r.mask)).getD 0
  Reply.state 0x0014 (stateDetail 3 q 0 (s.calStatus (Fin.ofNat 4 q) >>> 29))

/-- A foreground run, or the self-calibration, is in progress (R226, R250, R469). -/
def State.calBusy (s : State) : Bool := s.cal.run.isSome || s.cal.self.isSome

/-- CAL_CONFIG (R226, R376). -/
def cardCalConfig (b : Bytes) : Card where
  opcode := 0x0801
  states := setS
  reservedOk := zeroFields (structAt 64 b 0) [(10, 6), (4, 4)]
  sizeOk := b.length = 8
  checks := fun s =>
    let c := structAt 64 b 0
    let hit := maskOf 4 fun g => (vnat s.groups g).live && flag c g ≠ flag s.cal.cfg g
    let g := (lowest 4 (bit hit)).getD 0
    firstOf [(s.calBusy, s.calRunState), (hit ≠ 0, Reply.state 0x0011 (stateDetail 1 g hit (vnat s.groups g).state.code)),
      ((calDc c ≠ 0 && (calDc c < 400000 || 600000 < calDc c)) || bgPeriod c < 10 || 2 ≤ fld c 8 2, Reply.refused 0x0802)]
  run := doOk fun s => s.onCal fun c => { c with cfg := structAt 64 b 0 }

/-- The main loop is locked to REFIN (R227). -/
def State.refinLocked (s : State) : Bool := s.clock.loop = .locked && planSource s.clock.plan = 1

/-- CAL_RUN (R227, R376). -/
def cardCalRun (b : Bytes) : Card where
  opcode := 0x0802
  states := [4, 5, 6, 9]
  reservedOk := onlyBits (word b 0) 0x10F
  sizeOk := b.length = 4
  busy := fun s => firstOf [(s.cal.run.isSome, Reply.busy 0x080A)]
  checks := fun s =>
    let qs := four.filter fun q => bit (word b 0) q.val
    firstOf [(qs.isEmpty, Reply.refused 0x0802), (qs.any (fun q => (s.quads.get q).state ≠ .ready), Reply.refused 0x0203),
      (qs.any (fun q => (ofQuad q).any fun k => (s.banks.get k).link.faulted), Reply.refused 0x0204), (!s.refinLocked, Reply.refused 0x0805)]
  run := fun h s => (s.startRun (bits (word b 0) 0 4) (bit (word b 0) 8) h.ticket.toNat, .done Reply.deferred)

/-- CAL_ABORT (R234, R376). -/
def cardCalAbort (b : Bytes) : Card where
  opcode := 0x0803
  states := [8]
  sizeOk := b.length = 0
  run := doOk State.abortRun

/-- CAL_SET_UPLOAD (R250, R376). -/
def cardCalSetUpload (b : Bytes) : Card where
  opcode := 0x0804
  states := setS
  sizeOk := b.length % 4 = 0 && 8 ≤ b.length && b.length ≤ 4036
  checks := fun s => firstOf [(s.calBusy, s.calRunState), (word b 0 % 4 ≠ 0 || 131072 < word b 0 + (b.length - 4), Reply.refused 0x0802)]
  run := doOk fun s => s.onCal fun c => { c with staging := putSparse c.staging (word b 0) (b.drop 4) }

/-- The staged bytes of a set: as many as its header says. -/
def State.staged (s : State) : Bytes := getSparseN s.cal.staging 0 (min 131072 (ofLe (getSparseN s.cal.staging 20 4)))

/-- CAL_SET_COMMIT (R250, R376): the set stored carries its assigned identifier and a valid CRC (R246). -/
def cardCalSetCommit (b : Bytes) : Card where
  opcode := 0x0805
  states := setS
  sizeOk := b.length = 0
  checks := fun s => firstOf [(s.calBusy, s.calRunState), (!setValid s.staged sinTable, Reply.refused 0x0809)]
  run := fun _ s =>
    let x := putBytes s.staged 4 (leBytes 4 s.cal.nextId)
    (s.setPends (withCrc (x.take (x.length - 4))), .done (Reply.ok (leBytes 4 s.cal.nextId)))

/-- Bytes rounded up to a whole word with zero bytes (R377). -/
def padWords (b : Bytes) : Bytes := b ++ zeros ((4 - b.length % 4) % 4)

/-- CAL_SET_DOWNLOAD (R251, R376, R377). -/
def cardCalSetDownload (b : Bytes) : Card where
  opcode := 0x0806
  states := setS
  reservedOk := leAt b 1 3 == 0
  sizeOk := b.length = 12
  checks := fun s =>
    let set := if leAt b 0 1 = 0 then s.cal.active else s.cal.pending
    let len := word b 2
    firstOf [(1 < leAt b 0 1 || set.isNone || word b 1 % 4 ≠ 0 || (set.map List.length).getD 0 ≤ word b 1 || len % 4 ≠ 0 || len < 4 || 4032 < len,
      Reply.refused 0x0802)]
  run := fun _ s =>
    let set := (if leAt b 0 1 = 0 then s.cal.active else s.cal.pending).getD []
    (s, .done (Reply.ok (leBytes 4 set.length ++ padWords ((set.drop (word b 1)).take (word b 2)))))

/-- CAL_SLICE_QUERY (R251, R376, R377). -/
def cardCalSliceQuery (b : Bytes) : Card where
  opcode := 0x0807
  states := setS
  reservedOk := selOk b
  sizeOk := b.length = 4
  checks := fun _ => firstOf [(16 ≤ selIndex b, Reply.refused 0x0802)]
  run := fun _ s => (s, .done (Reply.ok ((s.banks.get (selFin 16 b)).live.flatMap fun c =>
    let u := liveUnits c
    leBytes 2 (unsigned 16 u.offset) ++ leBytes 2 (unsigned 16 u.gain) ++ leBytes 2 (unsigned 16 u.skew) ++ zeros 2)))

end Sys2Proof.Machine
end

