-- ==== Sys2Proof/Machine/ArmOps.lean ====
section
/-!
DEFINITION. Arming and stopping a capture group (R104, R105, R170, R241, R372), and their cards.
-/
namespace Sys2Proof.Machine

/-- The pending changes of an arming group's quads enter at a beat boundary (R241): the joint set where it can, and the changes of quads that no group uses; and whether any did. -/
def State.applyPending (s : State) (g : Fin 4) (x : Nat) : State × Bool :=
  let qs := four.filter fun q => (ofQuad q).any fun i => bit (s.groups.get g).channels i.val
  if s.setReady then (s.enterSet x, true)
  else
    let ready := qs.filter fun q => s.bgReady q && (s.usersOf q).isEmpty
    (s.each ready fun s q => s.enterBg q x, !ready.isEmpty)

/-- The tick of S0 (R104, R241): the first sample that reaches capture after now, of every channel of the group, and not before a changeover made for the arm. -/
def State.firstSample (s : State) (g : Fin 4) (from_ : Nat) : Nat :=
  ((s.groups.get g).inputs.flatMap fun i => (s.feeding i).map fun b => (s.banks.get b).link.start).foldl max
    (max (max (s.now - 1279) s.clock.firstDelivered) from_)

/-- Quads for which a group armed now is closed from its S0 (R228, R242): those of a run in progress where it has INTERRUPT, and those with an open gather. -/
def State.closedFromStart (s : State) (g : Fin 4) : Nat :=
  let x := s.groups.get g
  (if s.interrupts g.val then (s.cal.run.map fun r => x.ownedQuads r.mask).getD 0 else 0) |||
    x.ownedQuads (maskOf 4 fun q => (vnat s.quads q).gather.isSome)

/-- A group starts its ring (R104): states, counters since arm, segments, slots and stream positions start anew. -/
def Group.start (x : Group) (f s0 closed : Nat) : Group :=
  { x with
    overflow := false, wrapped := false, cause := .none, nextSegment := 0, f := f, s0 := s0, everArmed := true, armWait := none
    stage := if combArmMode x.comb = 0 then .firer else .armer
    firerFrom := 0, delayFrom := 0, delayLeft := 0, delayed := none, rearm := some (f * s0), postEnd := some 0, hold := .none, ending := none
    closed := closed, closedAt := s0, reopen := none, closedPast := [], closeAtFill := 0, records := [], missedLog := [], logged := 0
    streamWritten := 0, streamDrained := 0, streamReserved := 0
    cnt := { armRefusals := x.cnt.armRefusals, streamOverflows := x.cnt.streamOverflows } }

/-- A group's accumulation starts (R153, R156, R162). -/
def Acc.start (a : Acc) (seq : Nat) : Acc :=
  { a.newCycle 0 with stopped := false, occupied := [], snaps := [], lastBegun := none, nextSeq := seq, lost := none, cnt := {} }

/-- An arm that has passed the check commits (R104, R241, R372): the group's state, and the result of its reply. -/
def State.armNow (s : State) (g : Fin 4) : State × Bytes :=
  let beat := s.beatFrom (s.now + 1)
  let p := (s.decideTo s.now).applyPending g beat
  let s1 := p.1
  let s0 := s1.firstSample g (if p.2 then beat else 0)
  let s2 := s1.onGroup g fun k => k.start (s1.groupRate g) s0 (s1.closedFromStart g)
  let s3 := (s2.onAcc g fun a => a.start (s2.groups.get g).nextSeq).onRing g fun r => { r with marks := [], streamCovered := 0 }
  let x := s2.groups.get g
  let s4 := s3.onMem fun m => { m with
    open_ := (x.base, x.base + x.ringBytes x.f) :: subSpan m.open_ x.base (x.base + x.ringBytes x.f)
    spoiled := if bit m.spoiled g.val then m.spoiled - 2 ^ g.val else m.spoiled }
  (s4.setGroupState g .armed, leBytes 8 (s4.groveAt s0) ++ leBytes 8 (s4.groups.get g).nextSeq)

/-- A placement is reserved at the examination of an arm (R149, R390). -/
def State.reserve (s : State) (g : Fin 4) (store : Option Nat) : State :=
  s.onAcc g fun a =>
    if a.mode = 0 then a.release
    else match store with
      | some b => { a with placed := .store, block := b, blocks := ceilDiv (accCount (s.groups.get g) a) 512 }
      | none => { a with placed := .spilled, block := 0x7FFF, blocks := 0 }

/-- The group of a GROUP_ARM word. -/
def armGroup (b : Bytes) : Nat := bits (word b 0) 0 8

/-- A GROUP_ARM that passed its checks is executed (R104, R170, R372): its reply waits while stripes are re-initialised. -/
def State.armRun (s : State) (g : Fin 4) (path : Path) : State × Ran :=
  if (s.groups.get g).armWait.isSome then (s, .held (.arm g.val))
  else
    let s1 := s.reserve g (match s.groupCheck g with
      | .ok p => p
      | .error _ => none)
    if (s.regrains (s1.holds g) (s.groups.get g).grain).isEmpty then
      let r := s1.armNow g
      (r.1, .done (Reply.ok r.2))
    else (s1.onGroup g fun x => { x with armWait := some { path := path, reinit := true } }, .held (.arm g.val))

/-- STREAM segments that touch a stripe become EMPTY (R294, R170). -/
def Stim.emptyStripes (q : Stim) (l : List Nat) : Stim :=
  { q with ready := q.ready.filter fun i => !(q.segs.any fun (j, d) => j = i &&
      (stripesOf (seqBase q.cfg + fld d 88 40) (16 * fld d 23 21)).any l.contains) }

/-- The stripes of a waiting arm or enable are re-initialised (R170): their content is gone and they have their new grain. -/
def State.regrain (s : State) (ranges : List (Nat × Nat)) (grain : Nat) : State :=
  let l := s.regrains ranges grain
  (s.onMem fun m => { (l.foldl (fun m k => (m.clearStripe k).setGrain k grain) m) with regrains := m.regrains + l.length }).onStim (·.emptyStripes l)

/-- GROUP_ARM with ENABLE = 1 (R104, R371, R372, R391). -/
def cardGroupArm (b : Bytes) : Card where
  opcode := 0x0403
  states := setW
  reservedOk := onlyBits (word b 0) 0x3FF
  sizeOk := b.length = 4
  checks := fun s =>
    let g := Fin.ofNat 4 (armGroup b)
    let st := (s.groups.get g).state
    orElse' (firstOf [(armGroup b < 4 && st ≠ .configured && st ≠ .done, s.groupState g), (4 ≤ armGroup b, Reply.refused 0x0409)])
      (match s.groupCheck g with
        | .ok _ => none
        | .error r => some r)
  run := fun h s => s.armRun (Fin.ofNat 4 (armGroup b)) h.path
  onRefused := fun r s => if r.status = 3 ∧ r.reason ≠ 0x0409 then
      s.onGroup (Fin.ofNat 4 (armGroup b)) fun x => { x with cnt := { x.cnt with armRefusals := x.cnt.armRefusals + 1 } } else s

/-- A group is stopped (R105): the stop governs events from the first tick that reaches the combiner after now; without FINISH the record in fill ends with the last sample at capture. -/
def State.stopGroup (s : State) (g : Fin 4) (finish : Bool) : State :=
  let s0 := s.decideTo s.now
  (s0.onGroup g fun x =>
    if !x.live then x
    else
      let w := x.windDown .stopped (x.inProgress s.now).isSome
      if finish then w
      else
        let flag := if x.unbounded then 0 else 8
        w.onNewest fun r => r.cut (atCapture r.f s.now) flag r.after).tryDone g

/-- GROUP_ARM with ENABLE = 0 (R105, R371, R372). -/
def cardGroupStop (b : Bytes) : Card where
  opcode := 0x0403
  states := setW
  reservedOk := onlyBits (word b 0) 0x3FF
  sizeOk := b.length = 4
  checks := fun _ => firstOf [(4 ≤ armGroup b, Reply.refused 0x0409)]
  run := fun _ s =>
    let g := Fin.ofNat 4 (armGroup b)
    let live := (s.groups.get g).live
    (s.stopGroup g (bit (word b 0) 9), .done (Reply.ok (leBytes 8 (if live then s.groveAt (s.now - 1375) else 0))))

end Sys2Proof.Machine
end

