-- ==== Sys2Proof/Machine/ReadoutOps.lean ====
section
/-!
DEFINITION. Readout (06): ring counts and doorbells, descriptors, the delivery of blocks, completion entries and their posting, and interrupts.
-/
namespace Sys2Proof.Machine

/-- Host address of a completion ring (R198, R332). -/
def cplBase (c : BitVec 256) : Nat := fld c 128 64
/-- Entries of a completion ring (R198, R332). -/
def cplSize (c : BitVec 256) : Nat := 2 ^ fld c 120 4
/-- Entries of a descriptor or command ring (R198, R332). -/
def descSize (c : BitVec 256) : Nat := 2 ^ fld c 124 4
/-- MSIX_VECTOR (R198, R332). -/
def ringVector (c : BitVec 256) : Nat := fld c 109 11
/-- IRQ_COUNT (R198, R332). -/
def irqCount (c : BitVec 256) : Nat := fld c 80 16
/-- IRQ_TIMER in µs (R198, R332). -/
def irqTimer (c : BitVec 256) : Nat := fld c 64 16
/-- FLUSH_TIMER in µs (R198). -/
def flushTimer (c : BitVec 256) : Nat := fld c 48 16
/-- ENABLE of a group's rings (R198). -/
def Ring.on (r : Ring) : Bool := flag r.cfg 2
/-- DELIVERY is FOLLOW (R198). -/
def Ring.follows (r : Ring) : Bool := fld r.cfg 0 2 = 1

/-- The difference of two free-running 32-bit counts (R199). -/
def count32 (a b : Nat) : Nat := (a + 2 ^ 32 - b % 2 ^ 32) % 2 ^ 32

/-- A tail doorbell of R199 is one the engine takes: it moves forward, and no more entries are posted than the ring has. -/
def tailOk (head tail size v : Nat) : Bool := count32 tail head ≤ count32 v head && count32 v head ≤ size

/-- A CPL_HEAD doorbell of R199 is one the engine takes. -/
def headOk (r : CplRing) (v : Nat) : Bool := count32 v r.head ≤ count32 r.tail r.head

/-- A doorbell write is ignored and counted (R199, R220). -/
def State.badDoorbell (s : State) : State := s.onHost fun h => { h with doorbellErrors := h.doorbellErrors + 1 }

/-- A completion ring has no room (R199). -/
def CplRing.full (r : CplRing) (c : BitVec 256) : Bool := cplSize c ≤ count32 r.tail r.head

/-- The 128 bytes of a completion entry (R200, R209). -/
def Completion.entry (c : Completion) (ring : Nat) (cfg : BitVec 256) (r : CplRing) : Bytes :=
  leBytes 1 c.kind.code ++ leBytes 1 (bAt (r.tail / cplSize cfg % 2 = 0) 0 + bAt c.bad 1 + bAt c.noData 2) ++ leBytes 1 ring ++
    leBytes 1 c.status ++ leBytes 4 c.descFirst ++ leBytes 4 c.descCount ++ leBytes 4 c.dataBlocks ++ leBytes 8 (r.seq + 1) ++
    leBytes 4 c.firstBad ++ leBytes 4 c.badCount ++ c.body

/-- A ring after an entry was written (R199, R217). -/
def CplRing.wrote (r : CplRing) (now : Nat) : CplRing :=
  { r with tail := (r.tail + 1) % 2 ^ 32, seq := r.seq + 1, unsignalled := r.unsignalled + 1, foundFull := false
           oldest := if r.unsignalled = 0 then now else r.oldest }

/-- A ring raises its vector when its count is reached or a descriptor asks for it (R217); IRQ_COUNT 0 disables its interrupts. -/
def CplRing.signals (r : CplRing) (cfg : BitVec 256) (irqNow : Bool) : Bool := irqCount cfg ≠ 0 && (irqNow || irqCount cfg ≤ r.unsignalled)

/-- A completion is written to a ring with its entry and, where it is due, the interrupt behind it (R200, R213, R217): the ring afterwards, and the writes to the host link, newest first. -/
def CplRing.write (r : CplRing) (c : Completion) (ring : Nat) (cfg : BitVec 256) (now : Nat) : CplRing × List HostWrite :=
  let e := HostWrite.entry ring (r.tail % cplSize cfg) (c.entry ring cfg r)
  let r1 := r.wrote now
  if r1.signals cfg c.irqNow then ({ r1 with unsignalled := 0 }, [.msix (ringVector cfg), e]) else (r1, [e])

/-- The engine found a ring full with a completion to write: counted once for the completion (R220). -/
def CplRing.wait (r : CplRing) : CplRing := if r.foundFull then r else { r with foundFull := true, fullWaits := r.fullWaits + 1 }

/-- A ring of a group gets a completion, or finds itself full; then is what else follows from the writing. -/
def State.postGroup (s : State) (g : Fin 4) (c : Completion) (then' : State → State) : State :=
  let r := s.rings.get g
  if r.cpl.full r.cfg then s.onRing g fun r => { r with cpl := r.cpl.wait }
  else
    let w := r.cpl.write c g.val r.cfg s.now
    then' ((s.onRing g fun r => { r with cpl := w.1 }).linkOut w.2)

/-- Ring 4 gets a completion, or finds itself full. -/
def State.post4 (s : State) (c : Completion) (then' : State → State) : State :=
  if s.ring4.full s.host.ring then s.onRing4 CplRing.wait
  else
    let w := s.ring4.write c 4 s.host.ring s.now
    then' ((s.onRing4 fun _ => w.1).linkOut w.2)

/-- A CMD_RING_SETUP that was executed takes effect once no earlier reply waits for the old ring (R332): counts at zero, the PCIe tag table cleared. -/
def State.applySetup (s : State) : State :=
  match s.host.setup with
  | none => s
  | some c =>
    if s.ringOn && !s.ring4.waiting.isEmpty then s
    else ((s.onPath .pcie fun p => { p with tags := [] }).onHost fun h => { h with ring := c, setup := none, cmdTail := 0, cmdHead := 0 }).onRing4
      fun r => { CplRing.reset with waiting := r.waiting, fullWaits := r.fullWaits }

/-- A descriptor's fields (R201). -/
structure DescFields where
  addr : Nat
  length : Nat
  kind : Nat
  checkSeq : Bool
  irqNow : Bool
  slot : Nat
  segment : Nat
  firstBlock : Nat
  expectSeq : Nat

/-- A descriptor read from its 32 bytes (R201). -/
def descOf (b : Bytes) : DescFields where
  addr := leAt b 0 8
  length := leAt b 8 4
  kind := leAt b 12 1
  checkSeq := bit (leAt b 13 1) 0
  irqNow := bit (leAt b 13 1) 1
  slot := leAt b 14 2
  segment := leAt b 16 3
  firstBlock := leAt b 20 4
  expectSeq := leAt b 24 8

/-- A descriptor cannot be executed (R202). -/
def DescFields.invalid (d : DescFields) (follows : Bool) : Bool :=
  !(d.kind = 1 || d.kind = 2 || d.kind = 3) || d.length % 2048 ≠ 0 || d.length = 0 || d.addr % 64 ≠ 0 || (d.kind = 1 && !follows)

/-- A completion of a descriptor of a group's ring joins those that wait. -/
def State.toGroup (s : State) (g : Fin 4) (c : Completion) : State :=
  s.onRing g fun r => { r with cpl := { r.cpl with waiting := r.cpl.waiting ++ [c] } }

/-- A FETCH completion (R209, R210). -/
def Desc.fetchCompletion (d : Desc) (status : Nat) : Completion :=
  { kind := .fetch, status := status, bad := d.badCount ≠ 0, noData := false, descFirst := d.count, descCount := 1, dataBlocks := d.filled
    firstBad := d.firstBad, badCount := d.badCount, irqNow := d.irqNow, afterEvent := 0
    body := d.header ++ leBytes 1 (if d.use = .fetchSnapshot then 3 else 2) ++ zeros 3 ++ leBytes 4 d.target ++ leBytes 4 d.firstBlock ++ zeros 20 }

/-- A decimation structure as a final record header gives it (R120, R129). -/
def headerDecim (h : Bytes) : BitVec 128 :=
  let m := leAt h 3 1
  if m % 16 = 4 then BitVec.ofNat 128 (4 + at' (leAt h 28 4) 96) else BitVec.ofNat 128 (m % 32 + at' (leAt h 28 4) 64)

/-- Inputs named by a header's CHANNEL_MASK. -/
def headerWidth (h : Bytes) : Nat := (maskList 16 (leAt h 4 2)).length

/-- Blocks of the target of a final header (R123, R125, R158). -/
def headerBlocks (h : Bytes) (snapshot : Bool) : Nat :=
  if snapshot then
    ceilDiv (64 + headerWidth h * (if leAt h 3 1 % 4 = 3 then alignUp (2 * leAt h 36 2 * leAt h 38 2) 4 else 4 * leAt h 32 4)) 2044
  else recordBlocks (headerDecim h) (headerWidth h) (leAt h 32 8)

/-- STATUS of a fetch that delivers nothing, as the header read gives it (R208): the header's MAGIC and CRC, then its SEQ, then FIRST_BLOCK. -/
def fetchStatus (h : Bytes) (d : DescFields) (snapshot : Bool) : Nat :=
  let magic := leAt h 0 2
  if magic = 0 || !crcOk h then 2
  else if magic = 0x5050 || magic = 0x5140 then 1
  else if !snapshot && d.checkSeq && leAt h 8 8 ≠ d.expectSeq then 3
  else if headerBlocks h snapshot ≤ d.firstBlock then 5
  else 0

/-- The target of a fetch exists (R208 BAD_TARGET). -/
def State.fetchTarget (s : State) (g : Fin 4) (d : DescFields) : Bool :=
  let x := s.groups.get g
  x.state ≠ .off && (if d.kind = 2 then !x.streaming && d.segment < x.segs else d.slot < (s.accs.get g).slots && (s.accs.get g).mode ≠ 0)

/-- A FETCH descriptor is executed (R206): the header is read, and with it the segment locked (R207). -/
def State.takeFetch (s : State) (g : Fin 4) (d : DescFields) (n : Nat) : State :=
  let x := s.groups.get g
  let snap : Bool := d.kind = 3
  let target := if snap then d.slot else d.segment
  let header := s.mem.get (if snap then slotBase x (s.accs.get g) d.slot else x.tableBase x.f + 64 * d.segment) 64
  let ok := s.fetchTarget g d
  let st := if ok then fetchStatus header d snap else 5
  let k : Desc := {
    use := if snap then .fetchSnapshot else .fetchRecord, count := n, addr := d.addr, room := d.length / 2048, filled := 0, irqNow := d.irqNow
    target := target, firstBlock := d.firstBlock, header := if ok then header else zeros 64, blocks := headerBlocks header snap
    firstBad := 0xFFFFFFFF, badCount := 0 }
  let s1 := s.onRing g fun r => { r with fetches := r.fetches + 1 }
  if st = 0 then s1.onRing g fun r => { r with desc := some k } else s1.toGroup g (k.fetchCompletion st)

/-- Stream blocks wait to be drained (R204). -/
def Group.streamWaits (x : Group) : Bool := x.streaming && x.streamDrained < x.streamWritten

/-- An item has blocks to deliver into buffers under FOLLOW: records and snapshots of a SEGMENTED group (R203); items of a STREAMING group have none (log 22). -/
def Item.delivers (i : Item) : Bool := i.kind ≠ .missed && i.ready.isNone && i.blocks ≠ 0

/-- The item delivered next (R203). -/
def Ring.nextItem (r : Ring) : Option Item := r.items.find? Item.delivers

/-- A BUFFER descriptor is taken when the group has data to deliver (R202 to R204). -/
def State.takeBuffer (s : State) (g : Fin 4) (d : DescFields) (n : Nat) : State :=
  let x := s.groups.get g
  let k (use : DescUse) : Desc := {
    use := use, count := n, addr := d.addr, room := d.length / 2048, filled := 0, irqNow := d.irqNow, target := 0
    firstBlock := x.streamDrained, header := [], blocks := 0, firstBad := 0xFFFFFFFF, badCount := 0 }
  if (s.rings.get g).nextItem.isNone then s.onRing g fun r => { r with desc := some (k .stream), lastBlock := s.now }
  else s.onRing g fun r => { r with
    desc := some (k .item)
    delivery :=
      let v := r.delivery.getD (Delivery.start n)
      some { v with descCount := v.descCount + 1, irqNow := v.irqNow || d.irqNow } }

/-- A port takes the descriptor at its ring's head (R202): not while its rings are disabled, nothing is posted, one is in progress, its completion ring is full (R214) or memory is unavailable (R191); and a BUFFER only when there is data. -/
def State.takeDescriptor (s : State) (g : Fin 4) (b : Bytes) : State :=
  let r := s.rings.get g
  let d := descOf b
  let n := r.descHead
  if !r.on || r.descHead = r.descTail || r.desc.isSome || r.cpl.full r.cfg || s.memBusy then s
  else
    let took := s.onRing g fun r => { r with descHead := (r.descHead + 1) % 2 ^ 32 }
    if d.invalid r.follows then
      (took.onRing g fun r => { r with descErrors := r.descErrors + 1 }).toGroup g (descErrorCompletion n 1 d.irqNow)
    else if d.kind = 1 then
      (if (s.groups.get g).streamWaits || r.nextItem.isSome then took.takeBuffer g d n else s)
    else took.takeFetch g d n

/-- A block as it is delivered (R211): as read, with its CRC inverted where its data was poisoned and the CRC happens to match. -/
def deliverBlock (b : Bytes) (bad : Bool) : Bytes :=
  if bad && crcOk b then b.take 2044 ++ leBytes 4 (0xFFFFFFFF - crc32c (b.take 2044)) else b

/-- Where the block that a port reads next lies in memory, by what its descriptor delivers. -/
def State.nextRead (s : State) (g : Fin 4) (d : Desc) : Option Nat :=
  let x := s.groups.get g
  let r := s.rings.get g
  match d.use with
  | .stream => if x.streamWaits then some (x.streamAddr x.streamDrained) else none
  | .item => match r.nextItem, r.delivery with
    | some i, some v => some (i.dataAt + 2048 * v.next)
    | _, _ => none
  | .fetchRecord => some (x.segBase x.f d.target + 2048 * (d.firstBlock + d.filled))
  | .fetchSnapshot => some (slotBase x (s.accs.get g) d.target + 2048 * (d.firstBlock + d.filled))

/-- A snapshot's slot becomes free (R156). -/
def State.freeSnap (s : State) (g : Fin 4) (slot : Nat) : State := s.onAcc g fun a => { a with occupied := a.occupied.filter (· ≠ slot) }

/-- The completion of an item whose delivery has ended (R209, R210). -/
def Item.delivered (i : Item) (v : Delivery) : Completion :=
  { kind := if i.kind = .snapshot then .snapshot else .record, status := 0, bad := v.badCount ≠ 0, noData := false, descFirst := v.descFirst
    descCount := v.descCount, dataBlocks := i.blocks, firstBad := v.firstBad, badCount := v.badCount, body := i.body ++ zeros (96 - i.body.length)
    irqNow := v.irqNow, afterEvent := i.afterEvent }

/-- The item being delivered has one more block in host memory (R203). -/
def State.itemBlock (s : State) (g : Fin 4) (bad : Bool) : State :=
  let r := s.rings.get g
  match r.nextItem, r.delivery with
  | some i, some v =>
    let v1 := { v with next := v.next + 1, firstBad := if bad && v.badCount = 0 then v.next else v.firstBad, badCount := v.badCount + (if bad then 1 else 0) }
    if v1.next < i.blocks then s.onRing g fun r => { r with
      delivery := some v1, desc := r.desc.bind fun d => if d.filled < d.room then some d else none }
    else
      let s1 := s.onRing g fun r => { r with
        delivery := none, desc := none, items := r.items.map fun j => if j = i then { j with ready := some (i.delivered v1) } else j }
      if i.kind = .snapshot then s1.freeSnap g i.index else s1
  | _, _ => s

/-- A STREAM completion (R204, R209, R210). -/
def Desc.streamCompletion (d : Desc) : Completion :=
  { kind := .stream, status := 0, bad := d.badCount ≠ 0, noData := false, descFirst := d.count, descCount := 1, dataBlocks := d.filled
    firstBad := d.firstBad, badCount := d.badCount, body := leBytes 8 d.firstBlock ++ zeros 88, irqNow := d.irqNow, afterEvent := 0 }

/-- The stream buffer in progress is completed (R204). -/
def State.closeStream (s : State) (g : Fin 4) (d : Desc) : State :=
  (s.onRing g fun r => { r with desc := none }).toGroup g d.streamCompletion

/-- A stream block is in host memory: its position in the stream area is free (R204), and what it was is remembered for its record's completion. -/
def State.streamBlock (s : State) (g : Fin 4) (d : Desc) (bad : Bool) : State :=
  let n := (s.groups.get g).streamDrained
  let s1 := (s.onGroup g fun x => { x with streamDrained := n + 1 }).onRing g fun r => { r with
    lastBlock := s.now, marks := r.marks ++ [{ number := n, desc := d.count, offset := 2048 * (d.filled - 1), bad := bad }] }
  if d.filled < d.room then s1 else s1.closeStream g d

/-- A fetched block is in host memory (R206): the fetch ends with the target's last block or with its room. -/
def State.fetchBlock (s : State) (g : Fin 4) (d : Desc) : State :=
  if d.firstBlock + d.filled = d.blocks then
    let s1 := (s.onRing g fun r => { r with desc := none }).toGroup g (d.fetchCompletion 0)
    if d.use = .fetchSnapshot then s1.freeSnap g d.target else s1
  else if d.filled = d.room then (s.onRing g fun r => { r with desc := none }).toGroup g (d.fetchCompletion 4)
  else s

/-- A block read by a port returns (R193, R211): read again up to three times where its CRC fails or its data is poisoned, then written to the host. damaged are the bytes as read where they are not those in memory. -/
def State.readBlock (s : State) (g : Fin 4) (damaged : Option Bytes) : State :=
  let r := s.rings.get g
  match r.desc with
  | none => s
  | some d => match s.nextRead g d with
    | none => s
    | some a =>
      let rd := s.arrayRead a 2048
      let s := rd.1
      let b := damaged.getD rd.2
      let bad := !crcOk b || s.mem.bad a 2048
      if s.memBusy then s
      else if bad && r.rereads < 3 then (s.onMem fun m => { m with rereads := m.rereads + 1 }).onRing g fun r => { r with rereads := r.rereads + 1 }
      else
        let d1 := { d with filled := d.filled + 1, firstBad := if bad && d.badCount = 0 then d.filled else d.firstBad
                           badCount := d.badCount + (if bad then 1 else 0) }
        let s1 := (s.onMem fun m => { m with blockBad := m.blockBad + (if bad then 1 else 0) }).linkOut [.data (d.addr + 2048 * d.filled) (deliverBlock b bad)]
        let s2 := s1.onRing g fun r => { r with rereads := 0, blocks := r.blocks + 1, desc := some d1 }
        match d.use with
        | .stream => s2.streamBlock g d1 bad
        | .item => s2.itemBlock g bad
        | .fetchRecord => s2.fetchBlock g d1
        | .fetchSnapshot => s2.fetchBlock g d1

/-- The stream buffer in progress of a group is completed without being full (R204): FLUSH_TIMER µs have passed with no new stream block. -/
def State.flushStream (s : State) (g : Fin 4) : State :=
  let r := s.rings.get g
  match r.desc with
  | none => s
  | some d =>
    if d.use = .stream && 0 < d.filled && !(s.groups.get g).streamWaits && r.lastBlock + flushTimer r.cfg * us ≤ s.now then s.closeStream g d else s

/-- The completion of an item posted with its data left in memory (R205): a record's is built from its segment table entry, which may have been retaken. -/
def State.holdCompletion (s : State) (i : Item) : Completion :=
  let base (kind : CplType) (status : Nat) (body : Bytes) : Completion :=
    { kind := kind, status := status, bad := false, noData := true, descFirst := 0, descCount := 0, dataBlocks := 0, firstBad := 0xFFFFFFFF, badCount := 0
      body := body ++ zeros (96 - body.length), irqNow := false, afterEvent := i.afterEvent }
  match i.kind with
  | .snapshot => base .snapshot 0 i.body
  | .missed => { base .missed 0 i.body with noData := false }
  | .record =>
    if i.blocks = 0 then base .record 0 i.body
    else
      let h := s.mem.get i.tableAt 64
      if leAt h 0 2 = 0x5051 && leAt h 8 8 = i.seq then base .record 0 h
      else base .record 7 (zeros 8 ++ leBytes 8 i.seq ++ zeros 44 ++ leBytes 3 i.index)

/-- The RECORD completion of a streamed record whose blocks are in host memory (R209, R210). -/
def Ring.streamRecord (r : Ring) (i : Item) : Completion :=
  let ms := r.marks.filter fun m => i.opening ≤ m.number && m.number ≤ i.closing
  let first := ms.head?
  let bads := ms.filter StreamMark.bad
  { kind := .record, status := 0, bad := !bads.isEmpty, noData := false, descFirst := (first.map StreamMark.desc).getD 0
    descCount := (ms.map StreamMark.desc).eraseDups.length, dataBlocks := i.closing + 1 - i.opening
    firstBad := ((bads.head?).map fun m => m.number - i.opening).getD 0xFFFFFFFF, badCount := bads.length
    body := i.body ++ zeros (64 - i.body.length) ++ leBytes 4 ((first.map StreamMark.offset).getD 0) ++ zeros 28, irqNow := false, afterEvent := i.afterEvent }

/-- The completion of the first item that waits, when it can be written: its data delivered under FOLLOW (R203, R204), its data in memory under HOLD (R205). -/
def State.itemReady (s : State) (g : Fin 4) (i : Item) : Option Completion :=
  let r := s.rings.get g
  if i.kind = .missed then some (s.holdCompletion i)
  else if i.ready.isSome then i.ready
  else if i.blocks = 0 && i.kind = .record && r.follows then (if i.closing < r.streamCovered then some (r.streamRecord i) else none)
  else if r.follows && i.kind = .record then none
  else if r.follows && i.kind = .snapshot && i.blocks ≠ 0 then none
  else if s.memBusy then none
  else some (s.holdCompletion i)

/-- The first item of a group leaves its list: the marks of its stream blocks go, and a HOLD completion that found its segment retaken is counted (R205, R220). -/
def State.dropItem (s : State) (g : Fin 4) (c : Completion) : State :=
  s.onRing g fun r => { r with
    items := r.items.drop 1, overwrites := r.overwrites + (if c.status = 7 then 1 else 0)
    marks := match r.items.head? with
      | some i => if i.kind = .record && i.blocks = 0 then r.marks.filter fun m => i.closing < m.number else r.marks
      | none => r.marks }

/-- The first waiting completion of the given types leaves the list. -/
def State.dropWaiting (s : State) (g : Fin 4) (c : Completion) : State :=
  s.onRing g fun r => { r with
    cpl := { r.cpl with waiting := r.cpl.waiting.erase c }
    streamCovered := if c.kind = .stream then leAt c.body 0 8 + c.dataBlocks else r.streamCovered }

/-- A group's ring writes the next completion of a lane, if the promises allow it (R212). -/
def State.postLane (s : State) (g : Fin 4) (lane : CplLane) : State :=
  let r := s.rings.get g
  if !r.on || !s.events.pending.isEmpty then s
  else match lane with
    | .item => match r.items.head? with
      | none => s
      | some i =>
        if s.events.written < i.afterEvent || i.waitsSlew then s
        else match s.itemReady g i with
          | none => s
          | some c => s.postGroup g c fun s => s.dropItem g c
    | .stream => match r.cpl.waiting.find? fun c => c.kind = .stream with
      | none => s
      | some c => s.postGroup g c fun s => s.dropWaiting g c
    | .fetch => match r.cpl.waiting.find? fun c => c.kind = .fetch || c.kind = .descError with
      | none => s
      | some c => s.postGroup g c fun s => s.dropWaiting g c
    | .event => s

/-- The completion of an event (R210). -/
def eventCompletion (e : Event) : Completion :=
  { kind := .event, status := 0, bad := false, noData := false, descFirst := 0, descCount := 0, dataBlocks := 0, firstBad := 0xFFFFFFFF, badCount := 0
    body := e.body, irqNow := false, afterEvent := 0 }

/-- The event at the front of the queue leaves it, and held ones enter (R488). -/
def State.dropEvent (s : State) (e : Event) : State :=
  s.onEvents fun ev => Events.refill { ev with queue := ev.queue.drop 1, written := if e.remote then ev.written else e.seq }

/-- A waiting completion carries an interim notice (R325, R343). -/
def Completion.isNotice (c : Completion) : Bool := c.kind = .reply && bit (leAt c.body 1 1) 1

/-- Ring 4 writes its next event or its next reply (R212, R214): a reply only after the events that concern it, and while events are pending none but an interim notice (R488). -/
def State.postRing4 (s : State) (lane : CplLane) : State :=
  if !s.ringOn then s
  else if lane = .event then
    match s.events.queue with
    | [] => s
    | e :: _ => s.post4 (eventCompletion e) fun s => s.dropEvent e
  else
    let held := !s.events.pending.isEmpty
    match (if held then s.ring4.waiting.find? Completion.isNotice else s.ring4.waiting.head?) with
    | none => s
    | some c =>
      if s.events.written < c.afterEvent then s
      else s.post4 c fun s => (s.onRing4 fun r => { r with waiting := r.waiting.erase c }).applySetup

/-- IRQ_TIMER µs after the oldest completion that no interrupt covers, the vector is raised (R217). -/
def CplRing.timerDue (r : CplRing) (cfg : BitVec 256) (now : Nat) : Bool :=
  irqCount cfg ≠ 0 && irqTimer cfg ≠ 0 && 0 < r.unsignalled && r.oldest + irqTimer cfg * us ≤ now

/-- The interrupt timer of a ring expires (R217); ring 4 is the command and event ring. -/
def State.irqTimerDue (s : State) (ring : Fin 5) : State :=
  if h : ring.val < 4 then
    let g : Fin 4 := ⟨ring.val, h⟩
    let r := s.rings.get g
    if r.on && r.cpl.timerDue r.cfg s.now then
      (s.onRing g fun r => { r with cpl := { r.cpl with unsignalled := 0 } }).linkOut [.msix (ringVector r.cfg)]
    else s
  else if s.ringOn && s.ring4.timerDue s.host.ring s.now then
    (s.onRing4 fun r => { r with unsignalled := 0 }).linkOut [.msix (ringVector s.host.ring)]
  else s

/-- The DESC_TAIL doorbell of a group (R199). -/
def State.descTail (s : State) (g : Fin 4) (v : Nat) : State :=
  let r := s.rings.get g
  if tailOk r.descHead r.descTail (descSize r.cfg) v then s.onRing g fun r => { r with descTail := v } else s.badDoorbell

/-- The CPL_HEAD doorbell of a ring (R199). -/
def State.cplHead (s : State) (ring : Fin 5) (v : Nat) : State :=
  if h : ring.val < 4 then
    let g : Fin 4 := ⟨ring.val, h⟩
    if headOk (s.rings.get g).cpl v then s.onRing g fun r => { r with cpl := { r.cpl with head := v } } else s.badDoorbell
  else if headOk s.ring4 v then s.onRing4 (fun r => { r with head := v }) else s.badDoorbell

/-- The CMD_TAIL doorbell (R330). -/
def State.cmdTailTo (s : State) (v : Nat) : State :=
  if tailOk s.host.cmdHead s.host.cmdTail (descSize s.host.ring) v then s.onHost (fun h => { h with cmdTail := v }) else s.badDoorbell

end Sys2Proof.Machine
end

