-- ==== Sys2Proof/Machine/StimOps.lean ====
section
/-!
DEFINITION. The stimulus sequencer (09): segments, steps, decisions at decision points, playback, underruns, stops, the consistency check of R297, and the cards of the stimulus family.
DAC instant n lies at grove time 5n/3 ticks (R285).
-/
namespace Sys2Proof.Machine

/-- The tick part of an instant (R285). -/
def dacTick (n : Nat) : Nat := 5 * n / 3
/-- The fraction of an instant (R304). -/
def dacFraction (n : Nat) : Nat := if 5 * n % 3 = 0 then 0 else if 5 * n % 3 = 1 then 0x55555555 else 0xAAAAAAAB
/-- The first instant at or after a grove tick (R285). -/
def dacFrom (tick : Nat) : Nat := ceilDiv (3 * tick) 5
/-- An instant has been reached by now. -/
def State.reached (s : State) (n : Nat) : Bool := dacTick n ≤ s.grove64

/-- Fields of a list entry (R289). -/
def entFreq (e : BitVec 128) : Nat := fld e 80 48
/-- PHASE (R289). -/
def entPhase (e : BitVec 128) : Nat := fld e 48 32
/-- AMPL (R289). -/
def entAmpl (e : BitVec 128) : Nat := fld e 32 16
/-- Duration in updates (R289). -/
def entDuration (e : BitVec 128) : Nat := fld e 8 24 + 1
/-- MARKERS (R289). -/
def entMarkers (e : BitVec 128) : Nat := fld e 4 4
/-- STEP (R289). -/
def entStep (e : BitVec 128) : Bool := flag e 1
/-- ACC_CLEAR (R289). -/
def entClear (e : BitVec 128) : Bool := flag e 0

/-- KIND of a segment (R292): 0 UNDEFINED, 1 ONDIE, 2 STREAM. -/
def segKind (d : BitVec 128) : Nat := fld d 1 2
/-- ENTRIES (R292). -/
def segEntries (d : BitVec 128) : Nat := fld d 23 21
/-- BASE (R292). -/
def segFirst (d : BitVec 128) : Nat := fld d 3 20
/-- UPDATES (R292). -/
def segUpdates (d : BitVec 128) : Nat := fld d 44 44
/-- OFFSET (R292). -/
def segOffset (d : BitVec 128) : Nat := fld d 88 40

/-- Fields of a step (R295). -/
def stepSegment (t : BitVec 128) : Nat := fld t 116 12
/-- Ring size (R295). -/
def stepRing (t : BitVec 128) : Nat := fld t 112 4 + 1
/-- NEXT (R295). -/
def stepNext (t : BitVec 128) : Nat := fld t 102 10
/-- JUMP_TARGET (R295). -/
def stepTarget (t : BitVec 128) : Nat := fld t 92 10
/-- LOOPS_M1 (R295). -/
def stepLoops (t : BitVec 128) : Nat := fld t 64 24
/-- INFINITE (R295). -/
def stepInfinite (t : BitVec 128) : Bool := flag t 63
/-- END (R295). -/
def stepEnd (t : BitVec 128) : Bool := flag t 62
/-- JUMP_UNIT (R295). -/
def stepUnit (t : BitVec 128) : Nat := fld t 59 3
/-- JUMP_ON accepts unit events (R295). -/
def stepByUnit (t : BitVec 128) : Bool := flag t 57
/-- JUMP_ON accepts commands (R295). -/
def stepByCommand (t : BitVec 128) : Bool := flag t 58

/-- An element of a list indexed by number. -/
def assoc {α : Type} (l : List (Nat × α)) (i : Nat) : Option α := (l.find? fun x => x.1 = i).map Prod.snd
/-- A list indexed by number with an element replaced, in rising order. -/
def putAssoc {α : Type} (l : List (Nat × α)) (i : Nat) (v : α) : List (Nat × α) :=
  l.filter (fun x => x.1 < i) ++ (i, v) :: l.filter (fun x => i < x.1)

/-- The descriptor of a segment; UNDEFINED where none is defined. -/
def Stim.seg (q : Stim) (i : Nat) : BitVec 128 := (assoc q.segs i).getD 0
/-- A step; zero where it was never written. -/
def Stim.step (q : Stim) (i : Nat) : BitVec 128 := (assoc q.steps i).getD 0
/-- Entry e of list memory (R289). -/
def Stim.entry (q : Stim) (i : Nat) : BitVec 128 := (assoc q.list i).getD 0

/-- UPDATES of an ONDIE segment, from its entries (R292, R293). -/
def Stim.sumUpdates (q : Stim) (d : BitVec 128) : Nat :=
  segEntries d + ((q.list.filter fun (i, _) => segFirst d ≤ i && i < segFirst d + segEntries d).map fun (_, e) => entDuration e - 1).foldl (· + ·) 0

/-- A descriptor with its UPDATES field replaced. -/
def withUpdates (d : BitVec 128) (n : Nat) : BitVec 128 := BitVec.ofNat 128 (d.toNat - at' (segUpdates d) 44 + at' (n % 2 ^ 44) 44)

/-- A segment is ready to be played: ONDIE, or a STREAM segment that is READY (R294). -/
def Stim.isReady (q : Stim) (i : Nat) : Bool := segKind (q.seg i) ≠ 2 || q.ready.contains i

/-- Address of an entry of a STREAM segment (R293). -/
def Stim.entryAddr (q : Stim) (d : BitVec 128) (e : Nat) : Nat := seqBase q.cfg + segOffset d + 16 * e

/-- Entry e of a segment, wherever it lies; a free value where a write through BAR2 disturbed the segment while it was active (R293). -/
def State.segEntry (s : State) (i e : Nat) : BitVec 128 :=
  let d := s.stim.seg i
  if segKind d = 2 then
    if i ∈ s.stim.stirred then Config.stirredEntry s.freeCount i e else BitVec.ofNat 128 (ofLe (s.mem.get (s.stim.entryAddr d e) 16))
  else s.stim.entry (segFirst d + e)

/-- The running iteration as a decision that has been reached. -/
def StimCh.running (k : StimCh) : Decision :=
  { seq := k.seq, at_ := k.begun, upd := k.updates, ends := false, stopped := false, jump := false, step := k.step, iter := k.iter, seg := k.seg, ready := !k.underrun }

/-- The last boundary decided, or the running iteration. -/
def StimCh.tail (k : StimCh) : Decision := k.decided.getLast?.getD k.running

/-- The instant of the boundary after a decision. -/
def Decision.nextAt (d : Decision) (period : Nat) : Nat := d.at_ + d.upd * period
/-- The decision point of the boundary after a decision (R301): 64 updates before it. -/
def Decision.nextDp (d : Decision) (period : Nat) : Nat := d.nextAt period - 64 * period

/-- Segment of iteration i of a step (R296). -/
def stepSeg (t : BitVec 128) (i : Nat) : Nat := stepSegment t + i % stepRing t

/-- An iteration of a step that begins at a boundary. -/
def Stim.iteration (q : Stim) (seq at_ step iter : Nat) (jump : Bool) : Decision :=
  let seg := stepSeg (q.step step) iter
  { seq := seq, at_ := at_, upd := segUpdates (q.seg seg), ends := false, stopped := false, jump := jump, step := step, iter := iter, seg := seg
    ready := q.isReady seg }

/-- What happens at the boundary after a decision (R296): a stop, a jump, the next loop, the end, or NEXT. -/
def Stim.after (q : Stim) (k : StimCh) (d : Decision) (period : Nat) (byUnit : Bool) : Decision :=
  let t := q.step d.step
  let n := d.seq + 1
  let at_ := d.nextAt period
  let stop (st : Bool) : Decision :=
    { seq := n, at_ := at_, upd := 0, ends := true, stopped := st, jump := false, step := d.step, iter := d.iter, seg := d.seg, ready := true }
  if k.stopSeq = some n then stop true
  else if (k.jumpSeq = some n && stepByCommand t) || byUnit then q.iteration n at_ (stepTarget t) 0 true
  else if stepInfinite t || d.iter < stepLoops t then q.iteration n at_ d.step (d.iter + 1) false
  else if stepEnd t then stop false
  else q.iteration n at_ (stepNext t) 0 false

/-- A request time lies after one decision point and at or before another (R303). -/
def within (r prev dp : Nat) : Bool := 5 * prev < 3 * r && 3 * r ≤ 5 * dp

/-- A unit event requests the jump at the boundary after a decision (R303). -/
def Stim.unitJump (q : Stim) (k : StimCh) (d : Decision) (period prev : Nat) : Bool :=
  let t := q.step d.step
  stepByUnit t && k.requests.any fun (u, r) => u = stepUnit t && within r prev (d.nextDp period)

/-- The boundary at which a request of time r acts (R301): the decision before it, or the decision that ends the channel first; fuel bounds the walk. -/
def Stim.actsAt (q : Stim) (k : StimCh) (period r : Nat) : Nat → Decision → Nat → Decision
  | 0, d, _ => d
  | fuel + 1, d, prev =>
    if d.ends || 3 * r ≤ 5 * d.nextDp period then d
    else Stim.actsAt q k period r fuel (q.after k d period (q.unitJump k d period prev)) (d.nextDp period)

/-- The decision of a channel before which a request made now acts; the walk passes at most 4,096 ticks and 64 updates of boundaries (R301). -/
def State.requestAt (s : State) (c : Fin 2) : Decision :=
  let k := s.stim.chs.get c
  s.stim.actsAt k (seqPeriod s.stim.cfg c.val) (s.grove64 + 4096) 4096 k.tail k.lastDp

/-- The decision that a channel's next boundary is known to bring at the moment (R293, R296). -/
def Stim.nextKnown (q : Stim) (c : Fin 2) : Option Decision :=
  let k := q.chs.get c
  let p := seqPeriod q.cfg c.val
  match k.state with
  | .waiting => some (q.iteration 0 k.startAt k.startStep 0 false)
  | .playing => match k.decided with
    | d :: _ => if d.ends then none else some d
    | [] => let d := q.after k k.running p (q.unitJump k k.running p k.lastDp); if d.ends then none else some d
  | .off => none
  | .idle => none

/-- A segment is active (R293). -/
def Stim.segActive (q : Stim) (i : Nat) : Bool :=
  two.any fun c => ((q.chs.get c).state = .playing && (q.chs.get c).seg = i) || (q.nextKnown c).any fun d => d.seg = i
/-- A step is active (R297). -/
def Stim.stepActive (q : Stim) (i : Nat) : Bool :=
  two.any fun c => ((q.chs.get c).state = .playing && (q.chs.get c).step = i) || (q.nextKnown c).any fun d => d.step = i

/-- A linear interpolation over p instants, rounded to the unit (R291). -/
def interp (a b i p : Nat) : Nat := (roundDiv ((a : Int) * ((p : Int) - i) + b * i) p).toNat

/-- The entry that follows the one in force, where it is known: of this iteration, or the first of the next boundary's segment (R291). -/
def State.nextEntry (s : State) (c : Fin 2) : Option (BitVec 128) :=
  let k := s.stim.chs.get c
  if !k.underrun && k.entry < segEntries (s.stim.seg k.seg) then some (s.segEntry k.seg k.entry)
  else match k.decided with
    | d :: _ => if d.ends || !d.ready then none else some (s.segEntry d.seg 0)
    | [] => none

/-- The instant of the next entry's effect. -/
def StimCh.nextEffect (k : StimCh) (period entries : Nat) : Nat :=
  if !k.underrun && k.entry < entries then k.entryAt else k.begun + k.updates * period

/-- How far an instant lies in the update that approaches the next entry; none where nothing is approached (R291). -/
def State.approach (s : State) (c : Fin 2) (n : Nat) : Option (Nat × BitVec 128) :=
  let k := s.stim.chs.get c
  let p := seqPeriod s.stim.cfg c.val
  let x := k.nextEffect p (segEntries (s.stim.seg k.seg))
  match s.nextEntry c with
  | none => none
  | some e => if entStep e || k.fresh && !k.underrun || n + p < x || x ≤ n then none else some (n + p - x, e)

/-- FREQ at an instant of the present entry (R291). -/
def State.freqAt (s : State) (c : Fin 2) (n : Nat) : Nat :=
  let k := s.stim.chs.get c
  match s.approach c n with
  | none => k.freq
  | some (i, e) => interp k.freq (entFreq e) i (seqPeriod s.stim.cfg c.val)

/-- A ramp of an amplitude to zero over 64 updates, at an instant (R300, R305). -/
def rampAt (begun ampl period n : Nat) : Nat := interp ampl 0 (min (n - begun) (64 * period)) (64 * period)

/-- AMPL at an instant of the present entry (R291, R300, R305). -/
def State.amplAt (s : State) (c : Fin 2) (n : Nat) : Nat :=
  let k := s.stim.chs.get c
  let p := seqPeriod s.stim.cfg c.val
  let base := match k.muteRamp with
    | some (b, a) => rampAt b a p n
    | none => k.ampl
  match k.ramping, k.stopRamp with
  | true, some (b, a) => rampAt b a p n
  | _, _ => match s.approach c n with
    | none => base
    | some (i, e) => interp base (entAmpl e) i p

/-- The accumulator at an instant, before that instant adds its FREQ (R286, R290). -/
def State.accumAt (s : State) (c : Fin 2) (n : Nat) : Nat :=
  let k := s.stim.chs.get c
  let p := seqPeriod s.stim.cfg c.val
  let x := k.nextEffect p (segEntries (s.stim.seg k.seg))
  let flat := min n (max k.accAt (x - p)) - k.accAt
  let rest := (List.range (n - k.accAt - flat)).map fun i => s.freqAt c (k.accAt + flat + i)
  (k.acc + flat * k.freq + rest.foldl (· + ·) 0) % 2 ^ 48

/-- The code that a channel sends to its DAC at an instant (R286). -/
def State.dacCode (s : State) (c : Fin 2) (n : Nat) : Int :=
  let k := s.stim.chs.get c
  if k.state ≠ .playing then 0
  else
    let theta : Int := (s.accumAt c n + k.phase * 2 ^ 16) % 2 ^ 48
    let a := (if 2 ^ 47 < theta then theta - 2 ^ 48 else theta) * piFix / 2 ^ 47
    roundDiv (s.amplAt c n * sinSeries 60 a (a * a / 2 ^ 160) 1 * 8191) (65535 * 2 ^ 160)

/-- The markers that follow a channel take the bits of a mask at an instant (R304). -/
def State.setMarkers (s : State) (c : Fin 2) (mask n : Nat) : State :=
  s.onStim fun q => { q with
    chs := vmod q.chs c fun k => { k with markers := mask }
    markers := Vector.ofFn fun (m : Fin 4) =>
      let old := q.markers.get m
      if flag q.cfg (8 + 2 * m.val + 1) && fld q.cfg (8 + 2 * m.val) 1 = c.val then
        (if bit mask m.val && !old.high then { high := true, riseTick := dacTick n, riseFraction := dacFraction n } else { old with high := bit mask m.val })
      else old }

/-- A channel ends at an instant (R296, R300, R307): output at zero, markers low, and STIM_ENDED. -/
def State.endChannel (s : State) (c : Fin 2) (why : LastEnd) (n : Nat) : State :=
  let k := s.stim.chs.get c
  let p := seqPeriod s.stim.cfg c.val
  ((s.setMarkers c 0 n).onCh c fun k => { k with
    state := .idle, lastEnd := why, underrun := false, freq := 0, ampl := 0, decided := [], stopSeq := none, stopRamp := none, ramping := false
    muteRamp := none, jumpSeq := none, requests := []
    underrunUpdates := k.underrunUpdates + (if k.underrun then (n - k.underAt) / max 1 p else 0) }).raiseAt
      { code := 0x0982, obj := c.val, vals := [if k.stopRamp.isSome && why = .program then LastEnd.stopped.code else why.code] } (dacTick n)

/-- The tick of a boundary as its decision was made: an underrun begins (R305, R306) at an instant. -/
def State.underrunFrom (s : State) (c : Fin 2) (n : Nat) : State :=
  let k := s.stim.chs.get c
  let a := s.amplAt c n
  let mute := flag s.stim.cfg (4 + c.val)
  (((s.setMarkers c 0 n).onCh c fun k => { k with
      underrun := true, underAt := n, underruns := k.underruns + 1
      muteRamp := if mute && k.muteRamp.isNone then some (n, if k.fresh then 0 else a) else k.muteRamp })).raiseAt
    { code := 0x0980, obj := c.val, vals := [k.seg, k.seq] } (dacTick n)

/-- The iteration now running ends (R294, R305): its STREAM segment becomes EMPTY, and updates spent in underrun are counted. -/
def State.endIteration (s : State) (c : Fin 2) (n : Nat) : State :=
  let k := s.stim.chs.get c
  (s.onStim fun q => { q with ready := q.ready.filter (· ≠ k.seg), stirred := q.stirred.filter (· ≠ k.seg) }).onCh c fun k =>
    { k with underrunUpdates := k.underrunUpdates + (if k.underrun then (n - k.underAt) / max 1 (seqPeriod s.stim.cfg c.val) else 0) }

/-- An iteration begins at its boundary (R296, R305): in underrun where its segment was not ready at the decision point, otherwise playing, which ends an underrun. -/
def State.beginIteration (s : State) (c : Fin 2) (d : Decision) : State :=
  let k := s.stim.chs.get c
  let acc := s.accumAt c d.at_
  let a := s.amplAt c d.at_
  let f := s.freqAt c d.at_
  let s1 := s.onCh c fun k => { k with
    step := d.step, iter := d.iter, seg := d.seg, seq := d.seq, begun := d.at_, updates := d.upd, entry := 0, entryAt := d.at_, acc := acc, accAt := d.at_, freq := f }
  if !d.ready then s1.underrunFrom c d.at_
  else if k.underrun then
    (s1.onCh c fun k => { k with underrun := false, muteRamp := none, ampl := a }).raiseAt { code := 0x0981, obj := c.val, vals := [d.seg, d.seq] } (dacTick d.at_)
  else s1

/-- The decision of the next undecided boundary of a playing channel is fixed (R301, R303). -/
def State.decideBoundary (s : State) (c : Fin 2) : State :=
  let k := s.stim.chs.get c
  let p := seqPeriod s.stim.cfg c.val
  let d := k.tail
  if d.ends then s
  else
    let dp := d.nextDp p
    let t := s.stim.step d.step
    let due := k.requests.filter fun (_, r) => 3 * r ≤ 5 * dp
    let ignored := due.filter fun (u, r) => u = stepUnit t && !(stepByUnit t && within r k.lastDp dp)
    let v := s.stim.after k d p (s.stim.unitJump k d p k.lastDp)
    s.onCh c fun k => { k with
      decided := k.decided ++ [v], lastDp := dp, requests := k.requests.filter fun (_, r) => !(3 * r ≤ 5 * dp)
      jumpSeq := if k.jumpSeq = some v.seq then none else k.jumpSeq, tuIgnored := k.tuIgnored + ignored.length }

/-- The next decision point of a channel (R299, R301), where it has been reached by now. -/
def State.decisionPoint (s : State) (c : Fin 2) : State :=
  let k := s.stim.chs.get c
  let p := seqPeriod s.stim.cfg c.val
  match k.state with
  | .waiting =>
    if k.decided.isEmpty && k.judgeAt ≤ s.grove64 then s.onCh c fun k => { k with decided := [s.stim.iteration 0 k.startAt k.startStep 0 false] } else s
  | .playing => if !k.tail.ends && s.reached (k.tail.nextDp p) then s.decideBoundary c else s
  | .off => s
  | .idle => s

/-- The start instant of a waiting channel (R299). -/
def State.startInstant (s : State) (c : Fin 2) : State :=
  let k := s.stim.chs.get c
  if k.state = .waiting && s.reached k.startAt then
    let d := (k.decided.head?).getD (s.stim.iteration 0 k.startAt k.startStep 0 false)
    (s.onCh c fun k => { k with
      state := .playing, underrun := false, lastEnd := .none, fresh := true, acc := 0, accAt := k.startAt, freq := 0, phase := 0, ampl := 0, decided := []
      lastDp := k.startAt - 64 * seqPeriod s.stim.cfg c.val, requests := [], jumpSeq := none, stopSeq := none, stopRamp := none, ramping := false
      muteRamp := none, begun := k.startAt, updates := 0 }).beginIteration c d
  else s

/-- A boundary of a playing channel (R296, R305). -/
def State.boundary (s0 : State) (c : Fin 2) : State :=
  let k0 := s0.stim.chs.get c
  let p := seqPeriod s0.stim.cfg c.val
  if k0.state = .playing && s0.reached (k0.begun + k0.updates * p) then
    let s := if k0.decided.isEmpty then s0.decideBoundary c else s0
    match (s.stim.chs.get c).decided with
    | [] => s
    | d :: rest =>
      let s1 := s.endIteration c d.at_
      let s2 := s1.onCh c fun k => { k with jumps := k.jumps + (if d.jump then 1 else 0) }
      if d.ends then s2.endChannel c (if d.stopped || k0.stopRamp.isSome then .stopped else .program) d.at_
      else (s2.beginIteration c d).onCh c fun k => { k with decided := rest }
  else s0

/-- The effect instant of an entry (R291, R304, R306): its values take effect; starved tells that the fetch port did not have it. -/
def State.entryEffect (s : State) (c : Fin 2) (starved : Bool) : State :=
  let k := s.stim.chs.get c
  let d := s.stim.seg k.seg
  let p := seqPeriod s.stim.cfg c.val
  if k.state = .playing && !k.underrun && k.entry < segEntries d && s.reached k.entryAt then
    let stream : Bool := segKind d = 2
    let a := s.stim.entryAddr d k.entry
    let poison := stream && s.mem.bad a 16
    if stream && (starved || poison) then
      let s1 := if poison then s.raiseAt { code := 0x0681, obj := 0x15, vals := [a] } (dacTick k.entryAt) else s
      (s1.onStim fun q => { q with starved := q.starved + 1 }).underrunFrom c k.entryAt
    else
      let e := s.segEntry k.seg k.entry
      let acc := s.accumAt c k.entryAt
      (s.onCh c fun k => { k with
        acc := if entClear e then 0 else acc, accAt := k.entryAt, freq := entFreq e, phase := entPhase e, ampl := entAmpl e, fresh := false, muteRamp := none
        entry := k.entry + 1, entryAt := k.entryAt + entDuration e * p }).setMarkers c (if k.ramping then 0 else entMarkers e) k.entryAt
  else s

/-- The ramp of a stop NOW begins (R300). -/
def State.stopRampStart (s : State) (c : Fin 2) : State :=
  let k := s.stim.chs.get c
  match k.stopRamp with
  | none => s
  | some (n, _) =>
    if k.state = .playing && !k.ramping && s.reached n then
      let a := s.amplAt c n
      (s.setMarkers c 0 n).onCh c fun k => { k with ramping := true, stopRamp := some (n, a) }
    else s

/-- The ramp of a stop NOW has reached zero (R300). -/
def State.stopRampEnd (s : State) (c : Fin 2) : State :=
  let k := s.stim.chs.get c
  let p := seqPeriod s.stim.cfg c.val
  match k.stopRamp with
  | none => s
  | some (n, _) => if k.state = .playing && k.ramping && s.reached (n + 64 * p) then s.endChannel c .stopped (n + 64 * p) else s

/-- The ramp of a MUTE underrun has reached zero (R305). -/
def State.muteRampEnd (s : State) (c : Fin 2) : State :=
  let k := s.stim.chs.get c
  match k.muteRamp with
  | none => s
  | some (n, _) =>
    if s.reached (n + 64 * seqPeriod s.stim.cfg c.val) then s.onCh c fun k => { k with ampl := 0, muteRamp := none } else s

/-- The sample clocks stop (R307): playing channels end with CLOCK_LOST, waiting ones return to IDLE. -/
def State.stimClockLost (s : State) (tick : Nat) : State :=
  s.each two fun s c =>
    let k := s.stim.chs.get c
    match k.state with
    | .playing => s.endChannel c .clockLost (3 * tick / 5)
    | .waiting => s.onCh c fun k => { k with state := .idle, decided := [] }
    | .off => s
    | .idle => s

/-- STIM_STATUS (R309). -/
def StimCh.status (k : StimCh) : Nat :=
  at' k.state.code 29 + bAt k.underrun 28 + bAt (k.decided.any Decision.jump) 27 + at' k.lastEnd.code 25 + at' k.step 12 + k.seg

/-- The consistency check of the sequencer (R297, R393), in the order of its table. -/
def State.seqCheck (s : State) : Option Reply :=
  let q := s.stim
  let c := q.cfg
  let base := seqBase c
  let n := seqBytes c
  let defined (i : Nat) : Bool := (assoc q.steps i).isSome
  let total := s.budget none true
  firstCheck [
    firstOf [(fld c 0 2 = 0, refusedAt 0x090B 0x0E 0 0)],
    (q.steps.find? fun (_, t) => (!stepEnd t && !defined (stepNext t)) || !defined (stepTarget t)).map fun (i, _) => refusedAt 0x0903 0x09 i 0,
    q.steps.findSome? fun (_, t) => (lowest (stepRing t) fun k => segKind (q.seg (stepSegment t + k)) = 0).map fun k => refusedAt 0x0906 0x08 (stepSegment t + k) 0,
    (q.steps.find? fun (_, t) => stepByUnit t && !(vnat s.units (stepUnit t)).on).map fun (_, t) => refusedAt 0x0907 0x04 (stepUnit t) 0,
    firstOf [(0 < n && s.memBytes < base + n, refusedAt 0x0905 0x0E 0 0)],
    (four.find? fun g => (s.groups.get g).counted && (s.holds g).any fun (b, m) => overlaps base n b m).map fun g => refusedAt 0x0904 1 g.val 0,
    (four.find? fun g => (s.groups.get g).state ≠ .off && grainClash [(base, n)] (seqGrain c) (s.holds g) (s.groups.get g).grain).map
      fun g => refusedAt 0x0602 1 g.val 0,
    firstOf [(rateBudget s.mem.clock.rate < total, Reply.refused 0x0601 total), (s.clock.drive = .stopped, Reply.refused 0x0102),
      (s.clock.sync.isSome, Reply.refused 0x0105)]]

/-- A refusal by the consistency check is counted for the sequencer (R388). -/
def State.seqRefused (s : State) : State := s.onStim fun q => { q with armRefusals := q.armRefusals + 1 }

/-- STATE 0x0016 for a channel, a segment or a step (R338, R378). -/
def seqConflict (kind index st : Nat) : Reply := Reply.state 0x0016 (stateDetail kind index 0 st)

/-- SEQ_CONFIG is out of range (R287, R288). -/
def seqInvalid (c : BitVec 128) : Bool :=
  seqBase c % 0x10000 ≠ 0 || seqBytes c % 0x10000 ≠ 0 || 8 < seqGrain c ||
  [0, 1].any fun i => seqPeriod c i < 32 || 12000 < seqPeriod c i

/-- SEQ_CONFIG (R287, R288, R378). -/
def cardSeqConfig (b : Bytes) : Card where
  opcode := 0x0901
  states := setT
  reservedOk := zeroFields (structAt 128 b 0) [(6, 2), (2, 2)]
  sizeOk := b.length = 16
  checks := fun s => firstOf [(s.stim.enabled, s.seqState), (seqInvalid (structAt 128 b 0), Reply.refused 0x0901)]
  run := doOk fun s => s.onStim fun q => { q with cfg := structAt 128 b 0 }

/-- A segment definition is invalid (R292). -/
def Stim.segInvalid (q : Stim) (i : Nat) (d : BitVec 128) : Bool :=
  let others := q.segs.filter fun x => x.1 ≠ i
  let n := segEntries d
  if 4096 ≤ i then true
  else match segKind d with
    | 0 => false
    | 1 => segUpdates d ≠ 0 || n = 0 || 1048576 < segFirst d + n ||
        others.any fun (_, o) => segKind o = 1 && overlaps (segFirst d) n (segFirst o) (segEntries o)
    | 2 => segUpdates d < 64 || n = 0 || 1048576 < n || segOffset d % 64 ≠ 0 || seqBytes q.cfg < segOffset d + 16 * n ||
        others.any fun (_, o) => segKind o = 2 && overlaps (segOffset d) (16 * n) (segOffset o) (16 * segEntries o)
    | _ => true

/-- A segment is defined, EMPTY (R292 to R294), or deleted. -/
def Stim.define (q : Stim) (i : Nat) (d : BitVec 128) : Stim :=
  let q1 := { q with ready := q.ready.filter (· ≠ i) }
  if segKind d = 0 then { q1 with segs := q.segs.filter fun x => x.1 ≠ i }
  else { q1 with segs := putAssoc q.segs i (if segKind d = 1 then withUpdates d (q.sumUpdates d) else d) }

/-- The check that a change of a segment or a step has to pass while the sequencer is enabled (R297). -/
def State.judged (s : State) (f : Stim → Stim) : Option Reply := if s.stim.enabled then (s.onStim f).seqCheck else none

/-- SEQ_SEGMENT_DEFINE (R292, R293, R297, R378). -/
def cardSegmentDefine (b : Bytes) : Card where
  opcode := 0x0902
  states := setT
  reservedOk := selOk b && !flag (structAt 128 b 4) 0
  sizeOk := b.length = 20
  checks := fun s =>
    let i := selIndex b
    let d := structAt 128 b 4
    orElse' (firstOf [(i < 4096 && s.stim.segActive i, seqConflict 0x08 i 0), (s.stim.segInvalid i d, Reply.refused 0x0902)]) (s.judged (·.define i d))
  run := doOk fun s => s.onStim (·.define (selIndex b) (structAt 128 b 4))
  onRefused := fun r s => if r.status = 3 ∧ ¬ s.stim.segInvalid (selIndex b) (structAt 128 b 4) then s.seqRefused else s

/-- Entries written to list memory; zero entries are not listed. -/
def Stim.putEntries (q : Stim) (first : Nat) (es : List (BitVec 128)) : Stim :=
  { q with list := q.list.filter (fun x => x.1 < first) ++ ((es.zipIdx.filter fun (e, _) => e ≠ 0).map fun (e, k) => (first + k, e)) ++
      q.list.filter (fun x => first + es.length ≤ x.1) }

/-- The entries of a SEQ_LIST_WRITE (R378). -/
def listEntries (b : Bytes) : List (BitVec 128) := (List.range ((b.length - 8) / 16)).map fun k => structAt 128 b (8 + 16 * k)

/-- FIRST and a number of entries lie within an ONDIE segment (R378). -/
def Stim.listOk (q : Stim) (i first n : Nat) : Bool := segKind (q.seg i) = 1 && first + n ≤ segEntries (q.seg i)

/-- SEQ_LIST_WRITE (R293, R378). -/
def cardListWrite (b : Bytes) : Card where
  opcode := 0x0903
  states := setT
  reservedOk := selOk b && (listEntries b).all fun e => zeroFields e [(2, 2)]
  sizeOk := 24 ≤ b.length && b.length ≤ 4088 && b.length % 16 = 8
  checks := fun s => firstOf [(s.stim.segActive (selIndex b), seqConflict 0x08 (selIndex b) 0),
    (!s.stim.listOk (selIndex b) (word b 1) (listEntries b).length, Reply.refused 0x0902)]
  run := doOk fun s => s.onStim fun q =>
    let d := q.seg (selIndex b)
    let q1 := q.putEntries (segFirst d + word b 1) (listEntries b)
    { q1 with segs := putAssoc q1.segs (selIndex b) (withUpdates d (q1.sumUpdates d)) }

/-- SEQ_LIST_READ (R378). -/
def cardListRead (b : Bytes) : Card where
  opcode := 0x0983
  states := setT
  reservedOk := selOk b && word b 1 < 256
  sizeOk := b.length = 12
  checks := fun s => firstOf [(word b 1 = 0 || !s.stim.listOk (selIndex b) (word b 2) (word b 1), Reply.refused 0x0902)]
  run := fun _ s => (s, .done (Reply.ok ((List.range (word b 1)).map fun k => leBytes 16 (s.segEntry (selIndex b) (word b 2 + k)).toNat).flatten))

/-- SEQ_SEGMENT_READY (R294, R378): its reply follows the read-back. -/
def cardSegmentReady (b : Bytes) : Card where
  opcode := 0x0904
  states := setT
  reservedOk := selOk b
  sizeOk := b.length = 8
  checks := fun s => firstOf [(s.stim.segActive (selIndex b), seqConflict 0x08 (selIndex b) 0), (segKind (s.stim.seg (selIndex b)) ≠ 2, Reply.refused 0x0902)]
  run := fun _ s => (s.onStim fun q => { q with readback := q.readback ++ [(selIndex b, word b 1)] }, .held (.readback (selIndex b)))

/-- The oldest read-back ends (R294): the segment is READY where its CRC and its durations agree. -/
def State.readbackDone (s : State) : State :=
  match s.stim.readback with
  | [] => s
  | (i, crc) :: rest =>
    let d := s.stim.seg i
    let r := s.fwpRead (s.stim.entryAddr d 0) (16 * segEntries d)
    let sum := ((List.range (segEntries d)).map fun e => bits (leAt r.2 (16 * e) 16) 8 24 + 1).foldl (· + ·) 0
    let ok := segKind d = 2 && crc32c r.2 = crc && sum = segUpdates d
    (r.1.onStim fun q => { q with readback := rest, ready := if ok then (q.ready.filter (· ≠ i)) ++ [i] else q.ready, stirred := if ok then q.stirred.filter (· ≠ i) else q.stirred }).finish (.readback i)
      (if ok then Reply.ok else Reply.refused 0x090A)

/-- A step is out of range (R295, R378): a ring that runs past segment 4,095. -/
def stepInvalid (i : Nat) (t : BitVec 128) : Bool := 1024 ≤ i || 4096 < stepSegment t + stepRing t

/-- SEQ_STEP_WRITE (R295, R297, R378). -/
def cardStepWrite (b : Bytes) : Card where
  opcode := 0x0905
  states := setT
  reservedOk := selOk b && zeroFields (structAt 128 b 4) [(88, 4), (0, 57)]
  sizeOk := b.length = 20
  checks := fun s =>
    let i := selIndex b
    let t := structAt 128 b 4
    orElse' (firstOf [(i < 1024 && s.stim.stepActive i, seqConflict 0x09 i 0), (stepInvalid i t, Reply.refused 0x0903)])
      (s.judged fun q => { q with steps := putAssoc q.steps i t })
  run := doOk fun s => s.onStim fun q => { q with steps := putAssoc q.steps (selIndex b) (structAt 128 b 4) }
  onRefused := fun r s => if r.status = 3 ∧ ¬ stepInvalid (selIndex b) (structAt 128 b 4) then s.seqRefused else s

/-- The channels of an enabled sequencer enter IDLE (R298). -/
def State.seqIdle (s : State) : State :=
  s.onStim fun q => { q with
    chs := Vector.ofFn fun (c : Fin 2) =>
      let k := q.chs.get c
      if seqOn q.cfg c.val = true ∧ k.state = .off then { k with state := .idle } else k }

/-- Stripes that the sequencer's region re-grains (R169, R170). -/
def State.seqRegrains (s : State) : List Nat := s.regrains [(seqBase s.stim.cfg, seqBytes s.stim.cfg)] (seqGrain s.stim.cfg)

/-- SEQ_ENABLE with ENABLE = 1 (R297, R378): its reply waits while stripes are re-initialised (R170), and while the synthesiser is phased again (R285). -/
def cardSeqEnable (b : Bytes) : Card where
  opcode := 0x0906
  states := setT
  reservedOk := word b 0 ≤ 1
  sizeOk := b.length = 4
  checks := fun s => if s.stim.enabled then none else s.seqCheck
  run := fun _ s =>
    if s.stim.enabled then (s, .done (Reply.ok))
    else
      let s1 := s.onStim fun q => { q with enabled := true }
      if s.seqRegrains.isEmpty && !s.clock.sqRephase then (s1.seqIdle, .done (Reply.ok)) else (s1, .held .seqEnable)
  onRefused := fun r s => if r.status = 3 then s.seqRefused else s

/-- A waiting enable of the sequencer goes on when nothing holds it back any more. -/
def State.seqEnabled (s : State) : State :=
  if s.seqRegrains.isEmpty && !s.clock.sqRephase then (if s.stim.enabled then s.seqIdle else s).finish .seqEnable (Reply.ok) else s

/-- SEQ_ENABLE with ENABLE = 0 (R297, R298, R378). -/
def cardSeqDisable (b : Bytes) : Card where
  opcode := 0x0906
  states := setT
  reservedOk := word b 0 ≤ 1
  sizeOk := b.length = 4
  checks := fun s => (two.find? fun c => (s.stim.chs.get c).state = .waiting || (s.stim.chs.get c).state = .playing).map
    fun c => seqConflict 0x07 c.val (s.stim.chs.get c).state.code
  run := doOk fun s => s.onStim fun q => { q with enabled := false, chs := q.chs.map fun (k : StimCh) => { k with state := .off } }

/-- CH_MASK of SEQ_START and SEQ_STOP. -/
def chMask (b : Bytes) (c : Fin 2) : Bool := bit (word b 0) c.val

/-- START_STEP of a channel (R379). -/
def startStep (b : Bytes) (c : Fin 2) : Nat := leAt b (4 + 2 * c.val) 2

/-- SEQ_START (R299, R378, R379). -/
def cardSeqStart (b : Bytes) : Card where
  opcode := 0x0907
  states := setT
  reservedOk := onlyBits (word b 0) 0x103 && (bit (word b 0) 8 || leAt b 8 8 = 0) && two.all fun c => chMask b c || startStep b c = 0
  sizeOk := b.length = 16
  checks := fun s =>
    orElse' ((two.find? fun c => chMask b c && (s.stim.chs.get c).state ≠ .idle).map fun c => seqConflict 0x07 c.val (s.stim.chs.get c).state.code)
      (firstOf [(two.all (!chMask b ·), Reply.refused 0x0901),
        (two.any fun c => chMask b c && (assoc s.stim.steps (startStep b c)).isNone, Reply.refused 0x0903),
        (bit (word b 0) 8 && signed 64 (unsigned 64 ((leAt b 8 8 : Int) - s.grove64)) < 4096, Reply.refused 0x0909)])
  run := fun _ s =>
    let n := dacFrom (if bit (word b 0) 8 then leAt b 8 8 else s.grove64 + 4096)
    (s.each (two.filter (chMask b)) fun s c => s.onCh c fun k => { k with
      state := .waiting, startAt := n, startStep := startStep b c, judgeAt := s.grove64 + 4096, decided := [] },
     .done (Reply.ok (leBytes 8 (dacTick n))))

/-- A channel takes a stop NOW (R300): where its output reaches zero. -/
def State.stopNow (s : State) (c : Fin 2) : State × Nat :=
  let k := s.stim.chs.get c
  let p := seqPeriod s.stim.cfg c.val
  let n := (k.stopRamp.map Prod.fst).getD (dacFrom (s.grove64 + 4096))
  match k.state with
  | .waiting => (s.onCh c fun k => { k with state := .idle, lastEnd := .stopped, decided := [] }, s.grove64)
  | .playing => (s.onCh c fun k => { k with stopRamp := some (k.stopRamp.getD (n, 0)) }, dacTick (n + 64 * p))
  | .off => (s, 0)
  | .idle => (s, 0)

/-- A channel takes a stop at a boundary (R300): that which a command jump made now would take. -/
def State.stopBoundary (s : State) (c : Fin 2) : State × Nat :=
  let k := s.stim.chs.get c
  let p := seqPeriod s.stim.cfg c.val
  match k.state with
  | .waiting => s.stopNow c
  | .playing =>
    let d := s.requestAt c
    if d.ends then
      (if k.decided.any Decision.ends then s else s.onCh c fun k => { k with stopSeq := some d.seq }, dacTick d.at_)
    else (s.onCh c fun k => { k with stopSeq := some (d.seq + 1) }, dacTick (d.nextAt p))
  | .off => (s, 0)
  | .idle => (s, 0)

/-- Both channels of a SEQ_STOP in turn, with their ZERO_TICKs (R378). -/
def stopBoth (b : Bytes) (f : State → Fin 2 → State × Nat) (s : State) : State × Ran :=
  let a := if chMask b 0 then f s 0 else (s, 0)
  let c := if chMask b 1 then f a.1 1 else (a.1, 0)
  (c.1, .done (Reply.ok (leBytes 8 a.2 ++ leBytes 8 c.2)))

/-- SEQ_STOP with MODE NOW (R300, R378). -/
def cardSeqStopNow (b : Bytes) : Card where
  opcode := 0x0908
  states := setT
  reservedOk := onlyBits (word b 0) 0x103
  sizeOk := b.length = 4
  run := fun _ s => stopBoth b State.stopNow s

/-- SEQ_STOP with MODE BOUNDARY (R300, R378). -/
def cardSeqStopBoundary (b : Bytes) : Card where
  opcode := 0x0908
  states := setT
  reservedOk := onlyBits (word b 0) 0x103
  sizeOk := b.length = 4
  run := fun _ s => stopBoth b State.stopBoundary s

/-- SEQ_JUMP (R301, R302, R378). -/
def cardSeqJump (b : Bytes) : Card where
  opcode := 0x0909
  states := setT
  reservedOk := word b 0 ≤ 1
  sizeOk := b.length = 4
  checks := fun s =>
    let c := Fin.ofNat 2 (word b 0)
    let k := s.stim.chs.get c
    let d := s.requestAt c
    firstOf [(k.state ≠ .playing, seqConflict 0x07 c.val k.state.code), (d.ends || !stepByCommand (s.stim.step d.step), Reply.refused 0x0908)]
  run := fun _ s =>
    let c := Fin.ofNat 2 (word b 0)
    let d := s.requestAt c
    (s.onCh c fun k => { k with jumpSeq := some (d.seq + 1) },
     .done (Reply.ok (leBytes 8 (d.seq + 1) ++ leBytes 8 (dacTick (d.nextAt (seqPeriod s.stim.cfg c.val))) ++ leBytes 2 (stepTarget (s.stim.step d.step)) ++ zeros 6)))

/-- The query twins of the stimulus family (R353, R378). -/
def stimQuery (op : Nat) (b : Bytes) : Option Card :=
  match op with
  | 0x0981 => some (queryCard op b 0 0 fun s _ => structBytes s.stim.cfg)
  | 0x0982 => some (queryCard op b 4096 0x0902 fun s i => structBytes (s.stim.seg i))
  | 0x0985 => some (queryCard op b 1024 0x0903 fun s i => structBytes (s.stim.step i))
  | _ => none

end Sys2Proof.Machine
end

