-- ==== Sys2Proof/Machine/MonOps.lean ====
section
/-!
DEFINITION. The monitor ADC (10): slots, software conversions, window comparators, its words, and the cards of its family.
-/
namespace Sys2Proof.Machine

/-- REF_SEL (R315). -/
def monRef (c : BitVec 32) : Nat := fld c 30 2

/-- CHANNEL of a window comparator (R319). -/
def winChannel (c : BitVec 64) : Nat := fld c 59 5
/-- HIGH (R319). -/
def winHigh (c : BitVec 64) : Nat := fld c 36 12
/-- LOW (R319). -/
def winLow (c : BitVec 64) : Nat := fld c 24 12
/-- HYST (R319). -/
def winHyst (c : BitVec 64) : Nat := fld c 12 12
/-- ENABLE (R319). -/
def winOn (c : BitVec 64) : Bool := flag c 0

/-- REF_SETTLED as it was at a tick (R314). -/
def Monitor.settledAt (m : Monitor) (tick : Nat) : Bool := if m.settled then m.roseAt ≤ tick else m.before && tick < m.fellAt

/-- A monitor word: OVR, REF_UNSETTLED, REF_USED, CHANNEL and CODE of MON_RESULT (R317). -/
structure Conversion where
  channel : Nat
  code : Nat
  ovr : Bool
  unsettled : Bool
  ref : Nat

/-- The code of a stack temperature in tenths of a degree (R311). -/
def stackCode (tenths : Int) : Nat := (clampInt 0 4095 (roundDiv (16384000 + 8192 * tenths) 10000)).toNat

/-- A conversion of a channel that ends now (R311 to R314): a stack's temperature is no conversion, and reads 0 with OVR before the first reading. -/
def State.convert (s : State) (channel code : Nat) (ovr : Bool) : Conversion :=
  if 6 ≤ channel ∧ channel < 10 then
    let k := vnat s.mem.hbm (channel - 6)
    { channel := channel, code := if k.wasRead then stackCode k.temp else 0, ovr := !k.wasRead, unsettled := false, ref := 0 }
  else
    let own : Bool := channel < 10
    { channel := channel, code := code, ovr := ovr, unsettled := !own && !s.mon.settledAt (s.now - us), ref := if own then 0 else monRef s.mon.cfg }

/-- MON_RESULT of a conversion, without CONVERT (R317). -/
def Conversion.result (v : Conversion) : Nat :=
  at' 1 31 + bAt v.ovr 29 + bAt v.unsettled 28 + at' v.ref 26 + at' v.channel 21 + v.code

/-- The requester that a free slot serves next (R316): round-robin among those with a conversion pending. -/
def Monitor.nextReq (m : Monitor) : Option (Fin 3) := ([1, 2, 3].map fun k => Fin.ofNat 3 (m.turn + k)).find? fun r => (m.reqs.get r).pending.isSome

/-- A window comparator takes its result (R320, R321). -/
def State.windowResult (s : State) (n : Fin 8) (v : Conversion) : State :=
  let w := s.mon.windows.get n
  let lo := winLow w.cfg
  let hi := winHigh w.cfg
  if v.unsettled then s
  else if !w.outside && (v.ovr || hi < v.code || v.code < lo) then
    let above := hi < v.code || (v.ovr && v.code = 0xFFF)
    let s1 := s.onMon fun m => { m with windows := vmod m.windows n fun w => { w with outside := true, exits := w.exits + 1 } }
    let s2 := s1.raiseAt { code := 0x0A80, obj := n.val, vals := [v.channel, v.code + bAt v.ovr 12 + bAt above 13] } (if s.clock.xoPresent then s.grove64 else 0)
    if s.clock.xoPresent then s2.tag { source := 0x30 + n.val, rising := false, time := s.now * 2 ^ 32, unit := 0 } else s2
  else if w.outside && !v.ovr && lo + winHyst w.cfg ≤ v.code && v.code + winHyst w.cfg ≤ hi then
    s.onMon fun m => { m with windows := vmod m.windows n fun w => { w with outside := false } }
  else s

/-- A software conversion is delivered (R317). -/
def State.softwareResult (s : State) (r : Fin 3) (v : Conversion) : State :=
  s.onMon fun m => { m with
    turn := r.val, reqs := vmod m.reqs r fun q => { q with pending := none, result := BitVec.ofNat 32 v.result, tick := s.grove64 } }

/-- One more conversion was made (R323). -/
def State.countConversion (s : State) : State := s.onMon fun m => { m with conversions := m.conversions + 1 }

/-- A slot ends with a result (R316): the code and OVR are those of the converter; and the die sensor whose second consecutive reading reaches 110.0 °C, code 2,540 (R399). -/
def State.slotEnd (s : State) (slot : Fin 16) (code : Nat) (ovr : Bool) : State × Option Nat :=
  let free : State × Option Nat := match s.mon.nextReq with
    | none => (s, none)
    | some r => ((s.countConversion).softwareResult r (s.convert (((s.mon.reqs.get r).pending).getD 0) code ovr), none)
  if slot.val = 8 then
    let c := s.mon.rotation
    let v := s.convert c code ovr
    let hot : Bool := c < 6 && 2540 ≤ v.code
    let trip := hot && s.mon.hot.getD c false && s.board.thermWatch
    (s.countConversion.onMon fun m => { m with rotation := (c + 1) % 10, temps := m.temps.set c (v.code, true), hot := m.hot.set c hot },
     if trip then some c else none)
  else if slot.val < 8 then
    let n : Fin 8 := Fin.ofNat 8 slot.val
    let w := s.mon.windows.get n
    if winOn w.cfg then (s.countConversion.windowResult n (s.convert (winChannel w.cfg) code ovr), none) else free
  else free

/-- A write of MON_CTRL (R317): with CONVERT it requests a conversion; one made while the last is pending is ignored and counted. -/
def State.monCtrl (s : State) (r : Fin 3) (value : Nat) : State :=
  if !bit value 31 then s
  else s.onMon fun m => { m with reqs := vmod m.reqs r fun q =>
    if q.pending.isSome then { q with busyWrites := q.busyWrites + 1 } else { q with pending := some (value % 32) } }

/-- MON_RESULT as a requester reads it (R317). -/
def MonReq.word (q : MonReq) : Nat := q.result.toNat + bAt q.pending.isSome 30

/-- MON_STATUS (R322). -/
def Monitor.status (m : Monitor) : Nat :=
  at' (monRef m.cfg) 30 + bAt m.settled 29 + at' (maskOf 8 fun n => (vnat m.windows n).outside) 16 + at' (maskOf 8 fun n => winOn (vnat m.windows n).cfg) 8

/-- The window comparator of an index is the source of a unit referenced by a group in use (R315, R319). -/
def State.winReferenced (s : State) (n : Nat) : Bool := eight.any fun u => s.referenced u.val && (s.units.get u).source = 0x30 + n

/-- The groups that make a comparator referenced, as a mask (R338). -/
def State.winGroups (s : State) (n : Nat) : Nat :=
  maskOf 4 fun g => (vnat s.groups g).live && (List.range 8).any fun u => bit (combUnits (vnat s.groups g).comb) u && (vnat s.units u).source = 0x30 + n

/-- STATE 0x0013 for a window comparator (R338, R380). -/
def State.winState (s : State) (n : Nat) : Reply := Reply.state 0x0013 (stateDetail 0x06 n (s.winGroups n) 0)

/-- MON_CONFIG (R315, R314, R380). -/
def cardMonConfig (b : Bytes) : Card where
  opcode := 0x0A01
  states := setS
  reservedOk := zeroFields (structAt 32 b 0) [(8, 22)]
  sizeOk := b.length = 4
  checks := fun s =>
    let c := structAt 32 b 0
    orElse' (if monRef c = monRef s.mon.cfg then none
        else (lowest 8 fun n => winOn (vnat s.mon.windows n).cfg && 10 ≤ winChannel (vnat s.mon.windows n).cfg && s.winReferenced n).map s.winState)
      (firstOf [(monRef c = 3, Reply.refused 0x0A01)])
  run := doOk fun s => s.onMon fun m =>
    let c := structAt 32 b 0
    if monRef c = monRef m.cfg then { m with cfg := c }
    else { m with cfg := c, settled := false, before := m.settledAt s.now, fellAt := s.now }

/-- MON_WINDOW_SET (R319, R380). -/
def cardMonWindowSet (b : Bytes) : Card where
  opcode := 0x0A02
  states := setS
  reservedOk := selOk b && zeroFields (structAt 64 b 4) [(48, 11), (1, 11)]
  sizeOk := b.length = 12
  checks := fun s =>
    let n := selIndex b
    let c := structAt 64 b 4
    firstOf [(n < 8 && s.winReferenced n, s.winState n), (8 ≤ n || winHigh c < winLow c || winHigh c - winLow c < 2 * winHyst c, Reply.refused 0x0A01)]
  run := doOk fun s => s.onMon fun m => { m with
    windows := vmod m.windows (Fin.ofNat 8 (selIndex b)) fun w => { w with cfg := structAt 64 b 4, outside := false } }

/-- The query twins of the monitor family (R353, R380). -/
def monQuery (op : Nat) (b : Bytes) : Option Card :=
  match op with
  | 0x0A81 => some (queryCard op b 0 0 fun s _ => structBytes s.mon.cfg)
  | 0x0A82 => some (queryCard op b 8 0x0A01 fun s i => structBytes (vnat s.mon.windows i).cfg)
  | _ => none

end Sys2Proof.Machine
end

