-- ==== Sys2Proof/Machine/FaultOps.lean ====
section
/-!
DEFINITION. Reset, boot failure and fatal faults (16, 17), and what the stop of the sample clocks does to the rest of the machine (R272).
-/
namespace Sys2Proof.Machine

/-- The engine is in RESET: everything is lost but the pins, and what the host link and the requesters have already seen (R5, R460, R461). -/
def State.toReset (s : State) : State :=
  { State.reset with
    now := s.now, is96 := s.is96, link := s.link, readValues := s.readValues, bar2Out := s.bar2Out, freeCount := s.freeCount
    pending := s.pending, decided := s.now, evaluated := s.now
    board := { Board.reset with
      pwrOk := s.board.pwrOk, perstReleased := s.board.perstReleased, straps := s.board.straps, strapPins := s.board.strapPins
      tap := s.board.tap, boundary := s.board.boundary, trigin := s.board.trigin.map fun (l, _, _) => (l, none, none) } }

/-- The engine leaves RESET for HEARTWOOD when PWR_OK is high and PERST_N released (R461). -/
def State.leaveReset (s : State) : State :=
  if s.board.boot = .reset ∧ s.board.pwrOk ∧ s.board.perstReleased then s.onBoard fun b => { b with boot := .heartwood } else s

/-- Operations whose commands were answered DEFERRED are cut off without their completing events (R386). -/
def State.cutDeferred (s : State) : State :=
  let s1 := s.onClock fun c => { c with sync := none, hop := none, slew := c.slew.map fun w => if w.kind = .snap then w else { w with kind := .tracking } }
  let s2 := (s1.onMem fun m => { m with clock := { m.clock with deferred := [], queued := none } }).onCal fun c => { c with run := none, svc := none, self := none }
  let s3 := s2.each five fun s p => s.onPort p fun b => { b with run := none }
  s3.allQuads fun q => { q with ticket := 0 }

/-- What every entry to FAULT does (R476, R484): the cores halt, the calibration switches return, what waited is cut off, the clocks stop, and commands are answered FAULT. -/
def State.intoFault (s : State) : State :=
  let s1 := s.onBoard fun b => { b with boot := .fault, ready := false, faultLow := true, alert := true }
  let s2 := (s1.onFw fun w => { w with running := false, restart := none }).returnAll
  let s3 := if s.clock.t0.isSome then s2.cutDeferred.scheduleStop else s2.cutDeferred
  s3.failHeld 0x0020

/-- A thermal trip shows on THERM_N and in THERM (R399, R484, R491). -/
def State.thermal (s : State) (therm : Bool) : State :=
  if therm then s.onBoard fun b => { b with thermLow := true, engineWord := b.engineWord ||| BitVec.ofNat 24 (1 <<< 22), quadsOff := true } else s

/-- Boot fails (R476, R477). -/
def State.bootFail (s : State) (reason obj : Nat) : State :=
  if s.board.boot = .fault then s
  else (s.onBoard fun b => { b with
    bootStatus := BitVec.ofNat 32 (b.bootStatus.toNat / 2 ^ 20 % 2 ^ 11 * 2 ^ 20 + 2 ^ 31 + at' obj 16 + reason) }).intoFault

/-- The row of a fatal cause in the table of R483, by its reason; a FAULT service call stands last whatever its argument. -/
def fatalRow (reason : Nat) (call : Bool) : Nat :=
  if call then 7
  else match reason with
  | 0x0025 => 1
  | 0x0107 => 2
  | 0x0026 => 3
  | 0x0606 => 4
  | 0x0C01 => 5
  | _ => 6

/-- The first fatal cause is recorded in ENGINE_WORD (R484, R491). -/
def Board.record (b : Board) (reason obj row tick : Nat) : Board :=
  { b with engineWord := BitVec.ofNat 24 (at' 1 23 + at' obj 16 + reason), faultFrom := tick, faultRow := row }

/-- A fatal cause (R483 to R485): ENGINE_FAULT, and FAULT where the engine was READY; before READY a boot failure with the same reason.
In FAULT a further cause raises its own ENGINE_FAULT; ENGINE_WORD keeps the first one, and of two of the same tick the one higher in the table. -/
def State.fatal (s : State) (reason obj : Nat) (therm : Bool := false) (call : Bool := false) : State :=
  let row := fatalRow reason call
  match s.board.boot with
  | .reset => s
  | .run =>
    let eng := s.engineState
    let s1 := s.onBoard fun b => b.record reason obj row s.now
    let s2 := s1.onEvents fun ev => { ev with fatalCauses := ev.fatalCauses + 1 }
    ((s2.thermal therm).raise { code := 0x0080, obj := obj, vals := [eng], reason := reason }).intoFault
  | .fault =>
    if flag s.board.engineWord 23 then
      let s0 := if s.now = s.board.faultFrom ∧ row < s.board.faultRow then (s.onBoard fun b => b.record reason obj row s.now).thermal therm else s
      let s1 := s0.onEvents fun ev => { ev with fatalCauses := ev.fatalCauses + 1 }
      (s1.raise { code := 0x0080, obj := obj, vals := [0x0A], reason := reason }).onBoard fun b =>
        { b with thermLow := b.thermLow || therm, alert := true }
    else s.onBoard fun b => { b with thermLow := b.thermLow || therm }
  | _ => (s.thermal therm).bootFail reason obj

/-- BOOT_STATUS with one of its progress bits set (R477). -/
def State.bootBit (s : State) (n : Nat) : State := s.onBoard fun b => { b with bootStatus := b.bootStatus ||| BitVec.ofNat 32 (1 <<< n) }

/-- A time from which QUADS and MEM_INIT, or SELF_CAL, are set is noted (R473). -/
def State.noteReady (s : State) : State :=
  if flag s.board.bootStatus 26 && flag s.board.bootStatus 28 then s.onBoard fun b => { b with readyFrom := s.now } else s

/-- The self-calibration is abandoned (R479): it starts again from LEAKAGE once its conditions hold; its switches are in CONNECT. -/
def State.abandonSelf (s : State) : State := s.onCal fun c => { c with self := none }

/-- Samples end at a tick (R272): every group in use ends with CLOCK_LOST, stimulus ends (R307), runs are aborted, a slew ends, and after a thermal trip the quads are powered off (R484). -/
def State.clocksStopped (s : State) (tick : Nat) : State :=
  let s1 := (s.decideTo s.now).each four fun s g =>
    if (s.groups.get g).live then s.endGroup g .clockLost (tick * 2 ^ 32) 64 else s
  let s2 := ((s1.stimClockLost (s1.groveAt tick)).abortRun).abandonSelf
  let s3 := s2.endSlew tick
  if s3.board.quadsOff then s3.allQuads (fun q => { q with state := .off }) else s3

end Sys2Proof.Machine
end

