-- ==== Sys2Proof/Machine/GroveOps.lean ====
section
/-!
DEFINITION. The grove (15): blocks and frames received, link messages and joins, roles, ranging, grove triggers, and the cards of the grove family.
-/
namespace Sys2Proof.Machine

/-- The DN ports. -/
def dn : List (Fin 5) := [1, 2, 3, 4]

/-- The device's grid is locked and its sample clocks run, as its HELLO tells (R431, R448). -/
def State.clockValid (s : State) : Bool := s.clock.t0.isSome && s.clock.drive ≠ .stopped

/-- The HELLO of this device (R431). -/
def State.helloMsg (s : State) : LinkMsg :=
  { kind := 1, role := s.grove.role.code, devaddr := s.grove.devaddr, epoch := s.grove.epoch, manager := s.grove.manager
    clockValid := s.clockValid, hasManager := s.grove.hasManager }

/-- HELLO is sent on every port that can carry it and that does not have the present one (R431). -/
def State.sayHello (s : State) : State :=
  let h := s.helloMsg
  s.each five fun s p => s.onPort p fun b => if b.sends && b.hello ≠ some h then { (b.pushLink h s.now) with hello := some h } else b

/-- A link message of a kind with this device's epoch and manager (R431). -/
def State.linkMsg (s : State) (kind : Nat) (role : Role) : LinkMsg := { s.helloMsg with kind := kind, role := role.code }

/-- A link message goes out on every DN port that can carry it. -/
def State.sendDown (s : State) (l : LinkMsg) : State := s.each dn fun s p => s.onPort p fun b => if b.sends then b.pushLink l s.now else b

/-- A ranging run on a port ends early (R445). -/
def State.endRange (s : State) (p : Fin 5) : State :=
  match (s.port p).run with
  | none => s
  | some r => (s.onPort p fun b => { b with run := none }).each r.tickets fun s k =>
      s.raise { code := 0x0B87, obj := p.val, ticket := k, reason := 0x0B04 }

/-- A port goes down from UP (R426): BOUGH_LINK_DOWN, and a ranging run ends. -/
def State.portDown (s : State) (p : Fin 5) (since : Nat) : State :=
  if (s.port p).link = .up then ((s.onPort p fun b => b.goDown since).endRange p).raise { code := 0x0B81, obj := p.val } else s

/-- A port comes UP (R426). -/
def State.portUp (s : State) (p : Fin 5) : State :=
  (s.onPort p fun b => { b with link := .up, downSince := none }).raise { code := 0x0B80, obj := p.val }

/-- A lane of a port gets block lock (R426): with all four locked the port exchanges HELLOs, with 64 credits the first time (R429). -/
def State.laneLock (s : State) (p : Fin 5) (lane : Fin 4) : State :=
  let b := s.port p
  let lanes := b.lanes ||| 2 ^ lane.val
  match b.link with
  | .up => s.onPort p fun b => { b with lanes := lanes }
  | .retraining => s.onPort p fun b => { b with lanes := lanes }
  | _ =>
    let s1 := s.onPort p fun b => { b with lanes := lanes, link := .training, credits := if b.hello.isNone && b.lanes ≠ 15 then 64 else b.credits }
    if lanes = 15 then (s1.onPort p fun b => { b with hello := none }).sayHello else s1

/-- A fast retrain ends (R426, R428, R435): the port is UP again, replay resumes, and HELLO is sent. -/
def State.retrained (s : State) (p : Fin 5) : State :=
  if (s.port p).link = .retraining then
    let s1 := (s.onPort p fun b => { b with lanes := 15, hello := none }).portUp p
    (s1.onPort p fun b =>
      let b1 := (b.resendBlocks s.now).pump s.now
      { b1 with
        frames := b1.frames.map fun f => { f with departed := s.now, resends := f.resends + 1 }
        pframeResends := b1.pframeResends + b1.frames.length, wire := (b1.frames.map fun f => frameBytes f.frame).reverse ++ b1.wire }).sayHello
  else s

/-- Blocks are re-sent, or the port goes down where one was re-sent eight times already (R428). -/
def State.replayBlocks (s : State) (p : Fin 5) : State :=
  if (s.port p).replay.isEmpty then s
  else if (s.port p).spent then s.portDown p s.now else s.onPort p fun b => b.resendBlocks s.now

/-- ACK and CREDITS of a received block (R427 to R429). -/
def BoughPort.acked (p : BoughPort) (ack credits now : Nat) : BoughPort :=
  let left := p.replay.filter fun b => !((ack + 65536 - b.bseq) % 65536 < 32768)
  { p with replay := left, credits := min 64 (p.credits + credits), ackAt := if left.length < p.replay.length then now else p.ackAt }

/-- The message whose bytes have arrived complete (R430, R432). -/
def msgOf (b : Bytes) (now : Nat) : Msg :=
  { rkind := leAt b 0 1, hops := leAt b 1 1, target := leAt b 2 2, path := leAt b 4 4, age := leAt b 8 4 + 1, packet := b.drop 16, since := now }

/-- A block accepted in order adds to what arrived (R427 to R430). -/
def BoughPort.accept (p : BoughPort) (btype : Nat) (pay : Bytes) (now : Nat) : BoughPort :=
  let q := { p with rxSeq := (p.rxSeq + 1) % 65536, ackDue := true, held := p.held + 1 }
  match btype with
  | 1 => { q with part := pay, partBlocks := 1 }
  | 2 => { q with part := q.part ++ pay, partBlocks := q.partBlocks + 1 }
  | 3 => { q with part := [], partBlocks := 0, arrived := q.arrived ++ [.msg (msgOf (q.part ++ pay) now) (q.partBlocks + 1)] }
  | 4 => { q with arrived := q.arrived ++ [.msg (msgOf pay now) 1] }
  | 5 => { q with arrived := q.arrived ++ [.link (linkOf pay)], held := q.held - 1, freed := q.freed + 1 }
  | _ => { q with held := q.held - 1, freed := q.freed + 1 }

/-- A bough block is received (R427 to R429). -/
def State.blockIn (s : State) (p : Fin 5) (b : Bytes) : State :=
  if !(s.port p).sends then s
  else if b.length ≠ 1024 || !crcOk b then s.onPort p fun x => BoughPort.pump { x with nak := true } s.now
  else
    let btype := leAt b 0 1
    let s1 := s.onPort p fun x => x.acked (leAt b 4 2) (leAt b 6 1) s.now
    let s2 := if btype = 6 then s1
      else if leAt b 2 2 = (s1.port p).rxSeq then s1.onPort p fun x => x.accept btype ((b.drop 10).take (min 1010 (leAt b 8 2))) s.now
      else s1.onPort p fun x => { x with ackDue := true }
    let s3 := if bit (leAt b 1 1) 0 then s2.replayBlocks p else s2
    s3.onPort p fun x => x.pump s.now

/-- The first of what arrived on a port is passed on: its buffers are freed (R429). -/
def State.passOn (s : State) (p : Fin 5) (buffers : Nat) : State :=
  s.onPort p fun b => BoughPort.pump { b with arrived := b.arrived.drop 1, held := b.held - buffers, freed := b.freed + buffers } s.now

/-- The first of what arrived on a port, where it is a message of a kind. -/
def State.firstMsg (s : State) (p : Fin 5) (rkind : Nat) : Option (Msg × Nat) :=
  match (s.port p).arrived.head? with
  | some (.msg m n) => if m.rkind = rkind then some (m, n) else none
  | some (.link _) => none
  | none => none

/-- The first of what arrived on a port, where it is a link message of a kind. -/
def State.firstLink (s : State) (p : Fin 5) (kind : Nat) : Option LinkMsg :=
  match (s.port p).arrived.head? with
  | some (.link l) => if l.kind = kind then some l else none
  | some (.msg _ _) => none
  | none => none

/-- A message is past its age (R432). -/
def Msg.old (m : Msg) (now : Nat) : Bool := 100000 ≤ ageNow m.age m.since now

/-- Counters of the grove that count discarded messages. -/
def State.saplingDrop (s : State) : State := s.onGrove fun g => { g with saplingDrops := g.saplingDrops + 1 }
/-- A message was discarded for its age (R432). -/
def State.ageDrop (s : State) : State := s.onGrove fun g => { g with ageDrops := g.ageDrops + 1 }

/-- A message's packet is taken by this device (R439): a sapling takes only a probe. -/
def State.takePacket (s : State) (m : Msg) : State :=
  if s.grove.role = .sapling ∧ ¬ (m.rkind = 4 ∧ leAt m.packet 2 2 = 0x0B01) then s.saplingDrop else s.receiveBytes .bough m.packet 0 0

/-- The BOUGH intake queue is full (R334, R429). -/
def State.boughFull (s : State) : Bool := 256 ≤ (s.path .bough).queue.length

/-- A UNICAST message is taken or forwarded (R439). -/
def State.unicast (s : State) (p : Fin 5) : State :=
  match s.firstMsg p 1 with
  | none => s
  | some (m, n) =>
    if m.old s.now then (s.passOn p n).ageDrop
    else if s.grove.role = .sapling then (s.passOn p n).saplingDrop
    else if s.grove.role.orphan then s.passOn p n
    else if m.target = s.grove.devaddr then (if s.boughFull then s else (s.passOn p n).takePacket m)
    else match s.grove.route m.target with
      | none => (s.passOn p n).onGrove fun g => { g with routeMisses := g.routeMisses + 1 }
      | some k => (s.passOn p n).sendOn (Fin.ofNat 5 k) m

/-- A FLOOD message is examined where admitted, and forwarded (R439). -/
def State.floodIn (s : State) (p : Fin 5) : State :=
  match s.firstMsg p 3 with
  | none => s
  | some (m, n) =>
    if m.old s.now then (s.passOn p n).ageDrop
    else if s.grove.role = .sapling then (s.passOn p n).saplingDrop
    else if s.grove.role.orphan then s.passOn p n
    else if s.member m.target then (if s.boughFull then s else ((s.passOn p n).flood m).takePacket m)
    else (s.passOn p n).flood m

/-- A PATH message is taken at its depth, or forwarded (R439). -/
def State.pathIn (s : State) (p : Fin 5) : State :=
  match s.firstMsg p 4 with
  | none => s
  | some (m, n) =>
    if m.old s.now then (s.passOn p n).ageDrop
    else if s.grove.role.orphan then s.passOn p n
    else if m.hops = pathDepth m.path then (if s.boughFull then s else (s.passOn p n).takePacket m)
    else (s.passOn p n).sendOn (pathPort m.path (m.hops + 1)) { m with hops := m.hops + 1 }

/-- The event that an event packet carries, as a manager posts it (R441, R486). -/
def eventOf (b : Bytes) : Event :=
  { code := leAt b 0 2, severity := leAt b 2 1, remote := true, coalesced := bit (leAt b 3 1) 1, devaddr := leAt b 4 2, repeated := leAt b 6 2
    tick := leAt b 8 8, seq := leAt b 16 8, reason := leAt b 24 2, obj := leAt b 26 2, ticket := leAt b 28 2
    vals := (List.range 8).map fun i => leAt b (32 + 8 * i) 8 }

/-- A packet that came UP is written by the manager into ring 4 in arrival order (R441): a reply cut to 96 bytes, an event with REMOTE set. -/
def State.writeRemote (s : State) (pkt : Bytes) : State :=
  if bit (leAt pkt 1 1) 2 then
    let e := eventOf (pkt.drop 16)
    if s.ringOn then s.toRing4 (eventCompletion e) else s.onEvents fun ev => ev.enter e
  else s.toRing4 (replyCompletion pkt (96 < pkt.length) 0)

/-- The route to a DEVADDR is learned (R438). -/
def Grove.learn (g : Grove) (devaddr port : Nat) : Grove :=
  if devaddr = 0 then g else { g with routes := putAssoc g.routes devaddr port }

/-- An UP message (R438, R439, R441). -/
def State.upIn (s : State) (p : Fin 5) : State :=
  match s.firstMsg p 2 with
  | none => s
  | some (m, n) =>
    if m.old s.now then (s.passOn p n).ageDrop
    else
      let s1 := (s.passOn p n).onGrove fun g => g.learn (leAt m.packet 8 2) p.val
      if s.grove.role.orphan then s1.onGrove fun g => { g with upDrops := g.upDrops + 1 }
      else if s.grove.role = .manager then s1.writeRemote m.packet
      else s1.onPort 0 fun b => b.push m s.now

/-- Messages past their age are discarded wherever they are held for a port (R432); a block in a replay buffer keeps its number, and its message counts once. -/
def State.ageExpiry (s : State) (p : Fin 5) : State :=
  let b := s.port p
  let old (x : OutBlock) : Bool := x.btype ≠ 5 && 100000 ≤ ageNow x.age x.since s.now
  let gone := b.out.filter old
  let cut := b.replay.filter fun x => old x && !x.dropped
  let count := (((gone ++ cut).map OutBlock.msg).eraseDups.filter fun m => !(b.replay.any fun x => x.dropped && x.msg = m)).length
  (s.onPort p fun b => { b with
    out := b.out.filter fun x => !old x, replay := b.replay.map fun x => { x with dropped := x.dropped || old x } }).onGrove
      fun g => { g with ageDrops := g.ageDrops + count }

/-- The BOUGH tag table is cleared (R342, R382, R452, R454). -/
def State.clearBoughTags (s : State) : State := s.onPath .bough fun p => { p with tags := [] }

/-- A device becomes an orphan (R450): ORPHAN_ENTERED where it was none. -/
def State.enterOrphan (s : State) (role : Role) : State :=
  let was := s.grove.role.orphan
  let s1 := s.onGrove fun g => { g with
    role := role, hasManager := false, orphanTick := if was then g.orphanTick else s.grove64, orphanEntries := g.orphanEntries + (if was then 0 else 1)
    rejoin := none, forwards := [], orphanRequestDrops := g.orphanRequestDrops + g.forwards.length }
  if was then s1 else s1.raise { code := 0x0B82, vals := [s1.grove.epoch] }

/-- A device leaves ORPHAN with a role and an epoch (R452, R454): ORPHAN_LEFT where it was an orphan. -/
def State.leaveOrphan (s : State) (role : Role) (epoch manager : Nat) : State :=
  let was := s.grove.role.orphan
  let s1 := (s.onGrove fun g => { g with role := role, epoch := epoch, manager := manager, hasManager := true }).clearBoughTags
  if was then s1.raise { code := 0x0B83, vals := [epoch] } else s1

/-- A join is refused (R453): both ends show EPOCH_CONFLICT. -/
def State.conflict (s : State) (p : Fin 5) (theirs : Nat) : State :=
  ((s.onPort p fun b => { b with conflict := true, joinHeld := false }).onGrove fun g => { g with epochConflicts := g.epochConflicts + 1 }).raise
    { code := 0x0B84, obj := p.val, vals := [s.grove.epoch, theirs], reason := 0x0B03 }

/-- Background ranging of a port begins (R447, R454). -/
def State.startRange (s : State) (p : Fin 5) (tickets : List Nat) : State :=
  s.onPort p fun b => { b with run := some (match b.run with
    | some r => { r with tickets := r.tickets ++ tickets }
    | none => { tickets := tickets, done := 0, sum := 0, t1 := 0 }) }

/-- A join from below is judged (R453). -/
def State.judge (s : State) (p : Fin 5) (l : LinkMsg) : State :=
  let g := s.grove
  let clear (s : State) : State := s.onPort p fun b => { b with joinHeld := false, conflict := false }
  let send (s : State) (kind : Nat) : State := s.onPort p fun b => b.pushLink (s.linkMsg kind g.role) s.now
  let same : Bool := l.role = 1 && l.epoch = g.epoch && l.manager = g.manager
  if l.role = 2 || l.role = 4 || same then clear s
  else if g.role = .sapling || g.role.orphan then s.onPort p fun b => { b with joinHeld := true, conflict := false }
  else if g.epoch < l.epoch then send (s.conflict p l.epoch) 3
  else if l.role = 0 then send (clear s) 6
  else (send (clear s) 2).startRange p []

/-- Joins that were held are judged again once the device has a manager (R453). -/
def State.rejudge (s : State) : State :=
  s.each dn fun s p => match (s.port p).joinHeld, (s.port p).partner with
    | true, some l => if (s.port p).link = .up then s.judge p l else s
    | _, _ => s

/-- A HELLO arrives (R426, R431, R453). -/
def State.helloIn (s : State) (p : Fin 5) : State :=
  match s.firstLink p 1 with
  | none => s
  | some l =>
    let s1 := (s.passOn p 0).onPort p fun b => { b with partner := some l }
    let s2 := if (s1.port p).link = .training then s1.portUp p else s1
    let s3 := if p = 0 then s2 else s2.judge p l
    s3.onPort p fun b => b.pump s.now

/-- JOIN_ACCEPT arrives at an orphan root (R454), or at a worker of another epoch. -/
def State.joinAccept (s : State) (p : Fin 5) : State :=
  match s.firstLink p 2 with
  | none => s
  | some l =>
    let s1 := s.passOn p 0
    if p = 0 ∧ (s.grove.role = .orphanRoot ∨ s.grove.role = .worker) then
      let s2 := s1.onPort 0 fun b => { b with conflict := false }
      let s3 := (s2.onGrove fun g => { g with rejoin := if g.role = .orphanRoot then some (s.grove64, g.epoch) else g.rejoin }).leaveOrphan .worker l.epoch l.manager
      ((s3.sendDown (s3.linkMsg 5 .worker)).rejudge).sayHello
    else s1

/-- JOIN_REFUSE arrives (R453). -/
def State.joinRefuse (s : State) (p : Fin 5) : State :=
  match s.firstLink p 3 with
  | none => s
  | some l => (s.passOn p 0).conflict p l.epoch

/-- ORPHAN_NOTICE arrives (R450, R455): the device is an orphan member, and passes the notice on. -/
def State.orphanNotice (s : State) (p : Fin 5) : State :=
  match s.firstLink p 4 with
  | none => s
  | some _ =>
    let s1 := s.passOn p 0
    if p = 0 ∧ (s.grove.role = .worker ∨ s.grove.role.orphan) then
      let s2 := s1.enterOrphan .orphanMember
      (s2.sendDown (s2.linkMsg 4 .orphanMember)).sayHello
    else s1

/-- EPOCH_SET arrives (R452, R454): the device takes the role, epoch and manager, and passes it on. -/
def State.epochSet (s : State) (p : Fin 5) : State :=
  match s.firstLink p 5 with
  | none => s
  | some l =>
    let s1 := s.passOn p 0
    if p = 0 ∧ s.grove.role ≠ .manager ∧ s.grove.role ≠ .sapling then
      let s2 := if l.role = 1 then s1.leaveOrphan .worker l.epoch l.manager
        else (s1.onGrove fun g => { g with epoch := l.epoch, manager := l.manager }).enterOrphan (Role.ofCode l.role)
      ((s2.sendDown { l with devaddr := s.grove.devaddr }).rejudge).sayHello
    else s1

/-- A device and its subtree become saplings (R442). -/
def State.saplingSet (s : State) (p : Fin 5) : State :=
  match s.firstLink p 6 with
  | none => s
  | some l =>
    let s1 := s.passOn p 0
    if p = 0 then
      let s2 := s1.onGrove fun g => { g with
        role := .sapling, devaddr := 0, epoch := 0, routes := [], hasManager := false, aligned := false, depth := 0, rejoin := none }
      (s2.sendDown { l with devaddr := 0 }).sayHello
    else s1

/-- The UP link of a device has been down for 1 ms (R450, R442). -/
def State.upLost (s : State) : Bool := ((s.port 0).downSince).any fun t => t + ms ≤ s.now

/-- An UP link down for 1 ms makes a worker or member an orphan root (R450); a DN link down that long loses what waits for it as well. -/
def State.orphanTimeout (s : State) : State :=
  let s1 := s.each dn fun s p => s.onPort p fun b =>
    if b.downSince.any (fun t => t + ms ≤ s.now) && (b.partner.map LinkMsg.role) = some 1 then b.discard else b
  if s.upLost && (s.grove.role = .worker || s.grove.role = .orphanMember) then
    let s2 := (s1.onPort 0 BoughPort.discard).enterOrphan .orphanRoot
    (s2.sendDown (s2.linkMsg 4 .orphanRoot)).sayHello
  else s1

/-- A sapling whose UP link stays down for 1 ms is MANAGER again, as after power-up (R442, R421). -/
def State.saplingTimeout (s : State) : State :=
  if s.upLost && s.grove.role = .sapling then
    (s.onGrove fun g => { g with
      role := .manager, devaddr := 0, epoch := 0, depth := 0, manager := 0, hasManager := true, bound := 2256, maxDepth := 0, mcast := Grove.reset.mcast
      aligned := true, routes := [], gtn := 1, lastBroadcast := none, requests := [], forwards := [] }).rejudge.sayHello
  else s

/-- A frame is accepted by its PSEQ (R435): whether it is the next, with its PACK; a duplicate is acknowledged again. -/
def State.frameIn (s : State) (p : Fin 5) (pseq : Nat) : State × Bool :=
  let b := s.port p
  if b.link ≠ .up then (s, false)
  else if pseq % 256 = b.rxP then ((s.onPort p fun b => { (b.sendPack pseq s.grove.devaddr) with rxP := (b.rxP + 1) % 256 }), true)
  else if (b.rxP + 256 - pseq % 256) % 256 ≤ 128 then (s.onPort p fun b => b.sendPack pseq s.grove.devaddr, false)
  else (s, false)

/-- A frame goes out on a port, unless a join over it is held or refused (R453). -/
def State.frameOut (s : State) (p : Fin 5) (f : PFrame) : State :=
  s.onPort p fun b => if b.joinHeld || b.conflict || b.link = .neverUp || b.link = .training then b else b.sendFrame f s.now

/-- A PACK frees the frame it acknowledges (R435). -/
def State.packIn (s : State) (p : Fin 5) (pseq : Nat) : State := s.onPort p fun b => { b with frames := b.frames.filter fun f => f.frame.pseq ≠ pseq % 256 }

/-- The oldest frame without PACK is re-sent 6,000 ticks after its departure, or takes the port down (R435). -/
def State.resendFrame (s : State) (p : Fin 5) : State :=
  let b := s.port p
  match b.frames with
  | [] => s
  | f :: rest =>
    if b.link = .up && f.departed + 6000 ≤ s.now then
      (if 7 ≤ f.resends then s.portDown p s.now
       else s.onPort p fun b => { b with
         frames := { f with departed := f.departed + 6000, resends := f.resends + 1 } :: rest, pframeResends := b.pframeResends + 1, wire := frameBytes f.frame :: b.wire })
    else s

/-- GROVE units deliver here (R449, R454). -/
def State.groveLive (s : State) : Bool := s.grove.role = .manager || (s.grove.role = .worker && s.grove.aligned && s.grove.rejoin.isNone)

/-- A grove trigger is delivered to this device's GROVE units (R89, R436, R449): it reaches the combiners 80 ticks after its release. -/
def State.groveTrigger (s : State) (origin tick fraction gtn : Nat) : State :=
  if !s.groveLive then s.onGrove fun g => { g with unaligned := g.unaligned + 1 }
  else
    let taken := s.now + 80
    let time := (s.internal tick).toNat * 2 ^ 32 + fraction
    let us := eight.filter fun u => (s.units.get u).on && (s.units.get u).source = 0x20
    (s.decideTo taken).each us fun s u =>
      let e : UEvent := { unit := u.val, time := time, ovrInterp := false, linear := false, grove := true, sampleTick := taken - 1376, gtn := gtn, origin := origin }
      (s.deliver e (taken + 64)).each four fun s g => s.groveGroup g e taken

/-- A grove trigger goes down on every DN port (R88, R449). -/
def State.broadcastDown (s : State) (origin tick fraction gtn : Nat) : State :=
  s.each dn fun s p => s.frameOut p { kind := 1, pseq := 0, origin := origin, tick := tick, fraction := fraction, value := gtn }

/-- A GROVE_TRIGGER frame arrives on the UP port (R89, R449): relayed and delivered, but not by an orphan. -/
def State.groveTriggerIn (s : State) (pseq origin tick fraction gtn : Nat) : State :=
  let r := s.frameIn 0 pseq
  if r.2 && !s.grove.role.orphan then (r.1.broadcastDown origin tick fraction gtn).groveTrigger origin tick fraction gtn else r.1

/-- A trigger request arrives from below (R437, R451). -/
def State.requestIn (s : State) (p : Fin 5) (pseq origin tick fraction : Nat) : State :=
  let r := s.frameIn p pseq
  let q : TrigReq := { origin := origin, tick := tick, fraction := fraction, arrived := s.now }
  if !r.2 then r.1
  else r.1.onGrove fun g =>
    match g.role with
    | .manager => if 16 ≤ g.requests.length then { g with queueDrops := g.queueDrops + 1 } else { g with requests := g.requests ++ [q] }
    | .orphanRoot => { g with orphanRequestDrops := g.orphanRequestDrops + 1 }
    | _ => if 8 ≤ g.forwards.length then { g with requestDrops := g.requestDrops + 1 } else { g with forwards := g.forwards ++ [q] }

/-- The manager takes a request from its queue (R88, R437): dropped out of time order, or broadcast with the next GTN. -/
def State.groveBroadcast (s : State) : State :=
  match s.grove.requests with
  | [] => s
  | q :: rest =>
    if s.grove.role ≠ .manager || s.now < q.arrived || s.grove.lastSent.any (fun t => s.now < t + 256) then s
    else
      let time := q.tick * 2 ^ 32 + q.fraction
      let s1 := s.onGrove fun g => { g with requests := rest }
      if s.grove.lastBroadcast.any fun t => time ≤ t then s1.onGrove fun g => { g with orderDrops := g.orderDrops + 1 }
      else
        let s2 := s1.onGrove fun g => { g with gtn := (g.gtn + 1) % 2 ^ 32, lastBroadcast := some time, lastSent := some s.now }
        (s2.broadcastDown q.origin q.tick q.fraction s.grove.gtn).groveTrigger q.origin q.tick q.fraction s.grove.gtn

/-- The next queued request goes up, 256 ticks after the last (R437). -/
def State.requestForward (s : State) : State :=
  match s.grove.forwards with
  | [] => s
  | q :: rest =>
    if s.now < q.arrived || s.grove.lastForward.any (fun t => s.now < t + 256) then s
    else (s.onGrove fun g => { g with forwards := rest, lastForward := some s.now }).frameOut 0
      { kind := 2, pseq := 0, origin := q.origin, tick := q.tick, fraction := q.fraction, value := 0 }

/-- The device above sends the next exchange of a ranging run (R445). -/
def State.rangeExchange (s : State) (p : Fin 5) : State :=
  match (s.port p).run with
  | none => s
  | some r =>
    if (s.port p).link ≠ .up || 1024 ≤ r.done then s
    else (s.onPort p fun b => { b with run := some { r with t1 := s.grove64 * 2 ^ 32 } }).frameOut p
      { kind := 3, pseq := 0, origin := s.grove.devaddr, tick := s.grove64, fraction := 0, value := r.done }

/-- The device below notes t2 and answers (R445). -/
def State.rangeReq (s : State) (pseq t1 t1frac number arrival turnaround : Nat) : State :=
  let r := s.frameIn 0 pseq
  if !r.2 then r.1
  else
    let d : Int := ((s.grove64 * 2 ^ 32 + arrival : Nat) : Int) - (t1 * 2 ^ 32 + t1frac : Nat)
    (r.1.onGrove fun g => { g with upSum := (if number = 0 then 0 else g.upSum) + d, upCount := if number = 0 then 1 else g.upCount + 1 }).frameOut 0
      { kind := 4, pseq := 0, origin := s.grove.devaddr, tick := s.grove64, fraction := arrival, value := turnaround }

/-- The device above notes t4 and takes one sample of the delay (R445). -/
def State.rangeReply (s : State) (p : Fin 5) (pseq turnaround arrival : Nat) : State :=
  let r := s.frameIn p pseq
  if !r.2 then r.1
  else r.1.onPort p fun b => { b with run := b.run.map fun k =>
    { k with done := k.done + 1, sum := k.sum + 50000 * (((s.grove64 * 2 ^ 32 + arrival : Nat) : Int) - k.t1) - (turnaround * 2 ^ 32 : Nat) } }

/-- After 1,024 exchanges the mean delay is sent and reported (R445). -/
def State.rangeComplete (s : State) (p : Fin 5) : State :=
  match (s.port p).run with
  | none => s
  | some r =>
    if r.done < 1024 then s
    else
      let d := roundDiv r.sum (2 * 2 ^ 32 * r.done)
      let s1 := (s.onPort p fun b => { b with run := none, delay := d, ranged := true, longCable := 100000000 < d }).frameOut p
        { kind := 5, pseq := 0, origin := s.grove.devaddr, tick := 0, fraction := 0, value := unsigned 32 d }
      s1.each r.tickets fun s k => s.raise { code := 0x0B87, obj := p.val, ticket := k, vals := [unsigned 64 d] }

/-- An aligned device follows the one above it: REF_SOURCE UP (R447). -/
def State.tracking (s : State) : Bool := s.grove.role = .worker && s.grove.aligned && planSource s.clock.plan = 2

/-- An aligned worker acts on UP_OFFSET (R447): misaligned beyond 50,000 fs, otherwise a tracking slew beyond 500 fs when none runs. -/
def State.track (s : State) : State :=
  let u := s.grove.upOffset
  if 50000 < u.natAbs then (s.onGrove fun g => { g with aligned := false }).raise { code := 0x0B86, vals := [unsigned 64 u] }
  else if 500 < u.natAbs && s.clock.slew.isNone then (s.onGrove fun g => { g with trackSlews := g.trackSlews + 1 }).startSlew .tracking (-u) 0 0
  else s

/-- The device below takes the mean delay (R445, R447, R454). -/
def State.rangeResult (s : State) (pseq mean : Nat) : State :=
  let r := s.frameIn 0 pseq
  if !r.2 || s.grove.upCount = 0 then r.1
  else
    let u := roundDiv (50000 * s.grove.upSum) (2 ^ 32 * s.grove.upCount) - signed 32 mean
    let s1 := r.1.onGrove fun g => { g with upOffset := u, upSum := 0, upCount := 0, rejoin := none }
    match s.grove.rejoin with
    | none => if s.tracking then s1.track else s1
    | some (tick, epoch) =>
      let s2 := if s.grove.aligned then s1.track else s1
      s2.raise { code := 0x0B85, vals := [s.grove.orphanTick, tick, epoch, unsigned 64 u, if 50000 < u.natAbs then 1 else 0] }

/-- Every 10 ms the device above ranges the link of a worker again (R447). -/
def State.trackingRange (s : State) (p : Fin 5) : State :=
  if (s.port p).link = .up && (s.port p).run.isNone && ((s.port p).partner.map LinkMsg.role) = some 1 then s.startRange p [] else s

/-- GROVE_WORD (R457). -/
def State.groveWord (s : State) : Nat :=
  let g := s.grove
  at' g.role.code 29 + bAt (g.role = .manager || g.aligned) 28 + bAt s.tracking 27 + at' g.depth 23 + g.devaddr

/-- PORTS_UP (R382). -/
def State.portsUp (s : State) : Nat := maskOf 5 fun p => (vnat s.grove.ports p).link = .up

/-- The identity of R359. -/
def State.identity (s : State) : Bytes :=
  leBytes 4 0x1620 ++ leBytes 2 (if s.is96 then 96 else 48) ++ leBytes 2 Config.stepping.toNat ++ leBytes 8 s.memBytes ++ leBytes 8 Config.uniqueId.toNat ++
    leBytes 4 Config.heartwoodVersion.toNat ++ leBytes 4 (if s.board.boot = .awaitImage then 0 else ofLe (getSparseN s.fw.image 8 4)) ++
    leBytes 2 s.grove.devaddr ++ leBytes 1 s.grove.role.code ++ leBytes 1 (bAt s.fw.ownerKey.isSome 0 + bAt s.fw.ownerImage 1) ++
    leBytes 4 s.grove.epoch ++ zeros 24

/-- PATH and ASSIGN of a probe (R382). -/
def probePath (b : Bytes) : Nat := leAt b 0 4
/-- ASSIGN (R382). -/
def probeAssign (b : Bytes) : Bool := bit (leAt b 6 1) 0
/-- DEPTH of a probe is 1 to 8 (R382). -/
def probeDepthOk (b : Bytes) : Bool := 1 ≤ pathDepth (probePath b) && pathDepth (probePath b) ≤ 8

/-- A device takes what a probe with ASSIGN gives it (R382, R443). -/
def State.assign (s : State) (b : Bytes) (source : Nat) : State :=
  ((s.onGrove fun g => { g with
    devaddr := leAt b 4 2, aligned := g.aligned && g.role = .worker, role := .worker, epoch := leAt b 8 4, bound := leAt b 12 4
    depth := pathDepth (probePath b), manager := source, hasManager := true }).clearBoughTags).rejudge.sayHello

/-- ENUM_PROBE (R381, R382, R443), with ASSIGN or without. -/
def cardEnumProbe (b : Bytes) : Card where
  opcode := 0x0B01
  states := setW
  boughOnly := true
  reservedOk := bits (leAt b 0 4) 20 12 == 0 && bits (leAt b 6 1) 1 7 == 0 && leAt b 7 1 == 0
  sizeOk := b.length = 16
  checks := fun _ => firstOf [(!probeDepthOk b || (if probeAssign b then leAt b 4 2 = 0 else leAt b 4 2 ≠ 0 || leAt b 8 8 ≠ 0), Reply.refused 0x0B01)]
  run := fun h s =>
    let s1 := if probeAssign b then s.assign b h.source.toNat else s
    (s1, .done (Reply.ok (s1.identity ++ leBytes 1 s1.portsUp ++ zeros 7)))

/-- GROVE_CONFIG (R381, R423): bit 255 always reads 1. -/
def cardGroveConfig (b : Bytes) : Card where
  opcode := 0x0B02
  states := setW
  sizeOk := b.length = 32
  run := doOk fun s => s.onGrove fun g => { g with mcast := structAt 256 b 0 ||| BitVec.ofNat 256 (1 <<< 255) }

/-- GROVE_RANGE (R381, R445). -/
def cardGroveRange (b : Bytes) : Card where
  opcode := 0x0B03
  states := setW
  own := true
  reservedOk := word b 0 < 4
  sizeOk := b.length = 4
  checks := fun s => firstOf [((s.port (Fin.ofNat 5 (1 + word b 0))).link ≠ .up, Reply.refused 0x0B04)]
  run := fun h s => (s.startRange (Fin.ofNat 5 (1 + word b 0)) [h.ticket.toNat], .done Reply.deferred)

/-- GROVE_ALIGN (R280, R281, R381, R446): load at once, slew of the fraction. -/
def cardGroveAlign (b : Bytes) : Card where
  opcode := 0x0B04
  states := [4]
  reservedOk := leAt b 12 4 == 0
  sizeOk := b.length = 16
  busy := fun s => firstOf [(s.clock.slew.isSome || s.clock.sync.isSome, Reply.busy 0x0104)]
  checks := fun s => firstOf [(s.stim.enabled, s.seqState), (50000 < (signed 32 (leAt b 8 4)).natAbs, Reply.refused 0x0B01)]
  run := fun h s =>
    let fs := signed 32 (leAt b 8 4)
    let s1 := (s.load (signed 64 (leAt b 0 8))).onGrove fun g => { g with aligned := true }
    if fs = 0 then (s1, .done (Reply.ok)) else (s1.startSlew .align fs h.ticket.toNat 0, .done Reply.deferred)

/-- The device heads its subtree with the epoch one higher (R452). -/
def State.promote (s : State) : State :=
  let s1 := s.leaveOrphan .manager ((s.grove.epoch + 1) % 2 ^ 32) s.grove.devaddr
  let s2 := s1.onGrove fun g => { g with gtn := 1, lastBroadcast := none, requests := [], rejoin := none }
  ((s2.sendDown (s2.linkMsg 5 .worker)).rejudge).sayHello

/-- PROMOTE (R381, R452). -/
def cardPromote (b : Bytes) : Card where
  opcode := 0x0B05
  states := [9]
  pcieOnly := true
  own := true
  sizeOk := b.length = 0
  checks := fun s => firstOf [(s.grove.role ≠ .orphanRoot, Reply.refused 0x0B05)]
  run := fun _ s => let s1 := s.promote; (s1, .done (Reply.ok (leBytes 4 s1.grove.epoch)))

/-- The device gives up its epoch and is an orphan root (R452). -/
def State.demote (s : State) : State :=
  let s1 := (s.onGrove fun g => { g with epoch := 0 }).enterOrphan .orphanRoot
  (s1.sendDown (s1.linkMsg 5 .orphanMember)).sayHello

/-- DEMOTE (R381, R452). -/
def cardDemote (b : Bytes) : Card where
  opcode := 0x0B06
  states := setW
  pcieOnly := true
  own := true
  sizeOk := b.length = 0
  checks := fun s => firstOf [(s.grove.role ≠ .manager && !s.grove.role.orphan, Reply.refused 0x0B02)]
  run := doOk State.demote

/-- GROVE_STATUS (R381, R383). -/
def cardGroveStatus (b : Bytes) : Card where
  opcode := 0x0B07
  states := setQ
  sizeOk := b.length = 0
  run := fun _ s =>
    let g := s.grove
    (s, .done (Reply.ok (leBytes 2 g.devaddr ++ leBytes 1 g.role.code ++ leBytes 1 g.depth ++ leBytes 4 g.epoch ++ leBytes 4 g.bound ++
      leBytes 1 s.portsUp ++ zeros 3 ++ (dn.map fun p => leBytes 4 (if (s.port p).ranged then unsigned 32 (s.port p).delay else 0)).flatten)))

/-- The query twin of GROVE_CONFIG (R353, R381). -/
def groveQuery (op : Nat) (b : Bytes) : Option Card :=
  match op with
  | 0x0B82 => some (queryCard op b 0 0 fun s _ => structBytes s.grove.mcast)
  | _ => none

end Sys2Proof.Machine
end

