-- ==== Sys2Proof/Machine/WindowOps.lean ====
section
/-!
DEFINITION. The BAR0 status window (17, R218, R490 to R494): its words, its 64-bit values, reads with their effects, writes, and SYS_STATUS.
-/
namespace Sys2Proof.Machine

/-- The firer of a group's combiner holds a GROVE unit (R98). -/
def State.groveFirer (s : State) (g : Fin 4) : Bool := (List.range 8).any fun u => bit (combFire (s.groups.get g).comb) u && s.isGrove u

/-- ENGINE_WORD (R491). -/
def State.engineWord (s : State) : Nat := at' s.engineState 24 + s.board.engineWord.toNat

/-- EVENT_STATUS (R492). -/
def State.eventStatus (s : State) : Nat :=
  bAt (!s.events.pending.isEmpty) 31 + at' (min 2047 s.events.pending.length) 16 + min 1024 s.events.queue.length

/-- WINDOW_STATUS of a requester (R219). -/
def Shadow.status (w : Shadow) : Nat := bAt w.halfOrder 31 + bAt w.latched 30 + at' (bits (w.offset / 8) 0 13) 3

/-- BOOT_REPLY_STATUS (R490). -/
def State.replyStatus (s : State) : Nat := bAt s.host.bootValid 31 + bits s.host.bootLength 0 13

/-- Ring counts of a ring at a word of its 16 bytes: the tail and head doorbells read as zero (R199, R330, R490). -/
def State.ringWord (s : State) (ring k : Nat) : Nat :=
  let r := if ring < 4 then (vnat s.rings ring).cpl else s.ring4
  match k with
  | 1 => if ring < 4 then (vnat s.rings ring).descHead else s.host.cmdHead
  | 2 => r.tail
  | _ => 0

/-- The number of the first word of a table of n words at a base, or none where an offset lies outside it. -/
def wordIn (off base n : Nat) : Option Nat := if base ≤ off && off < base + 4 * n then some ((off - base) / 4) else none

/-- A word that is not a half of a 64-bit value, in the states from AWAIT_IMAGE on (R490). -/
def State.statusWord (s : State) (req : Requester) (off : Nat) : Nat :=
  let table : List (Option Nat) := [
    (wordIn off 0x0100 16).map fun i => s.bankStatus (Fin.ofNat 16 i),
    (wordIn off 0x0140 4).map fun i => s.calStatus (Fin.ofNat 4 i),
    (wordIn off 0x0150 4).map fun i => ((vnat s.quads i).setAt s.now).1,
    (wordIn off 0x0160 16).map fun i => (vnat s.banks i).calCount,
    (wordIn off 0x01A0 4).map fun i => (vnat s.groups i).trigStatus (s.groveFirer (Fin.ofNat 4 i)),
    (wordIn off 0x01B0 4).map fun i => (vnat s.groups i).capStatus,
    (wordIn off 0x01C0 4).map fun i => (vnat s.accs i).status,
    (wordIn off 0x01D0 4).map fun i => s.memStatus (Fin.ofNat 4 i),
    (wordIn off 0x01E0 2).map fun i => (vnat s.stim.chs i).status,
    (wordIn off 0x0200 5).map fun i => (vnat s.grove.ports i).status,
    (wordIn off 0x0400 20).map fun i => s.ringWord (i / 4) (i % 4),
    (wordIn off 0xA000 1029).map fun i => ofLe (getSparseN s.host.mailbox (4 * i) 4),
    (wordIn off 0xB400 1029).map fun i => leAt s.host.bootReply (4 * i) 4]
  match off with
  | 0x0000 => s.engineWord
  | 0x0004 => s.board.bootStatus.toNat
  | 0x0008 => s.clkStatus
  | 0x000C => s.mon.status
  | 0x0010 => s.groveWord
  | 0x0014 => s.grove.epoch
  | 0x0018 => s.eventStatus
  | 0x001C => (s.shadows.get req.idx).status
  | 0x0024 => (s.mon.reqs.get req.idx).word
  | 0x002C => s.replyStatus
  | _ => (table.findSome? id).getD 0

/-- In RESET and HEARTWOOD only ENGINE_WORD and BOOT_STATUS read as other than zero (R461). -/
def State.windowDark (s : State) : Bool := s.board.boot = .reset || s.board.boot = .heartwood

/-- A 32-bit word of the window as it reads now (R461, R490). -/
def State.word32 (s : State) (req : Requester) (off : Nat) : Nat := if s.windowDark && 0x0004 < off then 0 else s.statusWord req off % 2 ^ 32

/-- One value per element of a vector. -/
def per {α : Type} {n : Nat} (v : Vector α n) (f : α → Nat) : List Nat := v.toList.map f

/-- The real-time ports RTW0 to RTW15 and SFP, in the order of R174 and R493. -/
def rtPorts (s : State) : List Port := s.mem.ports.toList.take 16 ++ [vnat s.mem.ports 0x15]

/-- STREAM_USED (R128). -/
def Group.streamUsed (g : Group) : Nat := if g.streaming then 2048 * (g.streamWritten - g.streamDrained) else 0

/-- The slots of a block of 64-bit values, in the order of R493: block k lies at 0x1000 + 0x400 k. -/
def State.values (s : State) (k : Nat) : List Nat :=
  match k with
  | 0 => per s.banks (fun b => b.link.cnt.resends) ++ per s.banks (fun b => b.link.cnt.faults) ++ per s.banks (fun b => b.link.cnt.maxLateness)
  | 1 => per s.units TUnit.events ++ per s.units TUnit.extra ++ per s.groups (fun g => g.cnt.accepted) ++ per s.groups (fun g => g.cnt.missed) ++
      per s.groups (fun g => g.cnt.holdoffSkips) ++ per s.groups (fun g => g.cnt.backdateShorts) ++ per s.groups (fun g => g.cnt.groveEarly) ++
      per s.groups (fun g => g.cnt.groveLate) ++ [if s.grove.role = .manager then s.grove.orderDrops else 0] ++
      (s.groups.toList.flatMap fun g => [g.lastTick, g.lastFraction]) ++ per s.units TUnit.cancels
  | 2 => per s.groups (fun g => g.cnt.recordsMade) ++ per s.groups (fun g => g.cnt.wraps) ++ per s.groups (fun g => g.cnt.lockSkips) ++
      per s.groups (fun g => g.cnt.streamOverflows) ++ per s.groups Group.nextSeq ++ per s.groups Group.streamUsed
  | 3 => per s.accs (fun a => a.cycle.records) ++ per s.accs (fun a => a.cnt.cycles) ++ per s.accs (fun a => a.cnt.excluded) ++
      per s.accs (fun a => a.cnt.surplus) ++ per s.accs (fun a => a.cnt.snapSkips) ++ per s.accs (fun a => a.cnt.saturations)
  | 4 =>
    let st (f : StackCounters → Nat) : List Nat := per s.mem.hbm fun k => f k.cnt
    st (·.postponed) ++ st (·.forced) ++ st (·.pullins) ++ st (·.neighbours) ++ st (·.neighbourForced) ++ (rtPorts s).map Port.entries ++
      (rtPorts s).map Port.maxLevel ++ st (·.ageCapWins) ++ st (·.forwardHits) ++ st (·.corrected) ++ st (·.uncorrectable) ++
      [s.mem.rereads, s.mem.blockBad, s.mem.unmapped, s.mem.unavailable, s.mem.regrains]
  | 5 => per s.rings Ring.blocks ++ per s.rings Ring.fetches ++ per s.rings Ring.descErrors ++ per s.rings (fun r => r.cpl.fullWaits) ++
      [s.ring4.fullWaits] ++ per s.rings Ring.overwrites ++ [s.host.doorbellErrors]
  | 6 => per s.banks Bank.lastFgTick ++ per s.groups (fun g => g.cnt.calSkips) ++ per s.quads Quad.changeovers ++ per s.quads Quad.gatherTicks ++
      per s.banks Bank.bgEstimates ++ per s.banks Bank.bgSkips ++ [s.cal.runs, s.cal.failures]
  | 7 =>
    let c := s.clock.cnt
    [s.groveTime, unsigned 64 s.clock.refPhaseStep, unsigned 64 s.clock.refOffset, unsigned 64 s.slewRemaining, c.lockLosses, c.refLosses,
      c.fallbackSwitches, c.clockStops, c.bandSearches, c.cacheHits, c.holdoverTicks, c.timeLoads]
  | 8 => per s.stim.chs StimCh.seq ++ per s.stim.chs StimCh.iter ++ (s.stim.markers.toList.flatMap fun m => [m.riseTick, m.riseFraction]) ++
      per s.stim.chs StimCh.underruns ++ per s.stim.chs StimCh.underrunUpdates ++ [s.stim.starved] ++ per s.stim.chs StimCh.jumps ++
      per s.stim.chs StimCh.tuIgnored
  | 9 => [s.mon.conversions] ++ per s.mon.windows MonWindow.exits ++ per s.mon.reqs MonReq.busyWrites ++ per s.mon.reqs MonReq.tick
  | 10 =>
    let p (f : PathCounters → Nat) : List Nat := per s.paths fun x => f x.cnt
    p (·.executed) ++ p (·.badPackets) ++ p (·.stateReplies) ++ p (·.staleTickets) ++ p (·.noticesSent) ++ p (·.noticeSkips) ++ p (·.intakeFull)
  | 11 => per s.groups (fun g => g.cnt.armRefusals) ++ [s.stim.armRefusals]
  | 12 => s.fw.restartsBy ++ s.fw.calls ++ s.fw.refusals ++ [s.fw.scErrors]
  | 13 =>
    let g := s.grove
    per g.ports BoughPort.blockResends ++ per g.ports BoughPort.pframeResends ++ per g.ports BoughPort.linkDowns ++
      per g.ports BoughPort.pframeDiscards ++
      [g.ageDrops, g.routeMisses, g.upDrops, g.saplingDrops, g.queueDrops, g.requestDrops, g.orphanRequestDrops, g.orphanEntries, g.unaligned,
        g.trackSlews, g.epochConflicts, unsigned 64 g.upOffset]
  | 14 => [s.events.seq, s.events.coalesced, s.events.holdTicks, s.events.fatalCauses]
  | _ => []

/-- An offset lies among the 64-bit values (R490). -/
def inValues (off : Nat) : Bool := 0x1000 ≤ off && off < 0x4C00

/-- The 64-bit value at an 8-byte aligned offset; none for a slot that belongs to no value (R493). -/
def State.value64 (s : State) (off : Nat) : Option Nat :=
  if inValues off then ((s.values ((off - 0x1000) / 0x400))[(off - 0x1000) % 0x400 / 8]?).map fun v => if s.windowDark then 0 else v % two64 else none

/-- What a read of a 64-bit value clears (R18, R54, R196): LINK_MAX_LATENESS of a bank and RT_MAX_LEVEL of a port. -/
def State.clearValue (s : State) (off : Nat) : State :=
  let i := (off - 0x1000) % 0x400 / 8
  if off < 0x1000 ∨ s.windowDark then s
  else match (off - 0x1000) / 0x400 with
    | 0 => if 32 ≤ i ∧ i < 48 then s.onBank (Fin.ofNat 16 (i - 32)) fun b => { b with link := { b.link with cnt := { b.link.cnt with maxLateness := 0 } } } else s
    | 4 => if 37 ≤ i ∧ i < 54 then s.onMem fun m => m.onPort (Fin.ofNat 23 (if i = 53 then 21 else i - 37)) fun p => { p with maxLevel := 0 } else s
    | _ => s

/-- What a read of a 32-bit word clears (R15, R195): MAX_DEBT of a stack. -/
def State.clearWord (s : State) (off : Nat) : State :=
  match wordIn off 0x01D0 4 with
  | some i => if s.windowDark then s else s.onMem fun m => m.onStack (Fin.ofNat 4 i) fun k => { k with maxDebt := 0 }
  | none => s

/-- The value returned to a requester is noted (R218). -/
def State.returns (s : State) (req : Requester) (v : Nat) : State := { s with readValues := vmod s.readValues req.idx fun _ => v }

/-- A requester's shadow changes (R218). -/
def State.onShadow (s : State) (req : Requester) (f : Shadow → Shadow) : State := { s with shadows := vmod s.shadows req.idx f }

/-- A 32-bit read of the low half of a 64-bit value (R18, R218): the shadow is latched, and an RC counter cleared. -/
def State.readLow (s : State) (req : Requester) (x : Nat) : State :=
  match s.value64 x with
  | none => s.returns req 0
  | some v => ((s.onShadow req fun w => { w with value := v, offset := x, latched := true }).clearValue x).returns req (v % 2 ^ 32)

/-- A 32-bit read of the high half of the 64-bit value at x (R218): the shadow's, and HALF_ORDER where it was not latched from there. -/
def State.readHigh (s : State) (req : Requester) (x : Nat) : State :=
  if (s.value64 x).isNone then s.returns req 0
  else
    let w := s.shadows.get req.idx
    (s.onShadow req fun w => if w.latched && w.offset = x then w else { w with halfOrder := true }).returns req (w.value / 2 ^ 32)

/-- An aligned 32-bit read of the window (R218, R490). -/
def State.read32 (s : State) (req : Requester) (off : Nat) : State :=
  let o := off % 0x10000 / 4 * 4
  if inValues o then (if o % 8 = 0 then s.readLow req o else s.readHigh req (o - 4)) else (s.clearWord o).returns req (s.word32 req o)

/-- An aligned 64-bit read of the window (R218, R490): a 64-bit value whole, or two words as two reads at the same instant. -/
def State.read64 (s : State) (req : Requester) (off : Nat) : State :=
  let o := off % 0x10000 / 8 * 8
  if inValues o then
    match s.value64 o with
    | none => s.returns req 0
    | some v => (s.clearValue o).returns req v
  else ((s.clearWord o).clearWord (o + 4)).returns req (s.word32 req o + 2 ^ 32 * s.word32 req (o + 4))

/-- Writing 1 to HALF_ORDER clears it (R219). -/
def State.clearHalfOrder (s : State) (req : Requester) (value : Nat) : State :=
  if bit value 31 && !s.windowDark then s.onShadow req fun w => { w with halfOrder := false } else s

/-- The BOOT_DOORBELL (R331): ignored and counted while a packet is unanswered, while the command ring is enabled and in RESET; held in HEARTWOOD. -/
def State.bootDoorbell (s : State) (len : Nat) : State :=
  if s.board.boot = .reset ∨ s.ringOn ∨ s.host.bootBusy ∨ s.host.bootHeld.isSome then s.badDoorbell
  else if s.board.boot = .heartwood then s.onHost fun h => { h with bootValid := false, bootHeld := some len }
  else
    (s.onHost fun h => { h with bootValid := false, bootBusy := true }).receiveBytes .pcie (getSparseN s.host.mailbox 0 (min len 4117)) 0 0

/-- A packet whose doorbell was held in HEARTWOOD is taken (R331, R360). -/
def State.takeHeldBoot (s : State) : State :=
  match s.host.bootHeld with
  | none => s
  | some len => (s.onHost fun h => { h with bootHeld := none }).bootDoorbell len

/-- A 32-bit write to the window (R490): WINDOW_STATUS, MON_CTRL, the doorbells and the mailbox take it; elsewhere it is ignored. -/
def State.write32 (s : State) (req : Requester) (off v : Nat) : State :=
  if s.board.boot = .reset then (if off = 0x28 then s.badDoorbell else s)
  else if (wordIn off 0xA000 1029).isSome then s.onHost fun h => { h with mailbox := putSparse h.mailbox (off - 0xA000) (leBytes 4 v) }
  else if off = 0x28 then s.bootDoorbell v
  else if s.windowDark then s
  else match off with
    | 0x1C => s.clearHalfOrder req v
    | 0x20 => s.monCtrl req.idx v
    | 0x440 => s.cmdTailTo v
    | _ =>
      match wordIn off 0x0400 20 with
      | none => s
      | some i =>
        if i % 4 = 0 then s.descTail (Fin.ofNat 4 (i / 4)) v
        else if i % 4 = 3 then s.cplHead (Fin.ofNat 5 (i / 4)) v
        else s

/-- A write to the window: a 64-bit write acts as two 32-bit writes, the lower offset first (R490). -/
def State.writeWindow (s : State) (req : Requester) (off : Nat) (wide : Bool) (v : Nat) : State :=
  if wide then
    let o := off % 0x10000 / 8 * 8
    (s.write32 req o (v % 2 ^ 32)).write32 req (o + 4) (v / 2 ^ 32 % 2 ^ 32)
  else s.write32 req (off % 0x10000 / 4 * 4) (v % 2 ^ 32)

/-- The device status block (R494). -/
def State.sysStatus (s : State) : Bytes :=
  let w (off n : Nat) : Bytes := ((List.range n).map fun i => leBytes 4 (s.word32 .host (off + 4 * i))).flatten
  w 0 7 ++ leBytes 4 (maskOf 16 (fun b => (vnat s.banks b).link.faulted) + at' (maskOf 4 fun q => (vnat s.quads q).state = .ready) 16) ++
    leBytes 8 s.groveTime ++ leBytes 8 (unsigned 64 s.grove.upOffset) ++ w 0x01B0 4 ++ w 0x01D0 4 ++ w 0x0140 4 ++ w 0x01E0 2 ++ w 0x0200 5 ++ zeros 4

end Sys2Proof.Machine
end

