-- ==== Sys2Proof/Machine/SysOps.lean ====
section
/-!
DEFINITION. The system and firmware families' cards (R358 to R361, R384, R385), the authentication of an image (R400, R401), the start of INIT (R464, R465), and the board's interfaces (R506 to R513).
-/
namespace Sys2Proof.Machine

/-- SYS_ECHO (R358). -/
def cardSysEcho (b : Bytes) : Card where
  opcode := 0x0000
  states := setQ
  sizeOk := b.length % 4 = 0 && b.length ≤ 4088
  run := fun _ s => (s, .done (Reply.ok b))

/-- SYS_IDENTIFY (R358, R359). -/
def cardSysIdentify (b : Bytes) : Card where
  opcode := 0x0001
  states := setQ
  sizeOk := b.length = 0
  run := fun _ s => (s, .done (Reply.ok s.identity))

/-- SYS_STATUS (R358, R494). -/
def cardSysStatus (b : Bytes) : Card where
  opcode := 0x0002
  states := setQ
  sizeOk := b.length = 0
  run := fun _ s => (s, .done (Reply.ok s.sysStatus))

/-- CMD_RING_SETUP's parameters are invalid (R332). -/
def setupInvalid (c : BitVec 256) : Bool :=
  fld c 192 64 % 4096 ≠ 0 || fld c 128 64 % 4096 ≠ 0 || fld c 124 4 < 4 || 12 < fld c 124 4 || fld c 120 4 < 4

/-- CMD_RING_SETUP (R332, R358): not while another PCIe command is queued or executing, or descriptors are not yet taken. -/
def cardCmdRingSetup (b : Bytes) : Card where
  opcode := 0x0003
  states := setQ
  pcieOnly := true
  own := true
  reservedOk := zeroFields (structAt 256 b 0) [(96, 13), (1, 63)]
  sizeOk := b.length = 32
  checks := fun s => firstOf [(1 < (s.path .pcie).queue.length || (s.ringOn && s.host.cmdHead ≠ s.host.cmdTail), Reply.state 0x0010 0),
    (setupInvalid (structAt 256 b 0), Reply.refused 0x0021)]
  run := doOk fun s => s.onHost fun h => { h with setup := some (structAt 256 b 0) }
  after := State.applySetup

/-- The answer of TAG_RETIRE about a generation of a tag, and the table afterwards (R345). -/
def PathState.retire (p : PathState) (tag gen : Nat) : Nat × PathState :=
  match p.lastGen tag with
  | none => (1, p.record tag gen)
  | some g => if g = gen then (0, p) else if newerGen gen g then (1, p.record tag gen) else (2, p)

/-- TAG_RETIRE (R345, R358). -/
def cardTagRetire (b : Bytes) : Card where
  opcode := 0x0004
  states := setQ
  own := true
  reservedOk := bits (word b 0) 16 16 == 0
  sizeOk := b.length = 4
  run := fun h s =>
    let r := (s.path h.path).retire (bits (word b 0) 4 12) (bits (word b 0) 0 4)
    (s.onPath h.path fun _ => r.2, .done (Reply.ok (leBytes 1 r.1 ++ zeros 3)))

/-- A completion carries the reply of an executed SYS_RESET (R360). -/
def Completion.isReset (c : Completion) : Bool :=
  c.kind = .reply && leAt c.body 2 2 = 5 && leAt c.body 1 1 = 1 && leAt c.body 16 1 = 0

/-- An executed SYS_RESET takes effect once its reply has been written (R360). -/
def State.applyReset (s : State) : State :=
  if s.board.resetPending && !(s.ringOn && s.ring4.waiting.any Completion.isReset) then s.toReset.leaveReset else s

/-- SYS_RESET (R358, R360). -/
def cardSysReset (b : Bytes) : Card where
  opcode := 0x0005
  states := setQ
  sizeOk := b.length = 4
  checks := fun _ => firstOf [(word b 0 ≠ 0xA55A, Reply.refused 0x0023)]
  run := doOk fun s => s.onBoard fun k => { k with resetPending := true }
  after := State.applyReset

/-- The events taken off the queue by a fetch of at most n (R361): what is left, with held ones entering as entries free. -/
def Events.fetch (ev : Events) (n : Nat) : Events :=
  let took := (ev.queue.take n).filter fun e => !e.remote
  ({ ev with queue := ev.queue.drop n, written := (took.getLast?.map Event.seq).getD ev.written }).refill

/-- EVENT_FETCH (R358, R361). -/
def cardEventFetch (b : Bytes) : Card where
  opcode := 0x0006
  states := setQ
  reservedOk := bits (word b 0) 6 26 == 0
  sizeOk := b.length = 4
  checks := fun s => firstOf [(s.ringOn && s.board.boot ≠ .fault, Reply.state 0x0017 (stateDetail 0x0B 4 0 0)),
    (word b 0 = 0 || 42 < word b 0, Reply.refused 0x0024)]
  run := fun _ s =>
    let took := s.events.queue.take (word b 0)
    let ev := s.events.fetch (word b 0)
    (s.onEvents fun _ => ev, .done (Reply.ok (leBytes 2 took.length ++ leBytes 2 (min 65535 (ev.queue.length + ev.pending.length)) ++ zeros 4 ++
      (took.map Event.body).flatten)))

/-- The field prime of P-384 (PRESUMED: the standard curve that R384 names; log 26). -/
def p384 : Nat := 2 ^ 384 - 2 ^ 128 - 2 ^ 96 + 2 ^ 32 - 1
/-- The coefficient b of P-384 (PRESUMED, log 26). -/
def p384b : Nat := 0xB3312FA7E23EE7E4988E056BE3F82D19181D9C6EFE8141120314088F5013875AC656398D8A2ED19D2A85C8EDD3EC2AEF

/-- A point in affine coordinates lies on P-384: y² = x³ − 3x + b (R384). -/
def onCurve (x y : Nat) : Bool := x < p384 && y < p384 && y * y % p384 == (x * x * x + (p384 - 3) * x + p384b) % p384

/-- KEY_INSTALL (R384). -/
def cardKeyInstall (b : Bytes) : Card where
  opcode := 0x0C01
  states := [2]
  pcieOnly := true
  own := true
  sizeOk := b.length = 96
  checks := fun s => firstOf [(s.fw.ownerKey.isSome, Reply.refused 0x0C05), (!onCurve (leAt b 0 48) (leAt b 48 48), Reply.refused 0x0C02)]
  run := doOk fun s => s.onFw fun w => { w with ownerKey := some (leAt b 0 96) }

/-- IMAGE_LOAD (R384, R385). -/
def cardImageLoad (b : Bytes) : Card where
  opcode := 0x0C02
  states := [2]
  pcieOnly := true
  own := true
  sizeOk := b.length % 4 = 0 && 8 ≤ b.length && b.length ≤ 4084
  checks := fun _ => firstOf [(word b 0 % 4 ≠ 0 || 2 ^ 24 < word b 0 + (b.length - 4), Reply.refused 0x0C04)]
  run := doOk fun s => s.onFw fun w => { w with image := putSparse w.image (word b 0) (b.drop 4) }

/-- IMAGE_START (R384, R401): its reply waits for the authentication. -/
def cardImageStart (b : Bytes) : Card where
  opcode := 0x0C03
  states := [2]
  pcieOnly := true
  own := true
  sizeOk := b.length = 4
  checks := fun _ => firstOf [(word b 0 % 4 ≠ 0 || 2 ^ 24 < word b 0, Reply.refused 0x0C04)]
  run := fun _ s => (s.onFw fun w => { w with auth := some (word b 0) }, .held .imageAuth)

/-- A number in the image's header (R400). -/
def State.imageAt (s : State) (off n : Nat) : Nat := ofLe (getSparseN s.fw.image off n)
/-- TEXT_BYTES and DATA_BYTES of the image (R400). -/
def State.imageData (s : State) : Bytes := getSparseN s.fw.image (256 + s.imageAt 16 4) (s.imageAt 20 4)

/-- Steps 1 to 3 of R401, but for the vendor key's hash: form and sizes, MIN_HEARTWOOD, and the owner's key. -/
def State.imageFits (s : State) (total : Nat) : Bool :=
  s.imageAt 0 4 = 0x53570001 && s.imageAt 4 2 = 1 && s.imageAt 6 1 ≤ 1 && s.imageAt 7 1 = 0 && s.imageAt 40 8 = 0 && s.imageAt 144 16 = 0 &&
  s.imageAt 12 4 = total && total % 4 = 0 && 256 ≤ total && total ≤ 2 ^ 24 && s.imageAt 16 4 + s.imageAt 20 4 + 256 = total &&
  s.imageAt 24 4 + s.imageAt 20 4 + 0x10000 ≤ 0x800000 && s.imageAt 36 4 ≤ Config.heartwoodVersion.toNat &&
  (s.imageAt 6 1 = 0 || s.fw.ownerKey == some (s.imageAt 48 96))

/-- The data of the image are copied into Sapwood SRAM, the rest of which is zeroed but for the persist area where it is kept (R401, R416). -/
def State.restoreSram (s : State) (keep : Bool) : State :=
  (s.onFw fun w => { w with sram := if keep then w.sram.filter fun (a, _) => a < 0x10010000 else [] }).putSram 0x10010000 s.imageData

/-- The four cores start (R401, R416). -/
def State.startCores (s : State) (a0 a1 : Nat) : State := s.onFw fun w => { w with
  running := true, callQueue := [], lastTake := []
  cores := Vector.ofFn fun i : Fin 4 => { Core.reset with
    kicked := s.now, a0 := a0, a1 := a1, entry := if i.val = 0 then s.imageAt 28 4 else s.imageAt 32 4 } }

/-- INIT begins (R464, R465): Sapwood runs, the main loop locks and the memories train. -/
def State.enterInit (s : State) : State :=
  let ticket := (((s.path .pcie).queue.find? (Entry.waitsFor .imageAuth)).map fun e => e.hdr.ticket.toNat).getD 0
  let s1 := (s.onBoard fun b => { b with boot := .init, initAt := s.now, initTicket := ticket }).bootBit 24
  let s2 := ((s1.onMem fun m => { m with initDone := false, initRunning := false }).startTraining true).onClock fun c => { c with refJudged := false }
  let s3 := (s2.restoreSram false).onFw fun w => { w with ownerImage := s.imageAt 6 1 = 1 }
  (s3.startCores 0 0).coldLock

/-- The end of an image's authentication (R401): ok is the outcome of its hashes and of its signature. -/
def State.authDone (s : State) (ok : Bool) : State :=
  match s.fw.auth with
  | none => s
  | some total =>
    let s1 := s.onFw fun w => { w with auth := none }
    if ok && s.imageFits total then s1.enterInit.finish .imageAuth Reply.deferred else s1.finish .imageAuth (Reply.refused 0x0C01)

/-- The bough transmitters run: from INIT on, and in a FAULT entered after it (R426, R503). -/
def State.boughOn (s : State) : Bool := match s.board.boot with
  | .init => true
  | .run => true
  | .fault => flag s.board.bootStatus 24
  | .reset => false
  | .heartwood => false
  | .awaitImage => false

/-- The slave answers a read with bytes taken at one instant (R507, R508, R510); with PWR_OK low it does not answer. -/
def State.smbRead (s : State) (code : Nat) (data : Bytes) : State :=
  s.onBoard fun b => { b with smb := some { code := code, acked := b.pwrOk, data := if b.pwrOk then data else [] } }

/-- The address of the SMBus slave (R507). -/
def State.smbAddress (s : State) : Nat := 0x58 + s.board.straps

/-- PINS (R509). -/
def State.pins (s : State) : Nat :=
  let b := s.board
  bAt (s.mem.hbm.any Stack.hot) 7 + bAt b.perstReleased 6 + bAt b.ready 5 + bAt b.faultLow 4 + bAt b.thermLow 3 +
    bAt s.clock.refPresent 2 + bAt s.clock.xoPresent 1 + bAt b.alert 0

/-- TEMPS (R508): MON0 to MON9, two bytes each. -/
def State.smbTemps (s : State) : Bytes :=
  ((List.range 10).map fun i => let v := s.mon.temps.getD i (0, false); leBytes 2 (bAt v.2 15 + v.1 % 4096)).flatten

/-- An instruction of the test access port is loaded (R511, R512): while PWR_OK is low the port stays in Test-Logic-Reset; one that takes the pins acts as BYPASS unless PERST_N is asserted. -/
def State.tapLoad (s : State) (i : TapInstr) (takes : Bool) (cells : Option (BitVec 151)) : State :=
  if !s.board.pwrOk then s.onBoard fun b => { b with tap := .idcode }
  else if takes && s.board.perstReleased then s.onBoard fun b => { b with tap := .bypass }
  else s.onBoard fun b => { b with tap := i, boundary := cells.getD b.boundary }

/-- An instruction takes the pins (R512). -/
def TapInstr.takesPins : TapInstr → Bool
  | .extest => true
  | .clamp => true
  | .highz => true
  | .extestPulse => true
  | .extestTrain => true
  | .idcode => false
  | .samplePreload => false
  | .bypass => false

/-- What the selected data register holds after capture (R511, R512). -/
def State.tapRegister (s : State) : Nat := match s.board.tap with
  | .idcode => 0x11620C6B
  | .bypass => 0
  | .clamp => 0
  | .highz => 0
  | .extest => s.board.boundary.toNat
  | .samplePreload => s.board.boundary.toNat
  | .extestPulse => s.board.boundary.toNat
  | .extestTrain => s.board.boundary.toNat

end Sys2Proof.Machine
end

