-- ==== Sys2Proof/Machine/Cards.lean ====
section
/-!
DEFINITION. The whole command reference (12): which card an opcode and its payload have, and every opcode that is defined.
-/
namespace Sys2Proof.Machine

/-- The query twin of CAL_CONFIG, and those of the system and firmware families (R353). -/
def otherQuery (op : Nat) (b : Bytes) : Option Card :=
  match op with
  | 0x0083 => some { queryCard op b 0 0 (fun s _ => structBytes s.host.ring) with pcieOnly := true, own := true }
  | 0x0881 => some (queryCard op b 0 0 fun s _ => structBytes s.cal.cfg)
  | _ => none

/-- The cards of the system, clock, input and trigger families (R358 to R369). -/
def cardLow (op : Nat) (b : Bytes) : Option Card :=
  match op with
  | 0x0000 => some (cardSysEcho b)
  | 0x0001 => some (cardSysIdentify b)
  | 0x0002 => some (cardSysStatus b)
  | 0x0003 => some (cardCmdRingSetup b)
  | 0x0004 => some (cardTagRetire b)
  | 0x0005 => some (cardSysReset b)
  | 0x0006 => some (cardEventFetch b)
  | 0x0101 => some (cardClockPlan b)
  | 0x0102 => some (cardClockSync b)
  | 0x0103 => some (cardGridTrim b)
  | 0x0201 => some (cardInputConfig b)
  | 0x0202 => some (cardQuadFusion b)
  | 0x0203 => some (cardQuadPower b)
  | 0x0301 => some (cardTuConfig b)
  | 0x0302 => some (cardCmpConfig b)
  | 0x0303 => some (cardCombinerConfig b)
  | 0x0304 => some (cardSwTrigger b)
  | 0x0305 => some (cardTrigoutConfig b)
  | _ => none

/-- The cards of the capture, accumulation, memory, readout and calibration families (R371 to R377). -/
def cardMid (op : Nat) (b : Bytes) : Option Card :=
  match op with
  | 0x0401 => some (cardCaptureConfig b)
  | 0x0402 => some (cardDecimConfig b)
  | 0x0403 => some (if bit (word b 0) 8 then cardGroupArm b else cardGroupStop b)
  | 0x0501 => some (cardAccConfig b)
  | 0x0502 => some (cardAccSnapshot b)
  | 0x0601 => some (cardMemPortConfig b)
  | 0x0602 => some (cardMemConfig b)
  | 0x0603 => some (cardMemClock b)
  | 0x0604 => some (cardBar2Set b)
  | 0x0701 => some (cardReadoutRings b)
  | 0x0801 => some (cardCalConfig b)
  | 0x0802 => some (cardCalRun b)
  | 0x0803 => some (cardCalAbort b)
  | 0x0804 => some (cardCalSetUpload b)
  | 0x0805 => some (cardCalSetCommit b)
  | 0x0806 => some (cardCalSetDownload b)
  | 0x0807 => some (cardCalSliceQuery b)
  | _ => none

/-- The cards of the stimulus, monitor, grove and firmware families (R378 to R384). -/
def cardHigh (op : Nat) (b : Bytes) : Option Card :=
  match op with
  | 0x0901 => some (cardSeqConfig b)
  | 0x0902 => some (cardSegmentDefine b)
  | 0x0903 => some (cardListWrite b)
  | 0x0983 => some (cardListRead b)
  | 0x0904 => some (cardSegmentReady b)
  | 0x0905 => some (cardStepWrite b)
  | 0x0906 => some (if bit (word b 0) 0 then cardSeqEnable b else cardSeqDisable b)
  | 0x0907 => some (cardSeqStart b)
  | 0x0908 => some (if bit (word b 0) 8 then cardSeqStopBoundary b else cardSeqStopNow b)
  | 0x0909 => some (cardSeqJump b)
  | 0x0A01 => some (cardMonConfig b)
  | 0x0A02 => some (cardMonWindowSet b)
  | 0x0B01 => some (cardEnumProbe b)
  | 0x0B02 => some (cardGroveConfig b)
  | 0x0B03 => some (cardGroveRange b)
  | 0x0B04 => some (cardGroveAlign b)
  | 0x0B05 => some (cardPromote b)
  | 0x0B06 => some (cardDemote b)
  | 0x0B07 => some (cardGroveStatus b)
  | 0x0C01 => some (cardKeyInstall b)
  | 0x0C02 => some (cardImageLoad b)
  | 0x0C03 => some (cardImageStart b)
  | _ => none

/-- The card of an opcode with its payload; none where the opcode is not defined (R335 step 9). -/
def cardOf (op : Nat) (b : Bytes) : Option Card :=
  (cardLow op b) <|> (cardMid op b) <|> (cardHigh op b) <|> (otherQuery op b) <|> (configQuery op b) <|> (stimQuery op b) <|> (monQuery op b) <|> (groveQuery op b)

end Sys2Proof.Machine
end

