-- ==== Sys2Proof/Machine/Command.lean ====
section
/-!
DEFINITION. The examination of commands in steps 8 to 15 of R335, the order of execution (R340), intake of packets, and interim notices (R343).
-/
namespace Sys2Proof.Machine

/-- Reserved bits of the header are zero (R325, R335 step 8). -/
def headerOk (h : Hdr) : Bool := fld h.flags 5 3 == 0 && h.reserved == 0

/-- The card admits the command on its path and to its DEST (R355). -/
def Card.admits (c : Card) (h : Hdr) : Bool :=
  (!c.pcieOnly || h.path = .pcie) && (!c.boughOnly || h.path = .bough) && (!c.own || !h.group)

/-- A probe from the host whose DEPTH the manager cannot route is examined by the manager itself (R355, R440). -/
def State.hostProbe (s : State) (h : Hdr) (c : Card) (payload : Bytes) : Bool :=
  c.boughOnly && h.path = .pcie && s.grove.role = .manager && !probeDepthOk payload

/-- Steps 8 to 14 of R335 on a command with a card: the first check that applies gives the reply. -/
def Card.judge (c : Card) (h : Hdr) (payload : Bytes) (s : State) : Option Reply :=
  if !headerOk h || !c.reservedOk then some (Reply.bad 0x0004)
  else if !c.admits h && !s.hostProbe h c payload then some (Reply.bad 0x0005)
  else if !c.sizeOk then some (Reply.bad 0x0006)
  else match c.busy s with
    | some r => some r
    | none => if !c.states.contains s.engineState then some (Reply.state 0x0010 0) else c.checks s

/-- The first queued entry of a path changes. -/
def PathState.onFirst (p : PathState) (f : Entry → Entry) : PathState :=
  { p with queue := modFirst (fun (x : Entry) => x.phase = .queued) f p.queue }

/-- The entry of a path now examined is answered, and answered commands leave in order. -/
def State.answerFirst (s : State) (path : Path) (e : Entry) (eng : Nat) (r : Reply) : State :=
  let pkt := s.replyPacket e.hdr e.opcode eng r
  State.flush 800 path (s.onPath path fun p => p.onFirst fun x => x.answer pkt (r.status = 0))

/-- The entry of a path now examined waits for the end of an operation (R387). -/
def State.holdFirst (s : State) (path : Path) (eng : Nat) (k : HeldKind) : State :=
  s.onPath path fun p => p.onFirst fun x => { x with phase := .held k eng }

/-- A reply that turns a command away is counted (R350) and sent. -/
def State.turnAway (s : State) (path : Path) (e : Entry) (r : Reply) : State :=
  let s1 := s.countPath path fun c => { c with
    badPackets := c.badPackets + (if r.status = 4 then 1 else 0), stateReplies := c.stateReplies + (if r.status = 2 then 1 else 0) }
  s1.answerFirst path e s.engineState r

/-- Step 15: a command takes effect (R335, R336), and is answered or waits. -/
def State.runCard (s : State) (path : Path) (e : Entry) (c : Card) : State :=
  let out := c.run e.hdr s
  let s1 := out.1.countPath path fun k => { k with executed := k.executed + 1 }
  c.after (match out.2 with
    | .done r => s1.answerFirst path e s.engineState r
    | .held k => s1.holdFirst path s.engineState k)

/-- Steps 8 to 15 of R335 for an entry with the card of its opcode, or none. -/
def State.judgeEntry (s : State) (path : Path) (e : Entry) : State :=
  match cardOf e.opcode e.payload with
  | none => s.turnAway path e (Reply.bad (if headerOk e.hdr then 0x0005 else 0x0004))
  | some c => match c.judge e.hdr e.payload s with
    | some r => (c.onRefused r s).turnAway path e r
    | none => s.runCard path e c

/-- A queued command that has become outdated is discarded at its examination (R342). -/
def State.discardFirst (s : State) (path : Path) : State :=
  let s1 := s.countPath path fun c => { c with staleTickets := c.staleTickets + 1 }
  let s2 := s1.onPath path fun p => { p with queue := p.queue.drop 1 }
  State.flush 800 path (if path = .pcie ∧ ¬ s.ringOn then s2.onHost fun h => { h with bootBusy := false } else s2)

/-- Commands of an entry's kind are examined now (R348, R407, R416): by Heartwood in AWAIT_IMAGE and FAULT; from INIT on by Sapwood, those that came as packets with a TAKE. -/
def State.examines (s : State) (e : Entry) : Bool := match s.board.boot with
  | .awaitImage => true
  | .fault => true
  | .init => s.fw.restart.isNone && !e.byPort
  | .run => s.fw.restart.isNone && !e.byPort
  | .reset => false
  | .heartwood => false

/-- The oldest command of a path is to be examined (R340): every earlier one has been answered. -/
def State.headReady (s : State) (p : Path) : Option Entry :=
  match (s.path p).queue with
  | [] => none
  | e :: _ => if e.phase = .queued && s.examines e then some e else none

/-- The path of an index. -/
def pathAt (n : Nat) : Path := match n % 3 with
  | 0 => .pcie
  | 1 => .bough
  | _ => .mailbox

/-- The next command to be examined, in round-robin among the paths (R340). -/
def State.nextHead (s : State) : Option (Path × Entry) :=
  ([1, 2, 3] : List Nat).findSome? fun k => (s.headReady (pathAt (s.fw.turn + k))).map fun e => (pathAt (s.fw.turn + k), e)

/-- One command is examined (R335 steps 7 to 15). -/
def State.examine (s : State) (path : Path) (e : Entry) : State :=
  let s1 := s.onFw fun w => { w with turn := path.idx.val }
  if (s1.path path).outdated e then s1.discardFirst path else s1.judgeEntry path e

/-- Commands are examined for as long as one can be (R340): at most as many as the queues can hold. -/
def State.drain : Nat → State → State
  | 0, s => s
  | fuel + 1, s => match s.nextHead with
    | none => s
    | some (p, e) => State.drain fuel (s.examine p e)

/-- Every command that can be examined now is. -/
def State.drainAll (s : State) : State := State.drain 800 s

/-- The packet of a command row reaches its path (R334, R335 steps 1 to 7). A sapling discards what is no probe (R329, R442). In RESET and HEARTWOOD no command is taken (R348). -/
def State.arrive (s : State) (h : Hdr) (opcode : Nat) (payload : Bytes) : State :=
  let s1 := s.advance h.tick
  let e := newEntry h opcode payload s1.now false 0 0
  if s1.board.boot = .reset ∨ s1.board.boot = .heartwood then s1
  else if 256 ≤ (s1.path h.path).queue.length then s1.countPath h.path fun c => { c with intakeFull := c.intakeFull + 1 }
  else if payload.length % 4 ≠ 0 ∨ 4096 < payload.length then s1.intakeBad e h.source.toNat 0x0001
  else if h.path = .bough ∧ s1.grove.role = .sapling ∧ opcode ≠ 0x0B01 then s1.saplingDrop
  else s1.receive e

/-- A command descriptor breaks the limits of R330. -/
def descriptorBad (d : Bytes) : Bool :=
  let addr := leAt d 0 8
  let reply := leAt d 16 4
  let bytes := leAt d 20 2
  addr % 4 ≠ 0 || (reply ≠ 0 && leAt d 8 8 % 4 ≠ 0) || 4116 < reply || reply % 4 ≠ 0 || bytes < 20 || 4116 < bytes || bytes % 4 ≠ 0

/-- The engine takes the next descriptor of the command ring (R330, R334): its packet has arrived by DMA. An unexecutable one draws a DESC_ERROR in the place of its reply. -/
def State.takeCommand (s : State) (desc packet : Bytes) : State :=
  if ¬ s.ringOn ∨ s.host.cmdHead = s.host.cmdTail then s
  else if 256 ≤ (s.path .pcie).queue.length then s.countPath .pcie fun c => { c with intakeFull := c.intakeFull + 1 }
  else
    let s1 := s.onHost fun h => { h with cmdHead := (h.cmdHead + 1) % 2 ^ 32 }
    if descriptorBad desc then
      let e := newEntry (headerOf s.now .pcie []) 0x10000 [] s.now true 0 0
      State.flush 800 .pcie (s1.onPath .pcie fun p => { p with queue := p.queue ++ [{ e with phase := .answered }] })
    else s1.receiveBytes .pcie (packet.take (leAt desc 20 2)) (leAt desc 8 8) (leAt desc 16 4)

/-- A packet reaches the intake of a path (R334). -/
def State.intake (s : State) (path : Path) (desc packet : Bytes) : State :=
  match path with
  | .pcie => s.takeCommand desc packet
  | .bough => if 256 ≤ (s.path .bough).queue.length then s.countPath .bough fun c => { c with intakeFull := c.intakeFull + 1 }
      else s.receiveBytes .bough packet 0 0
  | .mailbox => if 256 ≤ (s.path .mailbox).queue.length then s.countPath .mailbox fun c => { c with intakeFull := c.intakeFull + 1 }
      else s.receiveBytes .mailbox packet 0 0

/-- A command of a path awaits its reply and is not outdated (R342, R343); the place of a descriptor that could not be executed is no command. -/
def PathState.awaits (p : PathState) (e : Entry) : Bool := e.opcode ≠ 0x10000 && !(e.phase = .queued && p.outdated e)

/-- The interim notice of the entry at an index (R343). -/
def State.notice (s : State) (path : Path) (index : Nat) (e : Entry) : Bytes :=
  let p := s.path path
  let ahead := ((p.queue.take index).filter p.awaits).length
  let waited := min 65535 ((s.now - e.received) / ms)
  packet 3 e.opcode e.hdr.ticket.toNat e.hdr.source.toNat s.grove.devaddr
    (({ status := 0, reason := 0x0022, detail := ahead % 65536 + at' waited 16 } : Reply).payload s.engineState)

/-- A notice falls due for the entry at an index (R343): 1 ms after receipt, and every 4 ms after that; none for the bootstrap mailbox (R331). -/
def State.noticeDue (s : State) (path : Path) (e : Entry) : Bool :=
  (s.path path).awaits e && e.received + ms + 4 * ms * e.notices ≤ s.now && (path ≠ .pcie || s.ringOn) && s.board.boot ≠ .reset

/-- Room for a notice on a path: on PCIe a place in ring 4 beyond the completions that wait for one (R343). -/
def State.noticeRoom (s : State) (path : Path) : Bool :=
  path ≠ .pcie || !s.ring4.full s.host.ring

/-- The interim notice of the entry at an index of a path's queue is sent, or skipped (R343). -/
def State.sendNotice (s : State) (path : Path) (index : Nat) : State :=
  match (s.path path).queue[index]? with
  | none => s
  | some e =>
    if !s.noticeDue path e then s
    else
      let s1 := s.onPath path fun p => { p with queue := modAt p.queue index fun x => { x with notices := x.notices + 1 } }
      if !s.noticeRoom path then s1.countPath path fun c => { c with noticeSkips := c.noticeSkips + 1 }
      else
        let s2 := s1.countPath path fun c => { c with noticesSent := c.noticesSent + 1 }
        let n := s.notice path index e
        match path with
        | .pcie => (s2.onPath .pcie fun p => { p with lastReply := n }).toRing4 (replyCompletion n false 0)
        | .bough => (s2.onPath .bough fun p => { p with lastReply := n }).sendUp n
        | .mailbox => s2.onPath .mailbox fun p => { p with lastReply := n }

end Sys2Proof.Machine
end

