-- ==== Sys2Proof/Machine/FwOps.lean ====
section
/-!
DEFINITION. The firmware's side (14): the intake registers, the configuration aperture, service calls, and the restart of Sapwood.
-/
namespace Sys2Proof.Machine

/-- Sapwood runs: from INIT on, not while halted (R401, R416). -/
def State.sapwood (s : State) : Bool := s.fw.running && (s.board.boot = .init || s.board.boot = .run)

/-- n bytes at an address lie in Sapwood SRAM (R403, R410). -/
def inSram (a n : Nat) : Bool := 0x10000000 ≤ a && a + n ≤ 0x10800000

/-- Bytes of Sapwood SRAM. -/
def State.sramAt (s : State) (a n : Nat) : Bytes := getSparseN s.fw.sram a n

/-- Outdated commands at the front of those not yet taken are dropped (R335 step 7, R342): what is left, and how many went. -/
def dropStale (old : Entry → Bool) : List Entry → List Entry × Nat
  | [] => ([], 0)
  | e :: es =>
    if e.phase ≠ .queued then let r := dropStale old es; (e :: r.1, r.2)
    else if old e then let r := dropStale old es; (r.1, r.2 + 1)
    else (e :: es, 0)

/-- The outdated commands at a path's turn are discarded and counted. -/
def State.discardStale (s : State) (path : Path) : State :=
  let r := dropStale (s.path path).outdated (s.path path).queue
  (s.onPath path fun p => { p with queue := r.1 }).countPath path fun c => { c with staleTickets := c.staleTickets + r.2 }

/-- The command of a path that TAKE would return (R408). -/
def State.takeable (s : State) (path : Path) : Option Entry :=
  ((s.path path).queue.find? fun e => e.phase = .queued).bind fun e => if e.byPort then some e else none

/-- The entries of all paths. -/
def State.entries (s : State) : List Entry := (s.path .pcie).queue ++ (s.path .bough).queue ++ (s.path .mailbox).queue

/-- The lowest free intake slot of 768 (R403). -/
def State.freeSlot (s : State) : Nat := (lowest 768 fun n => s.entries.all fun e => e.slot ≠ some n).getD 0

/-- The value of TAKE for a command (R408). -/
def takeValue (path : Path) (slot : Nat) (e : Entry) : Nat := bAt true 63 + at' path.idx.val 48 + at' slot 32 + (20 + e.payload.length)

/-- The core's last TAKE (R413). -/
def Firmware.took (w : Firmware) (core slot : Nat) : Firmware :=
  { w with lastTake := (w.lastTake.filter fun (c, _) => c ≠ core) ++ [(core, slot)] }

/-- A read of TAKE (R340, R408, R416): the oldest queued command, round-robin among the paths; nothing while Sapwood restarts. -/
def State.takeRead (s : State) (core : Fin 4) : State :=
  if !s.sapwood then s
  else if s.fw.restart.isSome then s.returns .sapwood 0
  else
    let s0 := ((s.discardStale .pcie).discardStale .bough).discardStale .mailbox
    match ([1, 2, 3] : List Nat).findSome? fun k => (s0.takeable (pathAt (s.fw.turn + k))).map fun e => (pathAt (s.fw.turn + k), e) with
    | none => s0.returns .sapwood 0
    | some (path, e) =>
      let n := s0.freeSlot
      let s1 := s0.onPath path fun p => p.onFirst fun x => { x with phase := .taken, slot := some n }
      (s1.onFw fun w => { w with turn := path.idx.val }.took core.val n).returns .sapwood (takeValue path n e)

/-- The reply staged in a slot (R403, R408): as many bytes as LENGTH says, with the CRC the hardware appends. -/
def Entry.staged (e : Entry) (length : Nat) : Bytes := withCrc (getSparseN e.staging 0x1400 (min length 4112))

/-- The path and entry that occupy a slot, unless its reply was posted. -/
def State.slotEntry (s : State) (n : Nat) : Option (Path × Entry) :=
  ([Path.pcie, .bough, .mailbox]).findSome? fun p =>
    ((s.path p).queue.find? fun e => e.slot = some n && e.phase ≠ .answered).map fun e => (p, e)

/-- The entry of a slot changes. -/
def State.onSlot (s : State) (n : Nat) (f : Entry → Entry) : State := match s.slotEntry n with
  | none => s
  | some (path, _) => s.onPath path fun p => { p with queue := modFirst (fun (e : Entry) => e.slot = some n && e.phase ≠ .answered) f p.queue }

/-- A write of POST (R408): the staged reply is final and leaves in order per source; one that names a free slot is ignored and counted. -/
def State.postReply (s : State) (slot length : Nat) : State :=
  if !s.sapwood then s
  else match s.slotEntry slot with
    | none => s.onFw fun w => { w with scErrors := w.scErrors + 1 }
    | some (path, e) =>
      let pkt := e.staged length
      State.flush 800 path (s.onSlot slot fun e => { e.answer pkt (leAt pkt 16 1 = 0) with slot := none })

/-- The event that a 96-byte body spells (R408, R486), with the next EVT_SEQ of the device. -/
def State.postedEvent (s : State) (b : Bytes) : Event := { eventOf b with remote := false, seq := s.events.seq + 1 }

/-- A write of EVENT_POST (R408): the event in Sapwood SRAM goes to ring 4. -/
def State.eventPost (s : State) (addr : Nat) : State :=
  if !s.sapwood || !inSram addr 96 then s
  else
    let e := s.postedEvent (s.sramAt addr 96)
    (s.onEvents fun ev => { ev.enter e with seq := ev.seq + 1 }).eventUp e

/-- The action and configuration commands that have a slot in the aperture (R404), with how many objects they select among (0 for none) and their bytes after SELECT. Those that a service call guards have none (R406), nor have queries and the commands of Heartwood. -/
def apertureSlots : List (Nat × Nat × Nat) := [
  (0x0003, 0, 32), (0x0004, 0, 4), (0x0005, 0, 4), (0x0006, 0, 4),
  (0x0201, 16, 4), (0x0202, 4, 4),
  (0x0301, 8, 32), (0x0302, 16, 4), (0x0303, 4, 16), (0x0304, 8, 12), (0x0305, 4, 8),
  (0x0401, 4, 48), (0x0402, 4, 16), (0x0403, 0, 4), (0x0501, 4, 32), (0x0502, 4, 0),
  (0x0601, 23, 8), (0x0602, 0, 4), (0x0604, 0, 8), (0x0701, 4, 32),
  (0x0801, 0, 8), (0x0803, 0, 0), (0x0804, 0, 0), (0x0805, 0, 0), (0x0806, 0, 12), (0x0807, 16, 0),
  (0x0901, 0, 16), (0x0902, 4096, 16), (0x0903, 4096, 0), (0x0904, 4096, 4), (0x0905, 1024, 16), (0x0906, 0, 4), (0x0907, 0, 16),
  (0x0908, 0, 4), (0x0909, 0, 4), (0x0983, 4096, 8),
  (0x0A01, 0, 4), (0x0A02, 8, 8), (0x0B02, 0, 32), (0x0B03, 0, 4)]

/-- The opcode, SELECT index and payload that a SLOT_OFFSET commits (R404, R405): the length is the card's, or that of the named command where the card permits several. -/
def State.committed (s : State) (offset : Nat) (named : Option Entry) : Option (Nat × Bytes) :=
  let op := 0x100 * (offset / 0x400000) + offset % 0x400000 / 0x40000
  let i := offset % 0x40000 / 0x40
  match apertureSlots.find? fun (o, _, _) => o = op with
  | none => none
  | some (_, n, len) =>
    let own := (named.map fun e => e.payload.length).getD 0
    let bytes := if op = 0x0804 then own else if op = 0x0903 then own - 4 else len
    if i < max 1 n then some (op, (if n = 0 then [] else leBytes 4 i) ++ getSparseN s.fw.aperture (offset / 0x40 * 0x40) bytes) else none

/-- A COMMIT value is one the hardware carries out (R405, R406): a slot of the aperture, and a length the card takes. -/
def State.commitOf (s : State) (v : Nat) : Option (Nat × Bytes × Card) :=
  let named := if bit v 53 then (s.slotEntry (bits v 54 10)).map Prod.snd else none
  (s.committed (bits v 0 26) named).bind fun (op, b) => (cardOf op b).bind fun c => if c.sizeOk then some (op, b, c) else none

/-- A write of COMMIT (R405, R406): the structure takes effect, or the action is taken, without the checks of R335; the outcome goes to FILL_OFFSET of the named command's staging, and that command is committed. -/
def State.commitWrite (s : State) (v : Nat) : State :=
  if !s.sapwood || s.fw.restart.isSome then s
  else match s.commitOf v with
    | none => s
    | some (_, _, c) =>
      let slot := bits v 54 10
      let named := if bit v 53 then s.slotEntry slot else none
      let fill := if bits v 40 13 = 0x1FFF then none else some (bits v 40 13)
      let h := (named.map fun (_, e) => e.hdr).getD { tick := s.now, path := .pcie, flags := 0, ticket := 0, dest := 0, source := 0, reserved := 0 }
      let out := c.run h s
      match named with
      | none => c.after out.1
      | some (path, _) =>
        let s1 := out.1.countPath path fun k => { k with executed := k.executed + 1 }
        c.after (s1.onSlot slot fun e => match out.2 with
          | .done r => { e with fill := fill }.filled r.result
          | .held k => { e with fill := fill, phase := .held k s.engineState })

/-- How a service call ends (R410): it returns, it waits for its action, it waits for its reply, or it does not return. -/
inductive Served where
  | returns (status : ScStatus) (reason : Nat) (results : List Nat)
  | waits (k : HeldKind)
  | submits
  | gone
deriving DecidableEq, Repr

/-- OK with results. -/
def Served.ok (results : List Nat := []) : Served := .returns .ok 0 results
/-- LIMIT with SERVICE_LIMIT (R410). -/
def Served.limit : Served := .returns .limit 0x0C08 []
/-- STATE with a reason of R337. -/
def Served.state (reason : Nat) : Served := .returns .state reason []
/-- BUSY with the function's reason. -/
def Served.busy (reason : Nat) : Served := .returns .busy reason []

/-- A check of a command that a service call makes as well (R411): its reply as the call's answer. -/
def Served.ofReply (r : Reply) : Served :=
  if r.status = 2 then .state r.reason else if r.status = 5 then .busy r.reason else .limit

/-- How an executed command's end shows in the call that made it. -/
def Served.ofRan (results : List Nat) : Ran → Served
  | .done _ => .ok results
  | .held k => .waits k

/-- The command that a core's last TAKE returned and that is not yet answered (R413). -/
def State.serving (s : State) (core : Fin 4) : Option Entry :=
  ((s.fw.lastTake.find? fun (c, _) => c = core.val).bind fun (_, n) => s.slotEntry n).map Prod.snd

/-- The ticket of the command a call serves, or 0. -/
def State.servingTicket (s : State) (core : Fin 4) : Nat := ((s.serving core).map fun e => e.hdr.ticket.toNat).getD 0

/-- CLOCK_PLAN (R261, R411). -/
def scClockPlan (s : State) (addr : Nat) : State × Served :=
  if !inSram addr 16 then (s, .returns .badAddress 0 [])
  else
    let p := structAt 128 (s.sramAt addr 16) 0
    if s.engineState ≠ 4 then (s, .state 0x0010)
    else match s.planConflict with
      | some r => (s, .ofReply r)
      | none =>
        if planKey p ≠ planKey s.clock.plan && s.clock.drive = .fallback then (s, .state 0x0015)
        else if !planValid p then (s, .limit)
        else let r := s.takePlan p; (r.1, .ofRan [] r.2)

/-- CLOCK_SYNC (R266, R411). -/
def scClockSync (s : State) (core : Fin 4) (tick timeout : Nat) : State × Served :=
  if s.clock.sync.isSome || s.clock.slew.isSome then (s, .busy 0x0104)
  else if s.engineState ≠ 4 then (s, .state 0x0010)
  else match s.planConflict with
    | some r => (s, .ofReply r)
    | none => match syncRefusal s tick timeout with
      | some _ => (s, .limit)
      | none => if 65535 < timeout then (s, .limit) else (s.armSync tick timeout (s.servingTicket core), .ok)

/-- SLEW (R280, R281, R411): serving a GROVE_ALIGN it makes the device aligned (R446). -/
def scSlew (s : State) (core : Fin 4) (ticks fs : Nat) : State × Served :=
  let amount := signed 64 fs
  let load := signed 64 ticks
  let align : Bool := ((s.serving core).map Entry.opcode) = some 0x0B04
  let live := s.groups.any Group.live
  if s.clock.slew.isSome then (s, .busy 0x0104)
  else if load ≠ 0 && live then (s, .state 0x0011)
  else if load ≠ 0 && s.stim.enabled then (s, .state 0x0016)
  else if 50000 < amount.natAbs then (s, .limit)
  else
    let s1 := s.load load
    let s2 := if align then s1.onGrove fun g => { g with aligned := true } else s1
    (if amount = 0 then s2 else s2.startSlew (if align then .align else .trim) amount (s.servingTicket core) 0, .ok)

/-- MEM_CLOCK (R190, R411): RESULT0 tells done from queued. -/
def scMemClock (s : State) (rate : Nat) : State × Served :=
  if s.mem.clock.queued.isSome then (s, .busy 0x0605)
  else if s.engineState ≠ 3 && s.engineState ≠ 4 then (s, .state 0x0010)
  else if s.stim.enabled then (s, .state 0x0016)
  else if 3 < rate then (s, .limit)
  else
    let r := s.memClock rate 0
    match r.2 with
    | .done x => (r.1, .ok [if x.status = 1 then 1 else 0])
    | .held k => (r.1, .waits k)

/-- QUAD_POWER (R35, R366, R411). -/
def scQuadPower (s : State) (core : Fin 4) (quad on : Nat) : State × Served :=
  if 3 < quad || 1 < on then (s, .limit)
  else
    let c := cardQuadPower (leBytes 4 quad ++ leBytes 4 on)
    match orElse' (c.busy s) (c.checks s) with
    | some r => (s, .ofReply r)
    | none =>
      let h : Hdr := { tick := s.now, path := .pcie, flags := 0, ticket := BitVec.ofNat 16 (s.servingTicket core), dest := 0, source := 0, reserved := 0 }
      ((c.run h s).1, .ok)

/-- CAL_OPEN (R411, R412). -/
def scCalOpen (s : State) (mask : Nat) : State × Served :=
  if s.cal.run.isSome || s.cal.svc.isSome then (s, .state 0x0014)
  else if !s.refinLocked then (s, .state 0x0015)
  else if mask = 0 || 15 < mask then (s, .limit)
  else ((s.onCal fun c => { c with svc := some mask }).each four fun s q => s.onQuad q fun k => { k with outTicks := 0 }, .ok)

/-- Ticks a quad has been out of CONNECT in the open run (R412). -/
def State.outFor (s : State) (q : Fin 4) : Nat :=
  let k := s.quads.get q
  k.outTicks + (if k.switch = .connect then 0 else s.now - k.outSince)

/-- CAL_SWITCH (R412): within the open run and its 120 ms. -/
def scCalSwitch (s : State) (quad position : Nat) : State × Served :=
  match s.cal.svc with
  | none => (s, .state 0x0010)
  | some mask =>
    let q : Fin 4 := Fin.ofNat 4 quad
    if 3 < quad || 2 < position || !bit mask quad || (position ≠ 0 && 120 * ms ≤ s.outFor q) then (s, .limit)
    else
      let dest : Switch3 := if position = 1 then .isolate else .source
      (if position = 0 then s.returnSwitch q (2 * ms)
       else if (s.quads.get q).switch = .connect then s.leaveConnect q dest
       else s.onQuad q fun k => { k with switch := dest }, .ok)

/-- CAL_CLOSE (R411, R412). -/
def scCalClose (s : State) : State × Served :=
  if s.cal.svc.isNone then (s, .state 0x0010) else ((s.onCal fun c => { c with svc := none }).returnAll, .ok)

/-- GROVE_IDENTITY (R413): as PROMOTE, as DEMOTE, or for the ENUM_PROBE with ASSIGN of the core's last TAKE. -/
def scGroveIdentity (s : State) (core : Fin 4) (devaddr role epoch bound : Nat) : State × Served :=
  let mine := s.grove.role
  if role = 0 && mine = .orphanRoot && epoch = (s.grove.epoch + 1) % 2 ^ 32 then (s.promote, .ok)
  else if role = 3 && epoch = 0 && (mine = .manager || mine.orphan) then (s.demote, .ok)
  else match s.serving core with
    | none => (s, .limit)
    | some e =>
      if role = 1 && devaddr ≠ 0 && devaddr < 2 ^ 16 && epoch < 2 ^ 32 && bound < 2 ^ 32 && e.opcode = 0x0B01 && probeAssign e.payload then
        (s.assign (leBytes 4 (probePath e.payload) ++ leBytes 2 devaddr ++ [1, 0] ++ leBytes 4 epoch ++ leBytes 4 bound) e.hdr.source.toNat, .ok)
      else (s, .limit)

/-- WDT_CONFIG (R411, R414): a core that is unparked is watched from now. -/
def scWdtConfig (s : State) (period park : Nat) : State × Served :=
  if period < 10 || 1000 < period || 15 ≤ park then (s, .limit)
  else (s.onFw fun w => { w with
    wdtPeriod := period
    cores := Vector.ofFn fun i : Fin 4 =>
      let k := w.cores.get i
      { k with parked := bit park i.val, kicked := if k.parked && !bit park i.val then s.now else k.kicked } }, .ok)

/-- The conditions of READY in INIT (R473). -/
def State.readyOk (s : State) : Bool :=
  bits s.board.bootStatus.toNat 25 5 = 31 && s.banks.all Bank.converged && s.cal.run.isNone && s.cal.svc.isNone

/-- INIT ends (R474, R475): READY rises and INIT_DONE is posted. -/
def State.becomeReady (s : State) : State :=
  let r := s.cal.selfResult
  let init := (s.now - s.board.initAt) / ms
  let s1 := (s.onBoard fun b => { b with boot := .run, ready := true }).bootBit 30
  s1.raise {
    code := 0x0081, ticket := s.board.initTicket
    vals := [s.grove64, unsigned 64 (s.clock.t0.getD 0),
      s.mem.clock.rate + at' ((r.map SelfCalResult.kind).getD 2) 8 + at' ((r.map SelfCalResult.windows).getD 0) 16 + at' (init % 2 ^ 32) 32,
      (((r.map SelfCalResult.outcomes).getD []).zipIdx.map fun (o, i) => o <<< (16 * i)).foldl (· + ·) 0,
      (s.quads.get 0).setId] }

/-- READY (R411, R416, R473). -/
def scReady (s : State) : State × Served :=
  if s.board.boot = .init then (if s.readyOk then (s.becomeReady, .ok) else (s, .state 0x0010))
  else if s.fw.restart.any Restart.started then (s.onFw fun w => { w with restart := none }, .ok)
  else (s, .state 0x0010)

/-- SUBMIT (R334, R411): the packet enters the MAILBOX path. -/
def scSubmit (s : State) (core : Fin 4) (packet length buffer size : Nat) : State × Served :=
  if !inSram packet length || !inSram buffer size then (s, .returns .badAddress 0 [])
  else if 256 ≤ (s.path .mailbox).queue.length then (s.countPath .mailbox fun c => { c with intakeFull := c.intakeFull + 1 }, .busy 0)
  else
    let b := s.sramAt packet length
    ((s.onCore core fun k => { k with submit := some (buffer, size, leAt b 4 2) }).receiveBytes .mailbox b 0 0, .submits)

/-- Sapwood is halted and restarts (R415, R416), or fails boot before the first READY (R417). -/
def State.restart (s : State) (cause : Nat) (core : Fin 4) (pc addr : Nat) : State :=
  if s.board.boot = .init then (if cause = 0 then s.bootFail 0x0C09 core.val else s.bootFail 0x0C07 0xF)
  else if s.board.boot ≠ .run || s.fw.restart.any (fun r => !r.started) then s
  else
    let times := s.now :: s.fw.restartTicks
    let s1 := s.onFw fun w => { w with
      running := false, restarts := w.restarts + 1, restartTicks := times.take 3, restartsBy := w.restartsBy.modify cause (· + 1), callQueue := []
      cores := w.cores.map fun (k : Core) => { k with submit := none, waits := none, pending := false }
      restart := some { cause := cause, started := false, since := s.now } }
    let s2 := (((s1.onCal fun c => { c with svc := none }).returnAll).abortRun).raise {
      code := 0x0C80, obj := core.val, reason := if cause = 0 then 0x0C09 else 0, vals := [cause, pc, if cause = 1 then addr else 0, s.fw.restarts + 1] }
    let cut (path : Path) (e : Entry) : Entry :=
      let fault := { e.answer (s2.replyPacket { e.hdr with path := path } e.opcode s2.engineState (Reply.fault 0x0C03 0)) false with after := s2.events.seq, slot := none }
      let staged := { e.answer (e.staged (16 + 4 * ofLe (getSparseN e.staging (0x1400 + 10) 2))) false with after := s2.events.seq, slot := none }
      let ok := { e.answer (s2.replyPacket { e.hdr with path := path } e.opcode e.engState (Reply.ok)) true with after := s2.events.seq }
      match e.phase with
      | .queued => e
      | .answered => e
      | .taken => fault
      | .committed => staged
      | .held k _ =>
        if e.slot.isSome then staged
        else match k with
          | .input _ => ok
          | .fusion _ => ok
          | .planHop => ok
          | .memClock => ok
          | .arm _ => fault
          | .readback _ => fault
          | .seqEnable => ok
          | .imageAuth => e
    let undo (s : State) (e : Entry) : State := match e.phase, e.slot with
      | .held (.arm g) _, none => (s.onGroup (Fin.ofNat 4 g) fun x => { x with armWait := none }).onAcc (Fin.ofNat 4 g) fun a => a.release
      | .held (.readback seg) _, none => s.onStim fun q => { q with readback := q.readback.filter fun (i, _) => i ≠ seg }
      | _, _ => s
    let s3 := s2.each s2.entries undo
    let s4 := ([Path.pcie, .bough, .mailbox].foldl (fun (s : State) p => s.onPath p fun x => { x with queue := x.queue.map (cut p) }) s3).flushAll
    if (times.take 3).length = 3 && s.now - (times.getD 2 0) < second then s4.fatal 0x0C09 core.val else s4

/-- The reason codes of R396 that the FAULT call may give: every code of the table. -/
def reasonCodes : List (Nat × Nat) := [
  (0x0001, 0x0009), (0x0010, 0x0017), (0x0020, 0x0026), (0x0101, 0x0107), (0x0201, 0x0206), (0x0301, 0x030B), (0x0401, 0x040C), (0x0501, 0x050A),
  (0x0601, 0x0607), (0x0701, 0x0701), (0x0801, 0x080C), (0x0901, 0x090B), (0x0A01, 0x0A01), (0x0B01, 0x0B05), (0x0C01, 0x0C09)]

/-- FAULT (R411, R483). -/
def scFault (s : State) (reason : Nat) : State × Served :=
  if reasonCodes.any fun (a, b) => a ≤ reason && reason ≤ b then (s.fatal reason 0xF (call := true), .gone) else (s, .limit)

/-- KEYS (R359, R411). -/
def scKeys (s : State) : State × Served := (s, .ok [bAt s.fw.ownerKey.isSome 0 + bAt s.fw.ownerImage 1])

/-- The function of a service call is carried out with the core's arguments (R411). -/
def State.serveFunc (s : State) (core : Fin 4) (func : Nat) : State × Served :=
  let a (i : Nat) : Nat := ((s.fw.cores.get core).args.getD i 0)
  match func with
  | 0x01 => scClockPlan s (a 0)
  | 0x02 => scClockSync s core (a 0) (a 1)
  | 0x03 => scSlew s core (a 0) (a 1)
  | 0x04 => scMemClock s (a 0)
  | 0x05 => scQuadPower s core (a 0) (a 1)
  | 0x06 => scCalOpen s (a 0)
  | 0x07 => scCalSwitch s (a 0) (a 1)
  | 0x08 => scCalClose s
  | 0x09 => scGroveIdentity s core (a 0) (a 1) (a 2) (a 3)
  | 0x0A => scWdtConfig s (a 0) (a 1)
  | 0x0B => scReady s
  | 0x0C => scSubmit s core (a 0) (a 1) (a 2) (a 3)
  | 0x0D => (s.restart 3 core (a 0) 0, .gone)
  | 0x0E => scFault s (a 0)
  | 0x0F => scKeys s
  | _ => (s, .returns .unknown 0 [])

/-- Calls and refusals are counted (R419). -/
def Firmware.count (w : Firmware) (func : Nat) (v : Served) : Firmware :=
  { w with
    calls := w.calls.modify (func - 1) (· + 1)
    refusals := match v with
      | .returns st _ _ => if st = .ok then w.refusals else w.refusals.modify (st.code - 1) (· + 1)
      | .waits _ => w.refusals
      | .submits => w.refusals
      | .gone => w.refusals }

/-- A call is counted, and its core goes on: it returns, or waits for its action or its reply (R410, R419). -/
def State.endCall (s : State) (core : Fin 4) (func : Nat) (v : Served) : State :=
  let s1 := s.onFw fun w => w.count func v
  match v with
  | .returns st reason res => s1.onCore core fun k => k.returns st reason res
  | .waits k => s1.onCore core fun c => { c with waits := some k, results := 0 :: c.results.drop 1 }
  | .submits => s1
  | .gone => s1

/-- One service call is served (R410, R411). -/
def State.serveOne (s : State) (core : Fin 4) : State :=
  let f := (s.fw.cores.get core).func
  let r := s.serveFunc core f
  r.1.endCall core f r.2

/-- A call whose action is not complete holds up the others (R410). -/
def State.callWaits (s : State) : Bool := s.fw.cores.any fun k => k.waits.isSome

/-- Service calls are served one at a time, in order of arrival (R410). -/
def State.serve : Nat → State → State
  | 0, s => s
  | fuel + 1, s =>
    if !s.sapwood || s.callWaits then s
    else match s.fw.callQueue with
      | [] => s
      | c :: rest => State.serve fuel ((s.onFw fun w => { w with callQueue := rest }).serveOne (Fin.ofNat 4 c))

/-- A SUBMIT whose packet was discarded, or answered with no packet, returns with length 0 (R325, R342, R411). -/
def State.settleSubmits (s : State) : State :=
  s.each four fun s c => match (s.fw.cores.get c).submit with
    | none => s
    | some (_, _, t) =>
      if (s.path .mailbox).queue.any fun e => e.hdr.ticket.toNat = t then s else s.onCore c fun k => k.returns .ok 0 [0]

/-- Whatever can go on does: commands are examined, service calls are served. -/
def State.settle (s : State) : State := (((s.drainAll).serve 8).drainAll).settleSubmits

/-- A command row: the packet arrives, and what can be examined is, in order (R340). -/
def State.command (s : State) (h : Hdr) (opcode : Nat) (payload : Bytes) : State := (s.arrive h opcode payload).settle

/-- A core makes a service call (R410): it writes its arguments and FUNC; while one is pending the write is ignored and OVERRUN is set. -/
def State.serviceCall (s : State) (core : Fin 4) (func : Nat) (args : List Nat) : State :=
  if !s.sapwood then s
  else
    let s1 := s.onCore core fun k => { k with args := args ++ k.args.drop args.length }
    if (s.fw.cores.get core).pending then s1.onCore core fun k => { k with overrun := true }
    else (((s1.onCore core fun k => { k with pending := true, func := func }).onFw fun w => { w with callQueue := w.callQueue ++ [core.val] })).settle

/-- SC_STATUS of a core (R410). -/
def Core.scStatus (k : Core) : Nat := bAt k.pending 31 + bAt k.overrun 30 + at' k.status.code 16 + k.reason

/-- A core kicks its watchdog (R414). -/
def State.kick (s : State) (core : Fin 4) : State := if s.sapwood then s.onCore core fun k => { k with kicked := s.now } else s

/-- A core's watchdog has expired (R414). -/
def State.wdtExpired (s : State) (core : Fin 4) : Bool :=
  let k := s.fw.cores.get core
  s.sapwood && !k.parked && k.kicked + s.fw.wdtPeriod * ms ≤ s.now

/-- The verification of image memory at a restart ends (R416, R417). -/
def State.verifyDone (s : State) (ok : Bool) : State :=
  match s.fw.restart with
  | none => s
  | some r =>
    if r.started || s.board.boot ≠ .run then s
    else if ok then
      ((s.restoreSram true).startCores s.fw.restarts (r.cause + 1)).onFw fun w => { w with restart := some { r with started := true, since := s.now } }
    else s.fatal 0x0C01 0xF

/-- No READY call within 1 s of the cores' start (R417). -/
def State.readyLate (s : State) : State :=
  if s.board.boot = .run && s.fw.restart.any (fun r => r.started && r.since + second ≤ s.now) then s.fatal 0x0C07 0xF else s

/-- A write of 8 bytes, or 4, into the window of a core (R403, R410): arguments, FUNC, SC_STATUS and WDT_KICK take it. -/
def State.writeCore (s : State) (c : Fin 4) (off n v : Nat) : State :=
  if off < 0x30 then s.onCore c fun k =>
    let old := (k.args.map (leBytes 8)).flatten
    let new := putBytes old off (leBytes n v)
    { k with args := (List.range 6).map fun i => leAt new (8 * i) 8 }
  else if off = 0x30 then s.serviceCall c (v % 256) []
  else if off = 0x34 then s.onCore c fun k => { k with overrun := k.overrun && !bit v 30 }
  else if off = 0x50 then s.kick c
  else s

/-- A write by a Sapwood core at an address of its map (R403 to R408): n bytes of a value. What lies outside the map, or is read-only, it does not reach. -/
def State.writeSapwood (s : State) (a n v : Nat) : State :=
  if !s.sapwood then s
  else if inSram a n then s.putSram a (leBytes n v)
  else if 0x20000000 ≤ a && a < 0x20004000 then s.writeCore (Fin.ofNat 4 ((a - 0x20000000) / 0x1000)) (a % 0x1000) n v
  else if a = 0x20010008 then s.postReply (bits v 32 10) (bits v 0 13)
  else if a = 0x20010010 then s.eventPost v
  else if 0x21000000 ≤ a && a < 0x21900000 then
    s.onSlot ((a - 0x21000000) / 0x3000) fun e => { e with staging := putSparse e.staging ((a - 0x21000000) % 0x3000) (leBytes n v) }
  else if 0x30000000 ≤ a && a < 0x30010000 then s.writeWindow .sapwood (a - 0x30000000) (n = 8) v
  else if a = 0x43FFF000 then s.commitWrite v
  else if 0x40000000 ≤ a && a < 0x44000000 then s.onFw fun w => { w with aperture := putSparse w.aperture (a - 0x40000000) (leBytes n v) }
  else if 0x10000000000 ≤ a && a < 0x20000000000 then s.fwpWrite (a - 0x10000000000) (leBytes n v)
  else s

end Sys2Proof.Machine
end

