-- ==== Sys2Proof/Machine/AccCommands.lean ====
section
/-!
DEFINITION. The commands of the accumulation family: each row is a packet with its opcode and payload (12).
-/
namespace Sys2Proof.Machine

/-- ACC_CONFIG (R141), opcode 0x0501. -/
def execAccConfig (h : Hdr) (select : BitVec 32) (cfg : BitVec 256) (s : State) : Host.Outcome State Fault Refusal :=
  .next (s.command h 0x0501 (leBytes 4 select.toNat ++ leBytes 32 cfg.toNat))

/-- ACC_CONFIG_QUERY (R353), query twin 0x0581. -/
def execAccConfigQuery (h : Hdr) (select : BitVec 32) (s : State) : Host.Outcome State Fault Refusal :=
  .next (s.command h 0x0581 (leBytes 4 select.toNat))

/-- ACC_SNAPSHOT (R155), opcode 0x0502. -/
def execAccSnapshot (h : Hdr) (select : BitVec 32) (s : State) : Host.Outcome State Fault Refusal :=
  .next (s.command h 0x0502 (leBytes 4 select.toNat))

end Sys2Proof.Machine
end

