-- ==== Sys2Proof/WellFormed.lean ====
section
/-!
DEFINITION. Which rows are well formed: the operands that stand for bytes or measurements on a wire have the number of elements that the wire carries. A row that is not well formed is refused as such and changes nothing.
-/
namespace Sys2Proof

/-- Bytes of one calibration point (R247): 64 bytes and four bank records of 768 bytes. -/
def pointBytes : Nat := 3136

/-- A sample-link slot (R45, R47): 264 bytes on the wire, or the analog input of 128 samples. -/
def LinkData.wf : LinkData → Bool
  | .wire bytes => bytes.length = 264
  | .analog nv _ => nv.length = 128
  | .replay _ => true
  | .absent => true

/-- The end of MEASURE (R470, R471): an outcome and a point for each of the four quads. -/
def SelfPhaseEnd.wf : SelfPhaseEnd → Bool
  | .leakage _ => true
  | .converge => true
  | .measure outcomes points => outcomes.length = 4 && points.length = 4 && points.all fun p => p.length = pointBytes

/-- A memory request (R173): a write carries a 32-byte unit. -/
def MemAccess.wf : MemAccess → Bool
  | .read => true
  | .write data _ => data.length = 32

/-- An access through BAR2 (R167): one byte or more, within the window of 256 MiB. -/
def Bar2Op.wf (offset : Nat) : Bar2Op → Bool
  | .read n => n ≠ 0 && offset + n ≤ 2 ^ 28
  | .write data => data.length ≠ 0 && offset + data.length ≤ 2 ^ 28

/-- The row is well formed. -/
def Instr.wf : Instr → Bool
  | .sysEcho .. => true
  | .sysIdentify .. => true
  | .sysStatus .. => true
  | .cmdRingSetup .. => true
  | .cmdRingSetupQuery .. => true
  | .tagRetire .. => true
  | .sysReset .. => true
  | .eventFetch .. => true
  | .clockPlan .. => true
  | .clockPlanQuery .. => true
  | .clockSync .. => true
  | .gridTrim .. => true
  | .inputConfig .. => true
  | .inputConfigQuery .. => true
  | .quadFusion .. => true
  | .quadFusionQuery .. => true
  | .quadPower .. => true
  | .quadPowerQuery .. => true
  | .tuConfig .. => true
  | .tuConfigQuery .. => true
  | .cmpConfig .. => true
  | .cmpConfigQuery .. => true
  | .combinerConfig .. => true
  | .combinerConfigQuery .. => true
  | .swTrigger .. => true
  | .trigoutConfig .. => true
  | .trigoutConfigQuery .. => true
  | .captureConfig .. => true
  | .captureConfigQuery .. => true
  | .decimConfig .. => true
  | .decimConfigQuery .. => true
  | .groupArm .. => true
  | .groupStop .. => true
  | .accConfig .. => true
  | .accConfigQuery .. => true
  | .accSnapshot .. => true
  | .memPortConfig .. => true
  | .memPortConfigQuery .. => true
  | .memConfig .. => true
  | .memConfigQuery .. => true
  | .memClock .. => true
  | .bar2Set .. => true
  | .bar2SetQuery .. => true
  | .readoutRings .. => true
  | .readoutRingsQuery .. => true
  | .calConfig .. => true
  | .calConfigQuery .. => true
  | .calRun .. => true
  | .calAbort .. => true
  | .calSetUpload .. => true
  | .calSetCommit .. => true
  | .calSetDownload .. => true
  | .calSliceQuery .. => true
  | .seqConfig .. => true
  | .seqConfigQuery .. => true
  | .seqSegmentDefine .. => true
  | .seqSegmentDefineQuery .. => true
  | .seqListWrite .. => true
  | .seqListRead .. => true
  | .seqSegmentReady .. => true
  | .seqStepWrite .. => true
  | .seqStepWriteQuery .. => true
  | .seqEnable .. => true
  | .seqDisable .. => true
  | .seqStart .. => true
  | .seqStopNow .. => true
  | .seqStopBoundary .. => true
  | .seqJump .. => true
  | .monConfig .. => true
  | .monConfigQuery .. => true
  | .monWindowSet .. => true
  | .monWindowSetQuery .. => true
  | .enumProbe .. => true
  | .enumProbeAssign .. => true
  | .groveConfig .. => true
  | .groveConfigQuery .. => true
  | .groveRange .. => true
  | .groveAlign .. => true
  | .promote .. => true
  | .demote .. => true
  | .groveStatus .. => true
  | .keyInstall .. => true
  | .imageLoad .. => true
  | .imageStart .. => true
  | .commandReceive .. => true
  | .interimNotice .. => true
  | .cmdTailDoorbell .. => true
  | .bootDoorbell .. => true
  | .descTailDoorbell .. => true
  | .cplHeadDoorbell .. => true
  | .lowHalfRead .. => true
  | .highHalfRead .. => true
  | .atomic64Read .. => true
  | .rcFieldRead .. => true
  | .halfOrderClear .. => true
  | .monCtrlConvert .. => true
  | .registerWrite .. => true
  | .bar2Access _ offset access => access.wf offset
  | .take .. => true
  | .post .. => true
  | .eventPost .. => true
  | .commit .. => true
  | .wdtKick .. => true
  | .scOverrunClear .. => true
  | .scClockPlan .. => true
  | .scClockSync .. => true
  | .scSlew .. => true
  | .scMemClock .. => true
  | .scQuadPower .. => true
  | .scCalOpen .. => true
  | .scCalSwitch .. => true
  | .scCalClose .. => true
  | .scGroveIdentity .. => true
  | .scWdtConfig .. => true
  | .scReady .. => true
  | .scSubmit .. => true
  | .scRestart .. => true
  | .scFault .. => true
  | .scKeys .. => true
  | .watchdogExpiry .. => true
  | .firewallFault .. => true
  | .doubleTrap .. => true
  | .restartVerifyDone .. => true
  | .sapwoodReadyTimeout .. => true
  | .sampleLinkBlock _ _ data => data.wf
  | .nak .. => true
  | .linkResend .. => true
  | .alignmentFifoRelease .. => true
  | .linkRetrainDone .. => true
  | .bankReturned .. => true
  | .sliceSubstitution .. => true
  | .backgroundEstimate .. => true
  | .quadPoweringDone .. => true
  | .quadTrainingDone .. => true
  | .quadConverged .. => true
  | .quadRetimingDone .. => true
  | .inputSettled .. => true
  | .triggerUnitDecision .. => true
  | .taggedEventDelivery .. => true
  | .triginEdge .. => true
  | .swTriggerDue .. => true
  | .fillComplete .. => true
  | .holdoffExpiry .. => true
  | .trigoutPulseStart .. => true
  | .trigoutPulseEnd .. => true
  | .trigoutLevelChange .. => true
  | .recordBlockWritten .. => true
  | .recordComplete .. => true
  | .accumulationCommit .. => true
  | .snapshotComplete .. => true
  | .memRequest _ _ _ access _ => access.wf
  | .memReadReturn .. => true
  | .refreshDue .. => true
  | .stackTempReading .. => true
  | .neighbourRefreshForced .. => true
  | .stripeReinitDone .. => true
  | .memClockRelocked .. => true
  | .trainingPassDone .. => true
  | .memInitDone .. => true
  | .descriptorTake _ _ desc => desc.length = 32
  | .readoutBlockRead _ _ damaged => damaged.all fun b => b.length = 2048
  | .completionPost .. => true
  | .streamFlushTimeout .. => true
  | .irqTimerExpiry .. => true
  | .calDrainDone .. => true
  | .calDrainTimeout .. => true
  | .calLeakageEnd _ _ squares => squares.length = 4
  | .calIsolateEnd .. => true
  | .calSourceSettled .. => true
  | .calRefTransferEnd .. => true
  | .calRunAEnd .. => true
  | .calRunBEnd .. => true
  | .calCompareEnd _ _ point => point.length = pointBytes
  | .calRestoreEnd .. => true
  | .calStopDone .. => true
  | .calHeldWordsEnd .. => true
  | .calResultsFormed .. => true
  | .heldTriggerResume .. => true
  | .switchTimeout .. => true
  | .changeover .. => true
  | .gatherReopen .. => true
  | .bgGatherDue .. => true
  | .quadTempReading .. => true
  | .lockWindowEnd .. => true
  | .lockLost .. => true
  | .bandSearchDone .. => true
  | .acquisitionDone .. => true
  | .commonStart .. => true
  | .syncEdge .. => true
  | .syncTimeout .. => true
  | .planHopTimeout .. => true
  | .refLost .. => true
  | .refReturned .. => true
  | .slewEnd .. => true
  | .fallbackSwitch .. => true
  | .clockRestore .. => true
  | .fallbackStandby .. => true
  | .sampleClockStop .. => true
  | .sampleClockRestart .. => true
  | .xoLost .. => true
  | .keeperTrim .. => true
  | .sqRephaseDone .. => true
  | .stimStartInstant .. => true
  | .stimDecisionPoint .. => true
  | .stimBoundary .. => true
  | .stimEntryEffect .. => true
  | .stimStopRampStart .. => true
  | .stimStopRampEnd .. => true
  | .stimMuteRampEnd .. => true
  | .segmentReadbackDone .. => true
  | .monConversion .. => true
  | .monRefSettled .. => true
  | .railFault .. => true
  | .pwrOkRise .. => true
  | .pwrOkFall .. => true
  | .perstNAssert .. => true
  | .perstNRelease .. => true
  | .selftestDone .. => true
  | .lockTimeout .. => true
  | .quadStartTimeout .. => true
  | .selfCalStart .. => true
  | .selfCalPhaseEnd _ res => res.wf
  | .readyCallTimeout .. => true
  | .laneLockLost .. => true
  | .fastRetrainDone .. => true
  | .boughBlockReceive .. => true
  | .blockReplayTimeout .. => true
  | .messageAgeExpiry .. => true
  | .unicast .. => true
  | .up .. => true
  | .flood .. => true
  | .path .. => true
  | .hello .. => true
  | .joinAccept .. => true
  | .joinRefuse .. => true
  | .orphanNotice .. => true
  | .epochSet .. => true
  | .saplingSet .. => true
  | .groveTrigger .. => true
  | .triggerRequest .. => true
  | .groveBroadcast .. => true
  | .requestForward .. => true
  | .rangeReq .. => true
  | .rangeReply .. => true
  | .rangeResult .. => true
  | .pack .. => true
  | .pframeResend .. => true
  | .rangeExchange .. => true
  | .rangeComplete .. => true
  | .trackingRange .. => true
  | .orphanTimeout .. => true
  | .saplingTimeout .. => true
  | .smbIdent .. => true
  | .smbEngine .. => true
  | .smbBoot .. => true
  | .smbPins .. => true
  | .smbTemps .. => true
  | .smbUniqueId .. => true
  | .smbEvents .. => true
  | .smbWriteReject .. => true
  | .smbAlertResponse .. => true
  | .tapReset .. => true
  | .extest .. => true
  | .idcode .. => true
  | .samplePreload .. => true
  | .clamp .. => true
  | .highz .. => true
  | .extestPulse .. => true
  | .extestTrain .. => true
  | .bypass .. => true
  | .imageAuthDone .. => true
  | .blockLock .. => true
  | .smbusTimeout .. => true
  | .pageTimerExpiry .. => true

end Sys2Proof
end

