-- ==== Sys2Proof/Machine/ClockEvents.lean ====
section
/-!
DEFINITION. The events of the clock system (08): locks and their loss, the common start, sync edges, the reference, slews, switches of the phase generator, and the keeper.
-/
namespace Sys2Proof.Machine

/-- An event row whose change may let commands or service calls go on. -/
def State.event (s : State) (t : Nat) (f : State → State) : Host.Outcome State Fault Refusal := .next (f (s.advance t)).settle

/-- The sample clocks may run: after INIT began and outside FAULT. -/
def State.clocksAllowed (s : State) : Bool := s.board.boot = .init || s.board.boot = .run

/-- A plan hop ends: its command is answered OK (R261). -/
def State.hopEnds (s : State) : State :=
  if s.clock.hop.isSome then (s.onClock fun c => { c with hop := none }).finish .planHop (Reply.ok) else s

/-- The main loop is locked at the end of a cold lock (R263 to R265, R273, R276): COASTING where the reference is still lost; then the common start, the wait for a sync edge, or the restart of the sample clocks. -/
def State.coldLocked (s : State) : State :=
  let present := s.clock.refPresent
  let s1 := s.onClock fun c => { c with loop := if present then .locked else .coasting }
  let s2 := if present then s1.raise { code := 0x0180, vals := [s.clock.band] } else s1
  let s3 := s2.hopEnds
  if s.clock.drive ≠ .stopped || !s.clocksAllowed then s3
  else match s.clock.t0 with
    | some _ => s3.onClock fun c => { c with switch := some (s.beatFrom s.now, .restart) }
    | none => s3.onClock fun c => match c.sync with
      | none => { c with commonDue := some { due := s.now, start := 0, sync := none } }
      | some w => { c with sync := some { w with since := s.now, lows := 0 } }

/-- The main loop has lost lock (R263, R271, R272, R274). -/
def State.mainLost (s : State) : State :=
  let c := s.clock
  if c.loop ≠ .locked && c.loop ≠ .coasting then s
  else
    let s1 := s.onClock fun c => { c with cnt := { c.cnt with lockLosses := c.cnt.lockLosses + 1 } }
    match c.drive with
    | .fallback => s1.coldLock
    | .stopped => (s1.onClock fun c => { c with switch := none }).coldLock
    | .main =>
      let s2 := s1.dropSnap
      if c.fbStandby && c.loop = .locked then (s2.onClock fun c => { c with switch := some (s.beatFrom (s.now + 64), .toFallback) }).coldLock
      else (s2.scheduleStop).coldLock

/-- The fall-back loop has lost lock (R262, R272, R274). -/
def State.fallbackLost (s : State) : State :=
  let s1 := s.onClock fun c => { c with fbStandby := false }
  if s.clock.drive ≠ .fallback then s1
  else if s.clock.loop = .locked then s1.onClock fun c => { c with switch := some (s.beatFrom (s.now + 1), .toMain) }
  else s1.scheduleStop

/-- A lock window of the main loop ends (R261, R263, R269): dev is its count's distance from the expected count. -/
def State.mainWindow (s : State) (count word : Nat) : State :=
  let c := s.clock
  let want := planExpected c.plan
  let dev := max count want - min count want
  let judged := !c.refJudged && 100000 * dev ≤ want
  let s1 := s.onClock fun c => { c with
    words := (word, s.now) :: c.words.take 3, refJudged := c.refJudged || judged, refPresent := c.refPresent || judged }
  let good := if dev ≤ 2 then min 4 (c.goodWindows + 1) else 0
  let s2 := s1.onClock fun c => { c with goodWindows := good }
  match c.loop with
  | .off => s
  | .searching => s
  | .acquiring => if !c.windows then s else if good = 4 then s2.coldLocked else s2
  | .locked => if 8 < dev && c.refPresent then s1.mainLost else s2
  | .coasting => if judged && c.hop.isSome then (s2.onClock fun c => { c with loop := .locked }).hopEnds else s2

/-- LOCK_WINDOW_END (R263). -/
def execLockWindowEnd (t : Nat) (loop : WhichLoop) (count : Nat) (word : Nat) (s : State) : Host.Outcome State Fault Refusal :=
  s.event t fun s => match loop with
    | .main => s.mainWindow count word
    | .fallback =>
      let want := planExpected s.clock.plan
      if 8 < max count want - min count want && (s.clock.fbStandby || s.clock.drive = .fallback) then s.fallbackLost else s

/-- LOCK_LOST (R263, R274): a phase error, or a fine word at the end of its range. -/
def execLockLost (t : Nat) (loop : WhichLoop) (s : State) : Host.Outcome State Fault Refusal :=
  s.event t fun s => match loop with
    | .main => s.mainLost
    | .fallback => s.fallbackLost

/-- BAND_SEARCH_DONE (R264): the search writes its key's entry into the band cache. -/
def execBandSearchDone (t : Nat) (band : Nat) (fine : Nat) (gain : Nat) (s : State) : Host.Outcome State Fault Refusal :=
  .next <| let s := s.advance t
    if s.clock.loop ≠ .searching then s
    else
      let k := planKey s.clock.plan
      let e : BandEntry := { source := k.1, freq := k.2.1, scaler := k.2.2, band := band % 64, fine := fine, gain := gain, temp := s.dieCode }
      s.onClock fun c => { c with
        loop := .acquiring, band := band % 64, fine := fine
        cache := (e :: c.cache.filter fun x => (x.source, x.freq, x.scaler) ≠ k).take 16 }

/-- ACQUISITION_DONE (R264): the four windows begin. -/
def execAcquisitionDone (t : Nat) (s : State) : Host.Outcome State Fault Refusal :=
  .next <| let s := s.advance t
    if s.clock.loop = .acquiring ∧ s.clock.windows = false then s.onClock fun c => { c with windows := true, goodWindows := 0 } else s

/-- The sample clocks run from the common start (R265, R33, R467): grove time begins at T0, LOCK is set, and the quads power on. -/
def State.startCommon (s : State) (d : CommonDue) : State :=
  let s1 := s.onClock fun c => { c with
    off := (d.start : Int) - s.now, t0 := some d.start, drive := .main, commonDue := none, firstDelivered := s.now
    keeper := { c.keeper with count := d.start * 2 ^ 32, noted := s.now } }
  let s2 := (s1.bootBit 25).allQuads fun q => { q with state := .powering, since := s.now, ticket := 0 }
  let s3 := match d.sync with
    | none => s2
    | some (ticket, outcome) => s2.raise { code := 0x0188, vals := [outcome, d.start], ticket := ticket }
  s3.sayHello

/-- COMMON_START (R265). -/
def execCommonStart (t : Nat) (s : State) : Host.Outcome State Fault Refusal :=
  .next <| let s := s.advance t
    match s.clock.commonDue with
    | none => s
    | some d => if d.due ≤ s.now ∧ s.clock.t0.isNone ∧ s.clocksAllowed then s.startCommon d else s

/-- The sync edge of an IDLE engine (R266): δ = SYNC_TICK − (E + 204,800) is split into whole ticks, loaded, and a rest of at most half a tick, slewed. -/
def State.syncRealign (s : State) (w : SyncWait) (fraction : Nat) : State :=
  let d : Int := ((w.syncTick : Int) - 204800 - s.grove64) * 2 ^ 32 - fraction
  let n := roundDiv d (2 ^ 32)
  let rest := roundDiv ((d - n * 2 ^ 32) * 50000) (2 ^ 32)
  let load := signed 64 (unsigned 64 n)
  let s1 := (s.onClock fun c => { c with sync := none }).load load
  if rest = 0 then s1.raise { code := 0x0188, vals := [0, unsigned 64 load], ticket := w.ticket } else s1.startSlew .sync rest w.ticket load

/-- A load may be applied: no group in use and the sequencer disabled (R280). -/
def State.loadOk (s : State) : Bool := !s.groups.any Group.live && !s.stim.enabled

/-- A wait for a sync edge has begun: in INIT once the loop is LOCKED, afterwards at once (R265, R266). -/
def State.syncWaits (s : State) : Bool := s.clocksAllowed && (s.clock.t0.isSome || s.clock.loop = .locked) && s.clock.commonDue.isNone

/-- SYNC_EDGE (R265, R266): a rising edge of REFIN samples SYNCIN. -/
def execSyncEdge (t : Nat) (high : Bool) (fraction : BitVec 32) (s : State) : Host.Outcome State Fault Refusal :=
  .next <| let s := s.advance t
    match s.clock.sync with
    | none => s
    | some w =>
      if !s.syncWaits then s
      else if !high then s.onClock fun c => { c with sync := some { w with lows := w.lows + 1 } }
      else if w.lows < 2 then s
      else if s.clock.t0.isNone then s.onClock fun c => { c with
        sync := none, commonDue := some { due := s.now + 204800, start := w.syncTick, sync := some (w.ticket, 0) } }
      else if s.loadOk && s.clock.slew.isNone then s.syncRealign w fraction.toNat else s

/-- SYNC_TIMEOUT (R265, R266). -/
def execSyncTimeout (t : Nat) (s : State) : Host.Outcome State Fault Refusal :=
  .next <| let s := s.advance t
    match s.clock.sync with
    | none => s
    | some w =>
      if !s.syncWaits || s.now < w.since + w.timeoutMs * ms then s
      else if s.clock.t0.isNone then s.onClock fun c => { c with
        sync := none, commonDue := some { due := s.now, start := w.syncTick, sync := some (w.ticket, 1) } }
      else (s.onClock fun c => { c with sync := none }).raise { code := 0x0188, vals := [1, 0], ticket := w.ticket }

/-- PLAN_HOP_TIMEOUT (R261): 100 ms without lock. -/
def execPlanHopTimeout (t : Nat) (s : State) : Host.Outcome State Fault Refusal :=
  s.event t fun s => match s.clock.hop with
    | none => s
    | some start => if start + 100 * ms ≤ s.now then s.hopEnds else s

/-- Ticks of sixteen scaled-reference periods (R268). -/
def sixteenPeriods (plan : BitVec 128) : Nat := 640000000000000 / planPfd2 plan

/-- The reference is lost (R268, R270, R274): a LOCKED main loop that drives coasts, and a running SNAP slew stops. -/
def State.referenceLost (s : State) : State :=
  if !s.clock.refPresent then s
  else
    let word := ((s.clock.words.find? fun (_, e) => e + sixteenPeriods s.clock.plan ≤ s.now).map Prod.fst).getD s.clock.coastWord
    let s1 := s.onClock fun c => { c with
      refPresent := false, fbStandby := false, refJudged := false, coastWord := word, cnt := { c.cnt with refLosses := c.cnt.refLosses + 1 } }
    let s2 := s1.raise { code := 0x0181 }
    let locked := s.clock.loop = .locked
    let s3 := if locked then s2.onClock fun c => { c with loop := .coasting } else s2
    let s4 := match s.clock.drive with
      | .main => s3
      | .stopped => s3
      | .fallback => if locked then s3.onClock fun c => { c with switch := some (s.beatFrom (s.now + 1), .toMain) } else s3.scheduleStop
    (s4.dropSnap).runNoRefin

/-- REF_LOST (R268). -/
def execRefLost (t : Nat) (s : State) : Host.Outcome State Fault Refusal := .next (s.advance t).referenceLost

/-- The reference has returned (R269, R270). -/
def State.referenceBack (s : State) (phase offset : Int) : State :=
  if s.clock.refPresent || s.clock.loop = .off then s
  else
    let s1 := s.onClock fun c => { c with
      refPresent := true, refJudged := true, refPhaseStep := phase, refOffset := offset, loop := if c.loop = .coasting then .locked else c.loop }
    let s2 := s1.raise { code := 0x0182, vals := [unsigned 64 phase] }
    if !planSnap s.clock.plan || s.clock.loop ≠ .coasting || phase = 0 then s2
    else if s.clock.slew.isSome then s2.onClock fun c => { c with snapWaiting := true }
    else s2.startSlew .snap (-phase) 0 0

/-- REF_RETURNED (R269). -/
def execRefReturned (t : Nat) (phase : Int) (offset : Int) (s : State) : Host.Outcome State Fault Refusal :=
  .next ((s.advance t).referenceBack phase offset)

/-- A slew has made its whole amount (R281); a waiting SNAP slew follows, with the phase measured anew (R270). -/
def State.slewDone (s : State) (phase : Int) : State :=
  match s.clock.slew with
  | none => s
  | some w =>
    if s.now < w.endsAt then s
    else
      let s1 := s.endSlew w.endsAt
      if s.clock.snapWaiting then
        let s2 := s1.onClock fun c => { c with snapWaiting := false, refPhaseStep := phase }
        if phase = 0 then s2 else s2.startSlew .snap (-phase) 0 0
      else s1

/-- SLEW_END (R281). -/
def execSlewEnd (t : Nat) (phase : Int) (s : State) : Host.Outcome State Fault Refusal := .next ((s.advance t).slewDone phase)

/-- The phase generator is switched at a beat boundary (R271): the tick is suspect, and the switch is counted. -/
def State.switchTo (s : State) (x : Nat) (d : Drive) (code : Nat) : State :=
  (s.onClock fun c => { c with
    drive := d, switch := none, suspect := c.suspect ++ [(x, some x)], cnt := { c.cnt with fallbackSwitches := c.cnt.fallbackSwitches + 1 } }).raiseAt
    { code := code } (s.groveAt x)

/-- FALLBACK_SWITCH (R271, R274): a foreground run ends its quads. -/
def execFallbackSwitch (t : Nat) (s : State) : Host.Outcome State Fault Refusal :=
  .next <| let s := s.advance t
    match s.clock.switch with
    | some (x, .toFallback) =>
      if s.now < x then s
      else if s.clock.fbStandby then ((s.onClock fun c => { c with fbStandby := false }).switchTo x .fallback 0x0183).runNoRefin
      else (s.onClock fun c => { c with switch := none }).scheduleStop
    | _ => s

/-- CLOCK_RESTORE (R271, R274): the main loop, LOCKED and aligned, or at the switch that was scheduled, takes back the phase generator. -/
def execClockRestore (t : Nat) (s : State) : Host.Outcome State Fault Refusal :=
  .next <| let s := s.advance t
    if s.clock.drive ≠ .fallback then s
    else match s.clock.switch with
      | some (x, .toMain) => if s.now < x then s else s.switchTo x .main 0x0184
      | some _ => s
      | none => if s.clock.loop = .locked then s.switchTo (s.beatFrom s.now) .main 0x0184 else s

/-- FALLBACK_STANDBY (R262). -/
def execFallbackStandby (t : Nat) (s : State) : Host.Outcome State Fault Refusal :=
  .next <| let s := s.advance t
    let c := s.clock
    if c.drive = .main ∧ c.switch.isNone ∧ planFallback c.plan ∧ planInteger c.plan ∧ c.refPresent then s.onClock fun c => { c with fbStandby := true } else s

/-- The sample clocks stop at a beat boundary (R272): grove time passes to the keeper. -/
def State.stopClocks (s : State) (x : Nat) : State :=
  let g := s.groveAt x
  let s1 := (s.onClock fun c => { c with cnt := { c.cnt with clockStops := c.cnt.clockStops + 1 } }).raiseAt { code := 0x0185 } g
  let s2 := s1.clocksStopped x
  (s2.onClock fun c => { c with drive := .stopped, switch := none, fbStandby := false, keeper := { c.keeper with count := g * 2 ^ 32, noted := x } }).sayHello

/-- SAMPLE_CLOCK_STOP (R272). -/
def execSampleClockStop (t : Nat) (s : State) : Host.Outcome State Fault Refusal :=
  .next <| let s := s.advance t
    match s.clock.switch with
    | some (x, .stop) => if s.now < x then s else s.stopClocks x
    | _ => s

/-- The sample clocks restart at a beat boundary on the continued grid (R273): the links of every powered quad train again, and the first sample delivered is that of t_r. -/
def State.restartClocks (s : State) (x uncertainty : Nat) : State :=
  let g := s.groveAt x
  let t0 := s.clock.t0.getD 0
  let least : Int := (g : Int) + 400000
  let tr := least + (t0 - least) % 128
  let off : Int := (g : Int) - x
  let s1 := s.onClock fun c => { c with off := off, drive := .main, switch := none, firstDelivered := (tr - off).toNat }
  let s2 := s1.allBanks fun (b : Bank) => if b.link.up then { b with link := { b.link with
      start := (tr - off).toNat, fifo := [], replay := [], awaiting := none, resend := none
      expect := ((tr - t0) / 128).toNat, txNext := ((tr - t0) / 128).toNat } } else b
  (s2.raiseAt { code := 0x0186, vals := [unsigned 64 tr, uncertainty] } g).sayHello

/-- SAMPLE_CLOCK_RESTART (R273). -/
def execSampleClockRestart (t : Nat) (uncertainty : Nat) (s : State) : Host.Outcome State Fault Refusal :=
  .next <| let s := s.advance t
    match s.clock.switch with
    | some (x, .restart) =>
      if s.now < x || !s.clocksAllowed || (s.clock.loop ≠ .locked && s.clock.loop ≠ .coasting) then s else s.restartClocks x uncertainty
    | _ => s

/-- XO_LOST (R275, R478, R483). -/
def execXoLost (t : Nat) (s : State) : Host.Outcome State Fault Refusal :=
  s.event t fun s =>
    if !s.clock.xoPresent then s
    else (s.onClock fun c => { c with xoPresent := false, loop := .off, fbStandby := false }).fatal 0x0107 0xF

/-- KEEPER_TRIM (R278): the keeper takes the grid's tick, and a new step. -/
def execKeeperTrim (t : Nat) (step : Nat) (s : State) : Host.Outcome State Fault Refusal :=
  .next <| let s := s.advance t
    if s.clock.drive = .stopped ∨ s.clock.t0.isNone then s
    else s.onClock fun c => { c with keeper := { count := s.grove64 * 2 ^ 32, noted := s.now, step := step } }

/-- SQ_REPHASE_DONE (R285): a waiting enable of the sequencer goes on. -/
def execSqRephaseDone (t : Nat) (s : State) : Host.Outcome State Fault Refusal :=
  s.event t fun s => if s.clock.sqRephase then (s.onClock fun c => { c with sqRephase := false }).seqEnabled else s

end Sys2Proof.Machine
end

