-- ==== Sys2Proof/Machine/InputEvents.lean ====
section
/-!
DEFINITION. The events of the input path (01, R222): sample links, release from the alignment FIFO, link faults and their end, slice substitution, quad power and retiming, and settling.
-/
namespace Sys2Proof.Machine

/-- The channels that a bank feeds, with the bank's phase and the samples per tick (R36). -/
def State.channelOf (s : State) (b : Fin 16) : Fin 16 := sourceInput (s.quads.get (quadOf b)).fusion b

/-- A group owns the channel of a bank, or its combiner refers to a unit that watches it (R50). -/
def State.touchesBank (s : State) (g : Fin 4) (b : Fin 16) : Bool :=
  let x := s.groups.get g
  let i := s.channelOf b
  bit x.channels i.val || eight.any fun u => bit (combUnits x.comb) u.val && (s.units.get u).watches i

/-- A bank is declared faulted from the first sample of a block on (R48, R50, R52): groups that use it end, and a run of its quad is aborted. -/
def State.bankFault (s : State) (b : Fin 16) (first : Nat) : State :=
  let f := rateOf (s.fusion b)
  let cut := first * 2 ^ 32 + bankPhase (s.fusion b) b * 2 ^ 32 / f
  let s1 := (s.decideTo s.now).onBank b fun k => { k with link := { k.link with
    up := false, faulted := true, retries := 0, checking := none, awaiting := none, resend := none, faultTick := s.groveAt first
    cnt := { k.link.cnt with faults := k.link.cnt.faults + 1 } } }
  let s2 := s1.raiseAt { code := 0x0283, obj := b.val } (s.groveAt first)
  let s3 := s2.each four fun s g => if (s.groups.get g).live && s.touchesBank g b then s.endGroup g .linkFault cut 4 else s
  let s4 := if s3.runNames (quadOf b) then s3.abortRun else s3
  s4.abandonSelf

/-- A block has passed its check (R47, R48, R49): it enters the alignment FIFO with its lateness. -/
def State.blockPassed (s : State) (b : Fin 16) (words : List Nat) : State :=
  let l := (s.banks.get b).link
  let blk : Block := { first := s.blockFirst l.expect, words := words }
  s.onBank b fun k => { k with link := { k.link with
    expect := l.expect + 1, txNext := max l.txNext (l.expect + 1), awaiting := none, resend := none, fifo := k.link.fifo ++ [blk]
    replay := if k.link.replay.any (fun r => r.first = blk.first) then k.link.replay else (blk :: k.link.replay).take 64
    cnt := { k.link.cnt with maxLateness := max k.link.cnt.maxLateness (s.now - (blk.first + 260)) } } }

/-- An attempt of the block expected has failed (R47, R48): it is awaited again 240 ticks later, or the bank is faulted. -/
def State.blockFailed (s : State) (b : Fin 16) : State :=
  let first := s.blockFirst (s.banks.get b).link.expect
  if s.now + 240 ≤ first + 260 + 960 then s.onBank b fun k => { k with link := { k.link with awaiting := some (s.now + 240) } }
  else s.bankFault b first

/-- A retraining attempt or its check has failed (R51): three retries, then the bank stays faulted; in INIT that fails boot (R467). -/
def State.retrainFailed (s : State) (b : Fin 16) : State :=
  if (s.banks.get b).link.retries < 3 then s.onBank b fun k => { k with link := { k.link with retries := k.link.retries + 1, checking := none } }
  else
    let s1 := s.onBank b fun k => { k with link := { k.link with abandoned := true, checking := none } }
    if s1.board.boot = .init then s1.bootFail 0x0206 (quadOf b).val else s1

/-- The words of a transfer that passes its check: the right CRC, equal copies of the control value, and the tag expected (R45, R46, R47). -/
def wireWords (bytes : Bytes) (tag : Nat) : Option (List Nat) :=
  let lo := leAt bytes 0 2
  if leAt bytes 260 4 = crc32c ((bytes.drop 4).take 256) ∧ leAt bytes 2 2 = lo ∧ lo % 16384 = tag % 16384 then
    some ((List.range 128).map fun i => leAt bytes (4 + 2 * i) 2)
  else none

/-- The transmitter takes the next block of a bank from its analog input (R26, R42, R43, R47). -/
def State.takeBlock (s : State) (b : Fin 16) (nv : List Int) : State × Block :=
  let k := s.banks.get b
  let r := Machine.convert (s.inputs.get (s.channelOf b)).cfg nv k.link.ovrHold s.freeCount
  let blk : Block := { first := s.blockFirst k.link.txNext, words := r.1 }
  ((s.drawn (r.2.2 - s.freeCount)).onBank b fun k => { k with link := { k.link with
    txNext := k.link.txNext + 1, ovrHold := r.2.1, replay := (blk :: k.link.replay).take 64 } }, blk)

/-- What the receiver finds at the end of a slot (R47): the words of the block expected, or none where the attempt fails. -/
def State.received (s : State) (b : Fin 16) (data : LinkData) : State × Option (List Nat) :=
  let l := (s.banks.get b).link
  match data with
  | .absent => (s, none)
  | .wire bytes => (s, wireWords bytes l.expect)
  | .replay intact => (s, if intact then (l.replay.find? fun r => r.first = s.blockFirst l.expect).map Block.words else none)
  | .analog nv intact =>
    let r := s.takeBlock b nv
    (r.1, if intact && l.txNext = l.expect then some r.2.words else none)

/-- A block is checked while a retrained link is on trial (R51). -/
def State.trialBlock (s : State) (b : Fin 16) (n : Nat) (ok : Bool) : State :=
  if 1024 ≤ n then s
  else if ok then s.onBank b fun k => { k with link := { k.link with
    checking := some (n + 1), expect := k.link.expect + 1, txNext := max k.link.txNext (k.link.expect + 1) } }
  else s.retrainFailed b

/-- A transfer of a link that delivers is checked (R47, R48); one that arrives before the re-send awaited is discarded. -/
def State.linkBlock (s : State) (b : Fin 16) (data : LinkData) : State :=
  let l := (s.banks.get b).link
  let first := s.blockFirst l.expect
  let r := s.received b data
  match l.checking with
  | some n => r.1.trialBlock b n r.2.isSome
  | none =>
    if !l.up || s.now < first + 260 || first + 1220 < s.now || l.awaiting.any (s.now < ·) then (if l.up then r.1 else s)
    else match r.2 with
      | some ws => r.1.blockPassed b ws
      | none => r.1.blockFailed b

/-- SAMPLE_LINK_BLOCK (R45 to R48, R51). -/
def execSampleLinkBlock (t : Nat) (bank : Fin 16) (data : LinkData) (s : State) : Host.Outcome State Fault Refusal :=
  if !data.wf then .refused .illFormed else s.event t fun s => s.linkBlock bank data

/-- NAK (R47): the transmitter will re-send the block awaited, in the slot that ends 130 ticks before its check. -/
def execNak (t : Nat) (bank : Fin 16) (s : State) : Host.Outcome State Fault Refusal :=
  .next <| let s := s.advance t
    s.onBank bank fun k => match k.link.awaiting with
      | some a => { k with link := { k.link with resend := some (k.link.expect, a - 130) } }
      | none => k

/-- LINK_RESEND (R47, R54). -/
def execLinkResend (t : Nat) (bank : Fin 16) (s : State) : Host.Outcome State Fault Refusal :=
  .next <| let s := s.advance t
    s.onBank bank fun k => match k.link.resend with
      | some (_, at_) => if s.now < at_ then k else { k with link := { k.link with
          resend := none, cnt := { k.link.cnt with resends := k.link.cnt.resends + 1 } } }
      | none => k

/-- A released block is corrected and joins the delivered samples (R49, R221); the last word before a held interval is kept (R237). -/
def State.release (s : State) (b : Fin 16) (blk : Block) : State :=
  let ws := s.corrected b blk
  let a := ((s.quads.get (quadOf b)).held.map Prod.fst).getD 0
  let s1 := s.onBank b fun k => { k with
    link := { k.link with fifo := k.link.fifo.drop 1 }, hist := { first := blk.first, words := ws } :: k.hist
    heldWords := if blk.first < a ∧ a ≤ blk.first + 128 then (a, ws.getD (a - 1 - blk.first) 0) :: k.heldWords else k.heldWords }
  s1.trim b

/-- A group's assembly has failed (R111, R178): the record in assembly ends with the last sample copied, and the group ends. -/
def State.assemblyFails (s : State) (g : Fin 4) : State :=
  let x := s.groups.get g
  match x.current with
  | none => (s.onGroup g fun x => x.windDown .assemblyOverrun).tryDone g
  | some r =>
    let s1 := s.raise { code := 0x0480, obj := g.val, vals := [r.seq] }
    s1.onGroup g fun x => (x.windDown .assemblyOverrun true).onCurrent fun r =>
      r.cut (r.copied (r.end' s.now) (if x.streaming then 1 else 0)) 8 s1.events.seq

/-- The ring would have to overwrite a sample that the record in assembly still needs (R111). -/
def State.ringFull (s : State) (g : Fin 4) : Bool :=
  let x := s.groups.get g
  match x.current with
  | none => false
  | some r => x.live && r.copied (r.end' s.now) (if x.streaming then 1 else 0) < r.end' s.now &&
      r.copied (r.end' s.now) (if x.streaming then 1 else 0) / r.f + x.ringTicks x.f + 1279 < s.now

/-- Released samples are written into the rings of the groups that own the bank's channel (R108, R111); data lost by an overrun of the bank's port ends them (R178). -/
def State.ringWrite (s : State) (b : Fin 16) (overrun : Bool) : State :=
  let mine := four.filter fun g => (s.groups.get g).live && bit (s.groups.get g).channels (s.channelOf b).val
  if overrun ∧ mine ≠ [] then (s.raise { code := 0x0680, obj := b.val }).each mine State.assemblyFails
  else (s.each mine fun s g => if s.ringFull g && (s.groups.get g).ending ≠ some .assemblyOverrun then s.assemblyFails g else s)

/-- ALIGNMENT_FIFO_RELEASE (R49, R108, R111, R178). -/
def execAlignmentFifoRelease (t : Nat) (bank : Fin 16) (overrun : Bool) (s : State) : Host.Outcome State Fault Refusal :=
  .next <| let s := s.advance t
    match (s.banks.get bank).link.fifo with
    | [] => s
    | blk :: _ => if s.now < blk.first + 1240 then s else (s.release bank blk).ringWrite bank overrun

/-- A faulted link can train: not left faulted, its quad powered and the sample clocks running (R51). -/
def State.canRetrain (s : State) (b : Fin 16) : Bool :=
  let l := (s.banks.get b).link
  l.faulted && !l.abandoned && l.checking.isNone && s.clock.drive ≠ .stopped

/-- LINK_RETRAIN_DONE (R51). -/
def execLinkRetrainDone (t : Nat) (bank : Fin 16) (ok : Bool) (s : State) : Host.Outcome State Fault Refusal :=
  s.event t fun s =>
    if !s.canRetrain bank then s
    else if !ok then s.retrainFailed bank
    else
      let n := s.nextBlock s.now
      s.onBank bank fun k => { k with link := { k.link with checking := some 0, expect := n, txNext := n, replay := [], ovrHold := 0 } }

/-- BANK_RETURNED (R51, R52): the bank delivers again from the next block boundary. -/
def execBankReturned (t : Nat) (bank : Fin 16) (s : State) : Host.Outcome State Fault Refusal :=
  .next <| let s := s.advance t
    if (s.banks.get bank).link.checking ≠ some 1024 then s
    else
      let n := s.nextBlock s.now
      (s.onBank bank fun k => { k with link := { k.link with
        up := true, faulted := false, checking := none, retries := 0, expect := n, txNext := n, start := s.blockFirst n, fifo := [], replay := [] } }).raise
        { code := 0x0284, obj := bank.val }

/-- A bank converts: its quad runs and the sample clocks do (R31, R34, R35). -/
def State.converts (s : State) (b : Fin 16) : Bool :=
  let q := (s.quads.get (quadOf b)).state
  (q = .ready || q = .converging) && s.clock.drive ≠ .stopped

/-- SLICE_SUBSTITUTION (R31): the spare takes a position at a beat boundary and frees its occupant. -/
def execSliceSubstitution (t : Nat) (bank : Fin 16) (pos : Fin 32) (s : State) : Host.Outcome State Fault Refusal :=
  .next <| let s := s.advance t
    match (s.banks.get bank).spare with
    | none => s
    | some n =>
      if !s.converts bank then s
      else s.onBank bank fun k => { k with
        oldPositions := some (s.beatFrom s.now, k.positions), spare := some (k.positions.getD pos.val 0), positions := k.positions.set pos.val n }

/-- BACKGROUND_ESTIMATE (R222 to R225). -/
def execBackgroundEstimate (t : Nat) (bank : Fin 16) (est : SliceEstimate) (s : State) : Host.Outcome State Fault Refusal :=
  .next <| let s := s.advance t
    if s.converts bank && (s.banks.get bank).link.up then s.bgEstimate bank est else s

/-- A quad leaves a state of its power-on once its time has passed (R35). -/
def State.quadStep (s : State) (q : Fin 4) (from_ : QuadState) (after : Nat) (next : QuadState) (f : State → State) : State :=
  let k := s.quads.get q
  if k.state = from_ ∧ k.since + after ≤ s.now then f (s.onQuad q fun k => { k with state := next, since := s.now }) else s

/-- QUAD_POWERING_DONE (R35). -/
def execQuadPoweringDone (t : Nat) (q : Fin 4) (s : State) : Host.Outcome State Fault Refusal :=
  .next ((s.advance t).quadStep q .powering (2 * ms) .training id)

/-- QUAD_TRAINING_DONE (R35). -/
def execQuadTrainingDone (t : Nat) (q : Fin 4) (s : State) : Host.Outcome State Fault Refusal :=
  .next ((s.advance t).quadStep q .training (20 * us) .converging fun s => s.trainLinks q)

/-- A quad is READY (R35, R366, R467): QUAD_READY carries its command's ticket; in INIT the last of the four sets QUADS. -/
def State.quadReady (s : State) (q : Fin 4) : State :=
  let s1 := (s.raise { code := 0x0280, obj := q.val, ticket := (s.quads.get q).ticket }).onQuad q fun k => { k with ticket := 0 }
  if s1.board.boot = .init ∧ four.all (fun r => (s1.quads.get r).state = .ready) then (s1.bootBit 26).noteReady else s1

/-- QUAD_CONVERGED (R35, R366, R467). -/
def execQuadConverged (t : Nat) (q : Fin 4) (s : State) : Host.Outcome State Fault Refusal :=
  .next ((s.advance t).quadStep q .converging (66 * ms) .ready fun s => s.quadReady q)

/-- QUAD_RETIMING_DONE (R39, R366): the links train again and the fusion command is answered. -/
def execQuadRetimingDone (t : Nat) (q : Fin 4) (s : State) : Host.Outcome State Fault Refusal :=
  s.event t fun s => s.quadStep q .retiming 0 .ready fun s => (s.trainLinks q).finish (.fusion q.val) (Reply.ok)

/-- INPUT_SETTLED (R28). -/
def execInputSettled (t : Nat) (input : Fin 16) (s : State) : Host.Outcome State Fault Refusal :=
  s.event t fun s => s.finish (.input input.val) (Reply.ok)

end Sys2Proof.Machine
end

