-- ==== Sys2Proof/Machine/TriggerEvents.lean ====
section
/-!
DEFINITION. The events of the trigger family (02): the decisions of units and combiners, tagged edges, software triggers that fall due, and the trigger outputs.
-/
namespace Sys2Proof.Machine

/-- TRIGGER_UNIT_DECISION (R55, R77): units and combiners decide every tick up to the present one. -/
def execTriggerUnitDecision (t : Nat) (s : State) : Host.Outcome State Fault Refusal :=
  .next <| let s := s.advance t
    s.decideTo s.now

/-- TAGGED_EVENT_DELIVERY (R58): tagged causes reach the combiners 1,376 ticks after the tick they name, in step with channel events. -/
def execTaggedEventDelivery (t : Nat) (s : State) : Host.Outcome State Fault Refusal :=
  .next <| let s := s.advance t
    s.decideTo s.now

/-- An edge of a TRIGIN pin (R58, R530): it occupies the converter for 2.0 ns for its direction, and is tagged unless one of its direction came less than that before. -/
def State.triginEdge (s : State) (pin : Fin 4) (level : Bool) (time : Nat) : State :=
  let p := s.board.trigin.getD pin.val (false, none, none)
  let last := if level then p.2.2 else p.2.1
  if p.1 = level then s
  else
    let s1 := s.onBoard fun b => { b with trigin := b.trigin.set pin.val (level, if level then p.2.1 else some time, if level then some time else p.2.2) }
    if last.any fun y => time < y + 40 * 2 ^ 32 then s1
    else s1.tag { source := 0x10 + pin.val, rising := level, time := time, unit := 0 }

/-- TRIGIN_EDGE (R58, R530): tick and fraction are the measured crossing on the internal scale. -/
def execTriginEdge (t : Nat) (pin : Fin 4) (level : Bool) (tick : Nat) (fraction : BitVec 32) (s : State) : Host.Outcome State Fault Refusal :=
  .next <| let s := s.advance t
    if s.now < tick then s else s.triginEdge pin level (tick * 2 ^ 32 + fraction.toNat)

/-- SW_TRIGGER_DUE (R96): the samples of a pending AT_TICK reach the unit. -/
def execSwTriggerDue (t : Nat) (unit : Fin 8) (s : State) : Host.Outcome State Fault Refusal :=
  .next <| let s := s.advance t
    match (s.units.get unit).atTick with
    | none => s
    | some x =>
      if s.now < x + 1280 then s
      else (s.onUnit unit fun u => { u with atTick := none }).tag { source := 0x40, rising := true, time := x * 2 ^ 32, unit := unit.val }

/-- The earliest of a list of numbers. -/
def leastOf (l : List Nat) : Option Nat := match l with
  | [] => none
  | x :: xs => some (xs.foldl min x)

/-- A pulse begins at a tick, or extends one that is high (R97). -/
def Trigout.begin (o : Trigout) (at_ : Nat) : Trigout :=
  { o with
    high := true, starts := o.starts.erase at_
    endAt := if o.high then max o.endAt (at_ + outWidth o.cfg) else at_ + outWidth o.cfg }

/-- TRIGOUT_PULSE_START (R97). -/
def execTrigoutPulseStart (t : Nat) (out : Fin 4) (s : State) : Host.Outcome State Fault Refusal :=
  .next <| let s := s.advance t
    s.onOut out fun o => match leastOf o.starts with
      | some x => if x ≤ s.now then o.begin x else o
      | none => o

/-- TRIGOUT_PULSE_END (R97): a pulse ends once its width is over and none that would extend it has begun. -/
def execTrigoutPulseEnd (t : Nat) (out : Fin 4) (s : State) : Host.Outcome State Fault Refusal :=
  .next <| let s := s.advance t
    s.onOut out fun o => if o.high && o.endAt ≤ s.now && outSource o.cfg ≠ 3 && o.starts.all (o.endAt < ·) then { o with high := false } else o

/-- TRIGOUT_LEVEL_CHANGE (R97, R369). -/
def execTrigoutLevelChange (t : Nat) (out : Fin 4) (s : State) : Host.Outcome State Fault Refusal :=
  .next <| let s := s.advance t
    s.onOut out fun o => match o.levels with
      | [] => o
      | (x, level) :: rest => if x ≤ s.now then { o with high := level, levels := rest } else o

end Sys2Proof.Machine
end

