-- ==== Sys2Proof/Machine/CaptureEvents.lean ====
section
/-!
DEFINITION. The events of capture and accumulation (03, 04): the ends of fills and hold-offs, record blocks, complete records, committed additions and complete snapshots.
-/
namespace Sys2Proof.Machine

/-- The fill of a group has ended (R86, R103, R228, R242): its next state, unless it is ending, and the closing that waited for it. -/
def State.fillEnds (s : State) (g : Fin 4) : State :=
  let x := s.groups.get g
  if x.state ≠ .filling || x.ending.isSome || !(x.postEnd.any fun e => e ≤ atCapture x.f s.now) then s
  else
    let s1 := s.setGroupState g (x.stateAt s.now)
    if x.closeAtFill = 0 then s1 else (s1.closeGroup g x.closeAtFill s.now).onGroup g fun x => { x with closeAtFill := 0 }

/-- FILL_COMPLETE (R86). -/
def execFillComplete (t : Nat) (g : Fin 4) (s : State) : Host.Outcome State Fault Refusal :=
  .next <| let s := s.advance t
    (s.decideTo s.now).fillEnds g

/-- HOLDOFF_EXPIRY (R84, R85, R103): the re-arm sample has reached capture. -/
def execHoldoffExpiry (t : Nat) (g : Fin 4) (s : State) : Host.Outcome State Fault Refusal :=
  .next <| let s := s.advance t
    let s := s.decideTo s.now
    let x := s.groups.get g
    if x.state = .holdoff && x.ending.isNone && x.rearm.any (· ≤ atCapture x.f s.now) then s.setGroupState g .armed else s

/-- MEM_DATA_ERROR for a poisoned assembly read (R194), which the record's completion follows. -/
def State.taintRecord (s : State) (g : Fin 4) (taint : Option (Nat × Nat)) : State :=
  match taint with
  | none => s
  | some (port, epa) =>
    let s1 := s.raise { code := 0x0681, obj := port, vals := [epa] }
    s1.onGroup g fun x => x.onCurrent fun r => { r with after := s1.events.seq }

/-- The next block of a segmented record in assembly that can be written (R110): of those not yet written, one whose samples end first. -/
def Record.nextBlock (r : Record) (stop : Nat) : Option Nat :=
  let open' := (List.range (recordBlocks r.decim r.inputs.length (r.count stop))).filter fun j => !r.written.contains j
  open'.foldl (fun a j => match a with
    | none => some j
    | some k => if r.needs stop j < r.needs stop k then some j else some k) none

/-- A block of a segmented record is written (R110, R123, R124, R194). -/
def State.segmentBlock (s : State) (g : Fin 4) (r : Record) (tainted : Bool) : State :=
  match r.stop with
  | none => s
  | some stop => match r.nextBlock stop with
    | none => s
    | some j =>
      if atCapture r.f s.now < r.needs stop j then s
      else
        let x := s.groups.get g
        let b := blockOf (((s.payload r stop).drop (2044 * j)).take 2044) tainted
        (s.onMem fun m => m.put (x.segBase x.f r.segment + 2048 * j) b).onGroup g fun x => x.onCurrent fun r => { r with written := r.written ++ [j] }

/-- Stored samples that a stream block holds (R116). -/
def roundSize (r : Record) : Nat := 2044 / decSize r.decim

/-- The end of a record's stored samples is not beyond a number of them: the index before which it then ends (R118). -/
def Record.endOf (r : Record) (n : Nat) : Nat :=
  let j := jLow r.decim r.trig r.first + n
  if decMode r.decim = 4 then ((r.trig : Int) + 1 - (-((j - 1) * decQ r.decim)) / 2 ^ 24).toNat
  else ((r.trig : Int) + j * decN r.decim).toNat

/-- A data block of a streamed record is written (R116, R118): the next channel of the round under way, once the round's samples have reached capture; without a free position the record ends. -/
def State.streamData (s : State) (g : Fin 4) (r : Record) (tainted : Bool) : State :=
  let x := s.groups.get g
  let done := r.places.length - 1
  let c := max 1 r.inputs.length
  let n := done / c * roundSize r
  let stop := r.stop.getD (2 ^ 80)
  if r.count stop ≤ n || atCapture r.f s.now < r.upTo stop (n + roundSize r) then s
  else if x.streamFree = 0 then
    let s1 := s.streamOverflow g r.seq
    s1.onGroup g fun x => x.onCurrent fun r => r.cut (r.endOf n) 8 s1.events.seq
  else
    let p := s.span r (r.inputs.getD (done % c) 0) stop
    let ws := (List.range (min (roundSize r) (r.count stop - n))).map fun (i : Nat) => p.stored r.decim (jLow r.decim r.trig r.first + n + i)
    s.putStream g (blockOf (ws.flatten.map (leBytes 2)).flatten tainted)

/-- RECORD_BLOCK_WRITTEN (R110, R116, R194): taint is the port and the EPA of a poisoned assembly read that the block derives from. -/
def execRecordBlockWritten (t : Nat) (g : Fin 4) (taint : Option (Nat × Nat)) (s : State) : Host.Outcome State Fault Refusal :=
  .next <| let s := s.advance t
    match (s.groups.get g).current with
    | none => s
    | some r =>
      let s1 := if (s.groups.get g).streaming then s.streamData g r taint.isSome else s.segmentBlock g r taint.isSome
      s1.taintRecord g taint

/-- Every block of a record is written (R110, R116). -/
def Record.allWritten (r : Record) (streaming : Bool) (stop : Nat) : Bool :=
  if streaming then ceilDiv (r.count stop) (roundSize r) * r.inputs.length ≤ r.places.length - 1
  else recordBlocks r.decim r.inputs.length (r.count stop) ≤ r.written.length

/-- A group accumulates (R140, R149). -/
def Acc.active (a : Acc) : Bool := a.mode ≠ 0 && a.placed ≠ .none

/-- A record without additions of its own is judged when it completes (R143, R153): excluded by its flags, or surplus after a STOP boundary. -/
def Acc.judge (a : Acc) (r : Record) (flags : Nat) : Acc :=
  if !a.active || a.nextSeq ≠ r.seq then a
  else if a.excludes flags then
    { a with nextSeq := r.seq + 1, cycle := { a.cycle with excluded := a.cycle.excluded + 1 }, cnt := { a.cnt with excluded := a.cnt.excluded + 1 } }
  else if a.stopped then { a with nextSeq := r.seq + 1, cnt := { a.cnt with surplus := a.cnt.surplus + 1 } }
  else a

/-- The completion of a complete record waits for its place among the others (R203, R205, R212). -/
def State.recordItem (s : State) (g : Fin 4) (r : Record) (stop flags : Nat) (header : Bytes) : Item :=
  let x := s.groups.get g
  let a := s.accs.get g
  let lost := match a.lost with
    | some (seq, ev) => if seq < r.seq then ev else 0
    | none => 0
  { kind := .record, seq := r.seq, time := r.time, index := r.segment
    blocks := if x.streaming then 0 else recordBlocks r.decim r.inputs.length (r.count stop)
    body := header, tableAt := x.tableBase x.f + 64 * r.segment, dataAt := x.segBase x.f r.segment
    opening := r.places.headD 0, closing := r.places.getLastD 0, afterEvent := max (s.recordAfter r stop flags) lost
    waitsSlew := s.clock.suspect.any fun y => y.2.isNone && spanMeets (r.first / r.f) ((stop - 1) / r.f) y
    locked := (s.rings.get g).follows, ready := none }

/-- A record is complete (R110, R116, R121): its final header or its closing block is written, its item joins the others, and the next record is assembled. -/
def State.completeRecord (s : State) (g : Fin 4) (r : Record) (stop : Nat) : State :=
  let x := s.groups.get g
  let flags := s.finalFlags r stop
  let count := r.count stop
  let header := recordHeader g.val r 0x5051 count (min count (preStored r.decim r.trig r.first)) flags
  let s1 := s.onAcc g fun a => a.judge r flags
  let s2 := if x.streaming then (s1.putStream g (blockOf header false)).onGroup g fun x => { x with streamReserved := x.streamReserved - 1 }
    else s1.onMem fun m => m.put (x.tableBase x.f + 64 * r.segment) header
  let s3 := s2.addItem g (s2.recordItem g ((s2.groups.get g).current.getD r) stop flags header)
  let s4 := s3.onGroup g fun x => { x with records := x.records.drop 1 }
  ((s4.placeMissed g).openStream g).tryDone g

/-- The additions of a record are committed, or it has none (R143, R144, R153). -/
def Acc.committed (a : Acc) (r : Record) (flags : Nat) : Bool := !a.active || a.stopped || a.excludes flags || r.seq < a.nextSeq

/-- RECORD_COMPLETE (R110, R144). -/
def execRecordComplete (t : Nat) (g : Fin 4) (s : State) : Host.Outcome State Fault Refusal :=
  .next <| let s := s.advance t
    let s := s.decideTo s.now
    let x := s.groups.get g
    match x.current with
    | none => s
    | some r => match r.stop with
      | none => s
      | some stop =>
        if atCapture r.f s.now < stop || !r.allWritten x.streaming stop || !(s.accs.get g).committed r (s.finalFlags r stop) then s
        else s.completeRecord g r stop

/-- The cycle after one more admitted record (R153, R158). -/
def Cycle.add (c : Cycle) (r : Record) (flags : Nat) (lost : Nat) : Cycle :=
  { c with
    records := c.records + 1, firstSeq := if c.records = 0 then r.seq else c.firstSeq, lastSeq := r.seq, flagsOr := c.flagsOr ||| flags
    setIds := r.setId :: c.setIds, saturated := c.saturated || lost ≠ 0, snapTick := r.tick, uncovered := c.uncovered + 1 }

/-- The count boundary of a cycle (R153, R156): a snapshot where a slot is free; then a new cycle, or the end of the group. -/
def State.countBoundary (s : State) (g : Fin 4) (seq : Nat) : State :=
  let a := s.accs.get g
  let s1 := match a.freeSlot with
    | some k => s.takeSnap g k true false
    | none =>
      let s1 := s.raise { code := 0x0580, obj := g.val, vals := [a.cycle.number] }
      s1.onAcc g fun a => { a with lost := some (seq, s1.events.seq), cnt := { a.cnt with snapSkips := a.cnt.snapSkips + 1 } }
  let s2 := s1.onAcc g fun a => { a with cnt := { a.cnt with cycles := a.cnt.cycles + 1 } }
  if a.restarts then s2.onAcc g fun a => a.newCycle (a.cycle.number + 1)
  else ((s2.onAcc g fun a => { a with stopped := true }).onGroup g fun x => x.windDown .full).tryDone g

/-- An admitted record's additions are committed (R144). -/
def State.commitRecord (s : State) (g : Fin 4) (r : Record) (stop flags : Nat) : State :=
  let v := s.added g r stop
  let s1 := (s.putAcc g v.1).onAcc g fun a =>
    { a with nextSeq := r.seq + 1, cycle := a.cycle.add r flags v.2, cnt := { a.cnt with saturations := a.cnt.saturations + v.2 } }
  let a := s1.accs.get g
  if a.count ≠ 0 ∧ a.cycle.records = a.count then s1.countBoundary g r.seq else s1

/-- ACCUMULATION_COMMIT (R143, R144, R153): the oldest record not yet judged, once all of it has reached capture. -/
def execAccumulationCommit (t : Nat) (g : Fin 4) (s : State) : Host.Outcome State Fault Refusal :=
  .next <| let s := s.advance t
    let s := s.decideTo s.now
    let a := s.accs.get g
    match (s.groups.get g).current with
    | none => s
    | some r => match r.stop with
      | none => s
      | some stop =>
        let flags := s.finalFlags r stop
        if !a.active || a.stopped || a.nextSeq ≠ r.seq || atCapture r.f s.now < stop || a.excludes flags then s
        else s.commitRecord g r stop flags

/-- The item of a complete snapshot (R159, R210). -/
def State.snapItem (s : State) (g : Fin 4) (w : Snap) : Item :=
  { kind := .snapshot, seq := w.lastSeq, time := 0, index := w.slot, blocks := if (s.groups.get g).streaming then 0 else (snapBlocks w).length
    body := w.header, tableAt := slotBase (s.groups.get g) (s.accs.get g) w.slot, dataAt := slotBase (s.groups.get g) (s.accs.get g) w.slot
    opening := 0, closing := 0, afterEvent := if w.poisoned.isEmpty then 0 else s.events.seq, waitsSlew := false, locked := false, ready := none }

/-- SNAPSHOT_COMPLETE (R154, R157, R159): the oldest snapshot in copying is complete, once the record LAST_SEQ is; a group in DONE then releases its store. -/
def execSnapshotComplete (t : Nat) (g : Fin 4) (s : State) : Host.Outcome State Fault Refusal :=
  .next <| let s := s.advance t
    match (s.accs.get g).snaps with
    | [] => s
    | w :: rest =>
      if leAt w.header 24 4 ≠ 0 ∧ (s.groups.get g).records.any (fun r => r.seq ≤ w.lastSeq) then s
      else
        let s1 := s.onMem fun m => m.putBlocks (slotBase (s.groups.get g) (s.accs.get g) w.slot) (snapBlocks w)
        let s2 := (s1.addItem g (s1.snapItem g w)).onAcc g fun a => { a with snaps := rest }
        if (s2.groups.get g).state = .done ∧ rest.isEmpty then s2.onAcc g Acc.release else s2

end Sys2Proof.Machine
end

