-- ==== Sys2Proof/Machine/MemoryEvents.lean ====
section
/-!
DEFINITION. The events of the memory system (05): requests and returns, refresh, stack temperatures, re-initialised stripes, the memory clock, training, initialisation and BAR2.
-/
namespace Sys2Proof.Machine

/-- Array accesses are possible: the stacks are trained and no clock change is under way (R189, R190). -/
def State.memRuns (s : State) : Bool := s.mem.clock.phase = .idle && s.mem.hbm.all Stack.trained

/-- MEM_REQUEST (R173, R175, R176): unit is the EPA in units of 32 bytes, level the fill level that a real-time port reports. -/
def execMemRequest (t : Nat) (port : Fin 23) (unit : Nat) (access : MemAccess) (level : Nat) (s : State) : Host.Outcome State Fault Refusal :=
  if !access.wf then .refused .illFormed
  else .next <| let s := s.advance t
    if s.memRuns then s.memRequest port unit access level else s

/-- A poisoned read of a spilled accumulator poisons its 2 KiB block for the cycle (R194). -/
def State.accPoison (s : State) (unit : Nat) : State :=
  s.each four fun s g =>
    let a := s.accs.get g
    let x := s.groups.get g
    if a.placed = .spilled ∧ a.areaBase ≤ 32 * unit ∧ 32 * unit < a.areaBase + 4 * accCount x a then
      (s.onAcc g fun a => { a with poisoned := insertNat ((32 * unit - a.areaBase) / 2048) a.poisoned }).raise { code := 0x0681, obj := 0x10, vals := [32 * unit] }
    else s

/-- The oldest read of a port returns (R181, R192, R194). -/
def State.readReturn (s : State) (port : Fin 23) (ecc : Ecc) : State :=
  match (s.mem.ports.get port).reads with
  | [] => s
  | unit :: rest =>
    let r := (s.eccReport unit ecc).arrayRead (32 * unit) 32
    let bad := r.1.mem.bad (32 * unit) 32
    let s1 := r.1.onMem fun m => m.onPort port fun p => { p with reads := rest, data := r.2, poisoned := bad }
    if bad && port.val = 0x10 then s1.accPoison unit else s1

/-- MEM_READ_RETURN (R181, R192, R194). -/
def execMemReadReturn (t : Nat) (port : Fin 23) (ecc : Ecc) (s : State) : Host.Outcome State Fault Refusal :=
  .next ((s.advance t).readReturn port ecc)

/-- REFRESH_DUE (R182, R184). -/
def execRefreshDue (t : Nat) (pc : Fin 128) (s : State) : Host.Outcome State Fault Refusal :=
  .next <| let s := s.advance t
    if s.memRuns && (s.mem.pcs.get pc).nextDue ≤ s.now then s.refreshDue pc else s

/-- Pseudo-channels of a stack. -/
def pcsOf (k : Fin 4) : List (Fin 128) := (List.range 32).map fun i => Fin.ofNat 128 (32 * k.val + i)

/-- The refresh cadence of a stack starts anew at its interval (R183). -/
def Memory.restartCadence (m : Memory) (k : Fin 4) (now : Nat) : Memory :=
  (pcsOf k).foldl (fun m i => m.onPc i fun p => { p with nextDue := now + (m.hbm.get k).interval }) m

/-- A pull-in (R185): each pseudo-channel of a stack that owes refreshes issues them all, and counts one. -/
def Memory.pullIn (m : Memory) (k : Fin 4) (now : Nat) : Memory :=
  (pcsOf k).foldl (fun m i =>
    if (m.pcs.get i).debt = 0 then m
    else ((List.range (m.pcs.get i).debt).foldl (fun m _ => m.issueRefresh i now) m).onStack k fun c => { c with cnt := { c.cnt with pullins := c.cnt.pullins + 1 } }) m

/-- A stack's temperature is read (R183, R185): tenths of a degree. -/
def State.stackTemp (s : State) (k : Fin 4) (temp : Int) : State :=
  let was := (s.mem.hbm.get k).hot
  let hot := if was then 820 ≤ temp else 850 ≤ temp
  let s1 := s.onMem fun m => m.onStack k fun c => { c with temp := temp, wasRead := true, hot := hot }
  if was = hot then s1
  else
    let s2 := s1.onMem fun m =>
      let m1 := m.restartCadence k s.now
      if hot then m1.pullIn k s.now else m1
    s2.raise { code := 0x0682, obj := k.val, vals := [if hot then 1 else 0, unsigned 64 (temp / 10)] }

/-- STACK_TEMP_READING (R183, R399): from 105.0 °C on, a thermal trip. -/
def execStackTempReading (t : Nat) (stack : Fin 4) (temp : Int) (s : State) : Host.Outcome State Fault Refusal :=
  s.event t fun s =>
    if s.board.boot = .reset then s
    else
      let s1 := s.stackTemp stack temp
      if 1050 ≤ temp ∧ s1.board.thermWatch then s1.fatal 0x0025 (6 + stack.val) true else s1

/-- NEIGHBOUR_REFRESH_FORCED (R186): a scheduled refresh has waited 256 cycles. -/
def execNeighbourRefreshForced (t : Nat) (pc : Fin 128) (s : State) : Host.Outcome State Fault Refusal :=
  .next <| let s := s.advance t
    match s.mem.forcedNeighbour (s.mem.pcs.get pc) s.now with
    | none => s
    | some n => if s.memRuns then s.onMem fun m => m.issueNeighbour pc n true else s

/-- Stripes are re-initialised for a waiting arm, which then commits (R104, R170, R372). -/
def State.armReinit (s : State) (g : Fin 4) : State :=
  if (s.groups.get g).armWait.isNone || s.board.boot ≠ .run then s
  else
    let r := (s.regrain (s.holds g) (s.groups.get g).grain).armNow g
    r.1.finish (.arm g.val) (Reply.ok r.2)

/-- Stripes are re-initialised for a waiting enable of the sequencer (R170, R297). -/
def State.seqReinit (s : State) : State :=
  if s.stim.enabled && !s.seqRegrains.isEmpty then (s.regrain [(seqBase s.stim.cfg, seqBytes s.stim.cfg)] (seqGrain s.stim.cfg)).seqEnabled else s

/-- STRIPE_REINIT_DONE (R170): for a group, or for the sequencer as number 4. -/
def execStripeReinitDone (t : Nat) (g : Fin 5) (s : State) : Host.Outcome State Fault Refusal :=
  s.event t fun s => if g.val < 4 then s.armReinit (Fin.ofNat 4 g.val) else s.seqReinit

/-- The memory clock has relocked (R190): a queued change is made at once, or training at the new rate begins. -/
def State.relocked (s : State) : State :=
  match s.mem.clock.phase with
  | .relock =>
    if s.now < s.mem.clock.since + 20 * us then s
    else match s.mem.clock.queued with
      | some (rate, ticket) => s.makeQueued rate ticket
      | none => s.startTraining false
  | _ => s

/-- MEM_CLOCK_RELOCKED (R190). -/
def execMemClockRelocked (t : Nat) (s : State) : Host.Outcome State Fault Refusal := s.event t State.relocked

/-- Ticks of a training pass at a RATE code (R189). -/
def passTicks (rate pass : Nat) : Nat :=
  [20, 40, 60, 60].getD pass 60 * ms * 16 / (match rate with
    | 0 => 16
    | 1 => 14
    | 2 => 12
    | _ => 8)

/-- Training is complete (R189, R190): commands that waited are closed; in INIT memory initialisation follows. -/
def State.trained (s : State) : State :=
  let c := s.mem.clock
  let s1 := s.onMem fun m =>
    let m1 := { m with clock := { m.clock with phase := .idle, deferred := [] }, hbm := m.hbm.map fun (k : Stack) => { k with trained := true } }
    four.foldl (fun m k => m.restartCadence k s.now) m1
  let s2 := (s1.finish .memClock (Reply.ok)).each c.deferred fun s ticket => s.memClockDone 0 c.rate ticket
  if s2.board.boot = .init then (if s2.mem.initDone then s2 else s2.onMem fun m => { m with initRunning := true }).bootBit 27 else s2

/-- A training pass has failed on some stacks (R189, R483). -/
def State.trainFailed (s : State) (failed : List (Fin 4)) (pass : Nat) : State :=
  let s1 := s.each failed fun s k => s.raise { code := 0x0684, obj := k.val, vals := [pass] }
  s1.fatal 0x0606 ((failed.head?.map Fin.val).getD 0)

/-- A training pass ends (R189, R190). -/
def State.passDone (s : State) (failed : BitVec 4) : State :=
  match s.mem.clock.phase with
  | .training p =>
    if s.now < s.mem.clock.since + passTicks s.mem.clock.rate p then s
    else if failed ≠ 0 then s.trainFailed (four.filter fun k => flag failed k.val) p
    else match s.mem.clock.queued with
      | some (rate, ticket) => s.makeQueued rate ticket
      | none =>
        if p < 3 then s.onMem fun m => { m with clock := { m.clock with phase := .training (p + 1), since := s.now, lastPass := p + 1 } }
        else s.trained
  | _ => s

/-- TRAINING_PASS_DONE (R189, R190). -/
def execTrainingPassDone (t : Nat) (failed : BitVec 4) (s : State) : Host.Outcome State Fault Refusal := s.event t fun s => s.passDone failed

/-- Memory initialisation ends (R171, R468): every block as initialised, GRAIN 0x4 everywhere, or a boot failure. -/
def State.memInitEnds (s : State) (failed : Option (Fin 4)) : State :=
  if !s.mem.initRunning || s.board.boot ≠ .init || s.mem.clock.phase ≠ .idle then s
  else match failed with
    | some k => s.bootFail 0x0607 k.val
    | none => ((s.onMem fun m => { m with
        cells := [], poison := [], open_ := [], grains := [], initDone := true, initRunning := false }).bootBit 28).noteReady

/-- MEM_INIT_DONE (R468). -/
def execMemInitDone (t : Nat) (failed : Option (Fin 4)) (s : State) : Host.Outcome State Fault Refusal := s.event t fun s => s.memInitEnds failed

/-- PAGE_TIMER_EXPIRY (R179): AUTO rows not accessed for PAGE_TIMER cycles are closed. -/
def execPageTimerExpiry (t : Nat) (pc : Fin 128) (s : State) : Host.Outcome State Fault Refusal :=
  .next <| let s := s.advance t
    s.onMem fun m => m.onPc pc fun p => { p with
      openRows := p.openRows.filter fun (_, _, last, auto) => !auto || s.now < last + cycleTicks m.clock.rate (fld m.cfg 8 8) }

/-- The groups in use whose region or area a write of n bytes at an address reaches, as a mask (R167). -/
def State.spoilMask (s : State) (a n : Nat) : Nat :=
  if s.memBusy ∨ s.memBytes ≤ a then 0
  else maskOf 4 fun k => let g := Fin.ofNat 4 k
    (s.groups.get g).live && (s.holds g).any fun (b, m) => overlaps a n b m

/-- The active STREAM segments that a write of n bytes at an address reaches (R293). -/
def State.stirs (s : State) (a n : Nat) : List Nat :=
  if s.memBusy ∨ s.memBytes ≤ a then []
  else (s.stim.segs.filter fun (i, d) => segKind d = 2 && s.stim.segActive i && overlaps a n (s.stim.entryAddr d 0) (16 * segEntries d)).map Prod.fst

/-- A write through BAR2: into the region or area of a group in use its effect on records is undefined (R167, R191), and so is that on the output of one into an active STREAM segment (R293). -/
def State.bar2Write (s : State) (a : Nat) (d : Bytes) : State :=
  ((s.fwpWrite a d).onMem fun m => { m with spoiled := m.spoiled ||| s.spoilMask a d.length }).onStim fun q => { q with stirred := q.stirred ++ s.stirs a d.length }

/-- An access through BAR2 (R167, R191). -/
def State.bar2Access (s : State) (offset : Nat) (access : Bar2Op) : State :=
  match access with
  | .read n => let r := s.fwpRead (s.mem.bar2 + offset) n
    r.1.bar2Returns r.2
  | .write d => s.bar2Write (s.mem.bar2 + offset) d

/-- BAR2_ACCESS (R167, R191): within the window of 256 MiB, while the link is up. -/
def execBar2Access (t : Nat) (offset : Nat) (access : Bar2Op) (s : State) : Host.Outcome State Fault Refusal :=
  if !access.wf offset then .refused .illFormed
  else .next <| let s := s.advance t
    if s.board.boot = .reset then s else s.bar2Access offset access

end Sys2Proof.Machine
end

