-- ==== Sys2Proof/Machine/ReadoutEvents.lean ====
section
/-!
DEFINITION. The events of readout (06): descriptors taken, blocks read, completions posted, and the timers of rings.
-/
namespace Sys2Proof.Machine

/-- DESCRIPTOR_TAKE (R201, R202): the 32 bytes the port reads at its ring's head. -/
def execDescriptorTake (t : Nat) (g : Fin 4) (desc : Bytes) (s : State) : Host.Outcome State Fault Refusal :=
  if desc.length ≠ 32 then .refused .illFormed else .next ((s.advance t).takeDescriptor g desc)

/-- READOUT_BLOCK_READ (R193, R211). -/
def execReadoutBlockRead (t : Nat) (g : Fin 4) (damaged : Option Bytes) (s : State) : Host.Outcome State Fault Refusal :=
  if damaged.any (·.length ≠ 2048) then .refused .illFormed else .next ((s.advance t).readBlock g damaged)

/-- A completion is posted (R212); the reply of a SYS_RESET once written lets the engine enter RESET (R360). -/
def State.postCompletion (s : State) (ring : Fin 5) (lane : CplLane) : State :=
  if ring.val < 4 then s.postLane (Fin.ofNat 4 ring.val) lane else (s.postRing4 lane).applyReset

/-- COMPLETION_POST (R212, R213, R214). -/
def execCompletionPost (t : Nat) (ring : Fin 5) (lane : CplLane) (s : State) : Host.Outcome State Fault Refusal :=
  s.event t fun s => s.postCompletion ring lane

/-- STREAM_FLUSH_TIMEOUT (R204). -/
def execStreamFlushTimeout (t : Nat) (g : Fin 4) (s : State) : Host.Outcome State Fault Refusal :=
  .next ((s.advance t).flushStream g)

/-- IRQ_TIMER_EXPIRY (R217). -/
def execIrqTimerExpiry (t : Nat) (ring : Fin 5) (s : State) : Host.Outcome State Fault Refusal :=
  .next ((s.advance t).irqTimerDue ring)

end Sys2Proof.Machine
end

