-- ==== Sys2Proof/Machine/CalEvents.lean ====
section
/-!
DEFINITION. The events of calibration (07): the phases of a foreground run, its stops, changeovers, gathers and the quads' temperatures.
-/
namespace Sys2Proof.Machine

/-- The run in progress, when it is in a phase of a quad and some ticks of that quad's run, or of that phase, have passed. -/
def State.runIn (s : State) (q : Fin 4) (p : CalPhase) (after : Nat) : Option (CalRun × Nat) :=
  s.cal.run.bind fun r => r.cur.bind fun (c, ph, start) => if c = q.val ∧ ph = p ∧ start + after ≤ s.now then some (r, start) else none

/-- The run goes to another phase of the quad; start is the tick from which that phase's times are measured. -/
def State.runTo (s : State) (r : CalRun) (q : Fin 4) (p : CalPhase) (start : Nat) : State :=
  s.onCal fun c => { c with run := some { r with cur := some (q.val, p, start) } }

/-- CAL_DRAIN_DONE (R228, R229). -/
def execCalDrainDone (t : Nat) (s : State) : Host.Outcome State Fault Refusal :=
  .next <| let s := s.advance t
    match s.cal.run with
    | some r =>
      if r.drain.isNone || r.ended.isSome || s.draining r.mask then s
      else (s.onCal fun c => { c with run := some { r with drain := none } }).nextQuad
    | none => s

/-- CAL_DRAIN_TIMEOUT (R228): 100 ms of draining. -/
def execCalDrainTimeout (t : Nat) (s : State) : Host.Outcome State Fault Refusal :=
  .next <| let s := s.advance t
    match s.cal.run with
    | some r => if r.ended.isNone && r.drain.any (· + 100 * ms ≤ s.now) && s.draining r.mask then s.endDrain r else s
    | none => s

/-- An input's mean square in nV² that lies above −20 dBFS of the 125 mVpp range (R230): a full-scale sine has an rms level of 62.5 mV / √2. -/
def loud (square : Nat) : Bool := 19531250000000 < square

/-- LEAKAGE ends (R229, R230): squares are the mean squares of the quad's four inputs; those the fusion mode disconnects do not count. -/
def State.leakageEnds (s : State) (q : Fin 4) (squares : List Nat) : State :=
  match s.runIn q .leakage ms with
  | none => s
  | some (r, start) =>
    let active := (ofQuad q).zipIdx.any fun (i, j) => feeds (s.quads.get q).fusion i ≠ [] && loud (squares.getD j 0)
    if active && !r.proceed then (s.onCal fun c => { c with run := some (r.outcome q.val 0x0803) }).nextQuad
    else (s.leaveConnect q .isolate).runTo { r with leaky := if active then r.leaky ||| 2 ^ q.val else r.leaky } q .isolating start

/-- CAL_LEAKAGE_END (R230). -/
def execCalLeakageEnd (t : Nat) (q : Fin 4) (squares : List Nat) (s : State) : Host.Outcome State Fault Refusal :=
  if squares.length ≠ 4 then .refused .illFormed else .next ((s.advance t).leakageEnds q squares)

/-- CAL_ISOLATE_END (R229): 1.5 ms into the quad's run. -/
def execCalIsolateEnd (t : Nat) (q : Fin 4) (s : State) : Host.Outcome State Fault Refusal :=
  .next <| let s := s.advance t
    match s.runIn q .isolating (ms + ms / 2) with
    | none => s
    | some (r, start) => (s.onQuad q fun k => { k with switch := .source }).runTo r q .sourcing start

/-- CAL_SOURCE_SETTLED (R229): 2 ms. -/
def execCalSourceSettled (t : Nat) (q : Fin 4) (s : State) : Host.Outcome State Fault Refusal :=
  .next <| let s := s.advance t
    match s.runIn q .sourcing (2 * ms) with
    | none => s
    | some (r, start) => s.runTo r q .runA start

/-- CALDC as measured, in nV, differs from the declared µV by more than 2 % (R231). -/
def caldcOff (uv : Nat) (caldc : Int) : Bool := uv ≠ 0 && 1000 * uv < 50 * (caldc - 1000 * uv).natAbs

/-- CAL_REF_TRANSFER_END (R231, R234): caldc is CALDC as measured, in nV. -/
def execCalRefTransferEnd (t : Nat) (q : Fin 4) (caldc : Int) (s : State) : Host.Outcome State Fault Refusal :=
  .next <| let s := s.advance t
    match s.runIn q .runA (7 * ms) with
    | none => s
    | some (r, _) => if caldcOff (calDc s.cal.cfg) caldc then s.runTo (r.outcome q.val 0x0804) q .stopping s.now else s

/-- CAL_RUN_A_END (R229): 59 ms. -/
def execCalRunAEnd (t : Nat) (q : Fin 4) (s : State) : Host.Outcome State Fault Refusal :=
  .next <| let s := s.advance t
    match s.runIn q .runA (59 * ms) with
    | none => s
    | some (r, start) => s.runTo r q .runB start

/-- CAL_RUN_B_END (R232): 116 ms; agree says whether RUN_A and RUN_B agree within the tolerances. -/
def execCalRunBEnd (t : Nat) (q : Fin 4) (agree : Bool) (s : State) : Host.Outcome State Fault Refusal :=
  .next <| let s := s.advance t
    match s.runIn q .runB (116 * ms) with
    | none => s
    | some (r, start) => s.runTo (if agree then r else r.outcome q.val 0x0806) q .compare start

/-- A measured point is within the correctable limits of banks (R233). -/
def pointOk (p : Bytes) : Bool := (List.range 4).all fun j => bankOk sinTable (coefOf (bankRecord p j))

/-- COMPARE ends (R233, R229): the point is kept where it is within the limits, and the switch returns. -/
def State.compareEnds (s : State) (q : Fin 4) (point : Bytes) : State :=
  match s.runIn q .compare (118 * ms) with
  | none => s
  | some (r, start) =>
    let r1 := if r.outcomes.getD q.val 0xFFFF ≠ 0xFFFF then r
      else if pointOk point then { r with points := r.points ++ [(q.val, point)] }
      else r.outcome q.val 0x0807
    (s.returnSwitch q (start + 120 * ms - s.now)).runTo r1 q .restore start

/-- CAL_COMPARE_END (R233): point is the mean result as a point of R247. -/
def execCalCompareEnd (t : Nat) (q : Fin 4) (point : Bytes) (s : State) : Host.Outcome State Fault Refusal :=
  if point.length ≠ pointBytes then .refused .illFormed else .next ((s.advance t).compareEnds q point)

/-- CAL_RESTORE_END (R229, R235): 120 ms; the quad has succeeded where nothing else was found. -/
def execCalRestoreEnd (t : Nat) (q : Fin 4) (s : State) : Host.Outcome State Fault Refusal :=
  .next <| let s := s.advance t
    match s.runIn q .restore (120 * ms) with
    | none => s
    | some (r, _) =>
      let r1 := if r.outcomes.getD q.val 0xFFFF = 0xFFFF then r.outcome q.val 0 else r
      (s.onCal fun c => { c with run := some r1 }).nextQuad

/-- CAL_STOP_DONE (R234): a switch out of CONNECT returns at once, and held words go on for 2 ms. -/
def execCalStopDone (t : Nat) (q : Fin 4) (s : State) : Host.Outcome State Fault Refusal :=
  .next <| let s := s.advance t
    match s.runIn q .stopping 0 with
    | none => s
    | some (r, _) =>
      let s1 := s.returnSwitch q (2 * ms)
      if (s1.quads.get q).held.any fun (_, e) => e.all (s1.now < ·) then s1.runTo r q .stopHeld s1.now else s1.nextQuad

/-- CAL_HELD_WORDS_END (R234). -/
def execCalHeldWordsEnd (t : Nat) (q : Fin 4) (s : State) : Host.Outcome State Fault Refusal :=
  .next <| let s := s.advance t
    match s.runIn q .stopHeld 0 with
    | none => s
    | some _ => if (s.quads.get q).held.any fun (_, e) => e.all (s.now < ·) then s else s.nextQuad

/-- CAL_RESULTS_FORMED (R235). -/
def execCalResultsFormed (t : Nat) (s : State) : Host.Outcome State Fault Refusal :=
  s.event t fun s => match s.cal.run with
    | some r => if r.ended.isSome then s.formResults r else s
    | none => s

/-- HELD_TRIGGER_RESUME (R238): 64 ticks after a held interval its quad's units evaluate samples again, in the initial state. -/
def execHeldTriggerResume (t : Nat) (q : Fin 4) (s : State) : Host.Outcome State Fault Refusal :=
  .next <| let s := s.advance t
    s.onQuad q fun k => match k.held with
      | some (a, some e) => if e + 64 ≤ s.now then { k with held := none, heldPast := k.heldPast ++ [(a, e)] } else k
      | _ => k

/-- SWITCH_TIMEOUT (R234, R236, R412): 125 ms out of CONNECT. -/
def execSwitchTimeout (t : Nat) (q : Fin 4) (s : State) : Host.Outcome State Fault Refusal :=
  .next <| let s := s.advance t
    if (s.quads.get q).switch = .connect || s.outFor q < 125 * ms then s else (s.returnSwitch q (2 * ms)).abortRun

/-- The present tick is a beat boundary of running sample clocks (R9, R33). -/
def State.atBeat (s : State) : Bool := s.clock.drive ≠ .stopped && s.clock.t0.isSome && s.beatPhase s.now = 0

/-- CHANGEOVER (R240, R241, R244): the joint set where it can enter, otherwise the quad's own change. -/
def execChangeover (t : Nat) (q : Fin 4) (s : State) : Host.Outcome State Fault Refusal :=
  .next <| let s := s.advance t
    let s := s.decideTo s.now
    if !s.atBeat then s else if s.setReady then s.enterSet s.now else if s.bgReady q then s.enterBg q s.now else s

/-- GATHER_REOPEN (R228, R242): the re-arm sample of a reopened group has reached capture. -/
def execGatherReopen (t : Nat) (g : Fin 4) (s : State) : Host.Outcome State Fault Refusal :=
  .next <| let s := s.advance t
    let s := s.decideTo s.now
    let x := s.groups.get g
    if x.reopen.any (· ≤ atCapture x.f s.now) then s.onGroup g fun x => { x with closed := 0, reopen := none } else s

/-- BG_GATHER_DUE (R242, R243). -/
def execBgGatherDue (t : Nat) (q : Fin 4) (s : State) : Host.Outcome State Fault Refusal :=
  .next <| let s := s.advance t
    let k := s.quads.get q
    if bgGathers s.cal.cfg && k.bgPending && !s.runHolds q && k.lastChangeover + bgPeriod s.cal.cfg * ms ≤ s.now then s.openGather q else s

/-- QUAD_TEMP_READING (R243, R249): in 1/16 °C. -/
def execQuadTempReading (t : Nat) (q : Fin 4) (temp : Int) (s : State) : Host.Outcome State Fault Refusal :=
  .next <| let s := s.advance t
    if (s.quads.get q).control then (s.onQuad q fun k => { k with temp := temp }).judgeBg q else s

end Sys2Proof.Machine
end

