-- ==== Sys2Proof/Machine/StimEvents.lean ====
section
/-!
DEFINITION. The events of the stimulus sequencer (09), each at or after its DAC instant, and the end of a segment's read-back.
-/
namespace Sys2Proof.Machine

/-- STIM_START_INSTANT (R299). -/
def execStimStartInstant (t : Nat) (ch : Fin 2) (s : State) : Host.Outcome State Fault Refusal := .next ((s.advance t).startInstant ch)

/-- STIM_DECISION_POINT (R301, R305). -/
def execStimDecisionPoint (t : Nat) (ch : Fin 2) (s : State) : Host.Outcome State Fault Refusal := .next ((s.advance t).decisionPoint ch)

/-- STIM_BOUNDARY (R296, R305). -/
def execStimBoundary (t : Nat) (ch : Fin 2) (s : State) : Host.Outcome State Fault Refusal := .next ((s.advance t).boundary ch)

/-- STIM_ENTRY_EFFECT (R291, R306). -/
def execStimEntryEffect (t : Nat) (ch : Fin 2) (starved : Bool) (s : State) : Host.Outcome State Fault Refusal :=
  .next ((s.advance t).entryEffect ch starved)

/-- STIM_STOP_RAMP_START (R300). -/
def execStimStopRampStart (t : Nat) (ch : Fin 2) (s : State) : Host.Outcome State Fault Refusal := .next ((s.advance t).stopRampStart ch)

/-- STIM_STOP_RAMP_END (R300). -/
def execStimStopRampEnd (t : Nat) (ch : Fin 2) (s : State) : Host.Outcome State Fault Refusal := .next ((s.advance t).stopRampEnd ch)

/-- STIM_MUTE_RAMP_END (R305). -/
def execStimMuteRampEnd (t : Nat) (ch : Fin 2) (s : State) : Host.Outcome State Fault Refusal := .next ((s.advance t).muteRampEnd ch)

/-- SEGMENT_READBACK_DONE (R294). -/
def execSegmentReadbackDone (t : Nat) (s : State) : Host.Outcome State Fault Refusal := s.event t State.readbackDone

end Sys2Proof.Machine
end

