-- ==== Sys2Proof/Machine/MonitorEvents.lean ====
section
/-!
DEFINITION. The events of the monitor (10): slots, the reference, and the rails.
-/
namespace Sys2Proof.Machine

/-- A slot of the monitor ends (R316, R399): a die sensor's second qualifying reading is a thermal trip. -/
def State.monSlot (s : State) (slot : Fin 16) (code : Nat) (ovr : Bool) : State :=
  let r := s.slotEnd slot code ovr
  match r.2 with
  | some sensor => r.1.fatal 0x0025 sensor true
  | none => r.1

/-- MON_CONVERSION (R316, R320, R321). -/
def execMonConversion (t : Nat) (slot : Fin 16) (code : BitVec 12) (ovr : Bool) (s : State) : Host.Outcome State Fault Refusal :=
  s.event t fun s => if s.board.pwrOk then s.monSlot slot code.toNat ovr else s

/-- MON_REF_SETTLED (R314). -/
def execMonRefSettled (t : Nat) (s : State) : Host.Outcome State Fault Refusal :=
  .next <| let s := s.advance t
    if s.board.pwrOk ∧ s.mon.settled = false then s.onMon fun m => { m with settled := true, roseAt := s.now } else s

/-- RAIL_FAULT (R460, R483): rail is the monitor's number less 10. -/
def execRailFault (t : Nat) (rail : Fin 12) (s : State) : Host.Outcome State Fault Refusal :=
  s.event t fun s => if s.board.pwrOk then s.fatal 0x0026 rail.val else s

end Sys2Proof.Machine
end

