-- ==== Sys2Proof/Machine/BoardEvents.lean ====
section
/-!
DEFINITION. The events of power-up, boot and the board's interfaces (16, 18): PWR_OK, PERST_N, the self-test, the steps of INIT and their time limits, SMBus and the test access port.
-/
namespace Sys2Proof.Machine

/-- PWR_OK_RISE (R461, R506): the straps are sampled. -/
def execPwrOkRise (t : Nat) (straps : BitVec 2) (s : State) : Host.Outcome State Fault Refusal :=
  .next <| let s := s.advance t
    if s.board.pwrOk then s
    else (s.onBoard fun b => { b with pwrOk := true, straps := straps.toNat, strapPins := straps.toNat }).leaveReset

/-- PWR_OK_FALL (R460, R507, R511): the slave releases its lines, and the test access port is held in Test-Logic-Reset. -/
def execPwrOkFall (t : Nat) (s : State) : Host.Outcome State Fault Refusal :=
  .next <| let s := s.advance t
    if !s.board.pwrOk then s else s.toReset.onBoard fun b => { b with pwrOk := false, smb := none, tap := .idcode }

/-- PERST_N_ASSERT (R461). -/
def execPerstNAssert (t : Nat) (s : State) : Host.Outcome State Fault Refusal :=
  .next <| let s := s.advance t
    if !s.board.perstReleased then s else s.toReset.onBoard fun b => { b with perstReleased := false }

/-- PERST_N_RELEASE (R461, R512): an instruction that takes the pins is replaced by BYPASS. -/
def execPerstNRelease (t : Nat) (s : State) : Host.Outcome State Fault Refusal :=
  .next <| let s := s.advance t
    (s.onBoard fun b => { b with perstReleased := true, tap := if b.tap.takesPins then .bypass else b.tap }).leaveReset

/-- XO_IN was found present by the self-test (R462 step 4). -/
def State.xoSeen (s : State) : State := s.onClock fun c => { c with xoPresent := true }

/-- The control domains of quads are powered (R462 step 5). -/
def State.controlOn (s : State) (n : Nat) : State :=
  s.each four fun s q => if q.val < n then s.onQuad q fun k => { k with control := true } else s

/-- The ROM self-test ends (R462, R463, R478). -/
def State.selftest (s : State) (r : SelfTest) : State :=
  match r with
  | .passed => ((((s.xoSeen).controlOn 4).onBoard fun b => { b with boot := .awaitImage, thermWatch := true }).bootBit 23)
  | .rom => s.bootFail 0x0C06 0xF
  | .sram => s.bootFail 0x0C06 0xF
  | .rail i => s.bootFail 0x0026 i.val
  | .xo => s.bootFail 0x0107 0xF
  | .quad q => ((s.xoSeen).controlOn q.val).bootFail 0x0026 q.val
  | .thermal k => (((s.xoSeen).controlOn 4).onBoard fun b => { b with thermWatch := true }).fatal 0x0025 k.val true

/-- SELFTEST_DONE (R462, R331): a bootstrap packet held in HEARTWOOD is taken. -/
def execSelftestDone (t : Nat) (result : SelfTest) (s : State) : Host.Outcome State Fault Refusal :=
  s.event t fun s => if s.board.boot = .heartwood then (s.selftest result).takeHeldBoot else s

/-- LOCK_TIMEOUT (R466, R479): 1 s, or 10 s with REF_SOURCE UP, of a cold lock in INIT with no loop driving. -/
def execLockTimeout (t : Nat) (s : State) : Host.Outcome State Fault Refusal :=
  s.event t fun s =>
    let c := s.clock
    let limit := if planSource c.plan = 2 then 10 * second else second
    if s.board.boot = .init ∧ c.drive = .stopped ∧ (c.loop = .searching ∨ c.loop = .acquiring) ∧ c.lockSince + limit ≤ s.now then
      s.bootFail 0x0106 0xF else s

/-- QUAD_START_TIMEOUT (R467): 100 ms from the common start. -/
def execQuadStartTimeout (t : Nat) (q : Fin 4) (s : State) : Host.Outcome State Fault Refusal :=
  s.event t fun s =>
    let k := (s.quads.get q).state
    if s.board.boot = .init ∧ s.clock.t0.isSome ∧ k ≠ .ready ∧ s.clock.firstDelivered + 100 * ms ≤ s.now then s.bootFail 0x0206 q.val else s

/-- The self-calibration begins (R469, R470): with the reference value and the base set that stand now. -/
def State.selfStart (s : State) : State :=
  s.onCal fun c => { c with self := some {
    phase := .leakage, since := s.now, caldc := calDc c.cfg, base := match c.pending with
      | some p => some p
      | none => c.active
    active := 0, windows := 0, outcomes := List.replicate 4 0xFFFF, points := [] } }

/-- The self-calibration can begin (R469, R479). -/
def State.selfReady (s : State) : Bool :=
  s.board.boot = .init && s.sapwood && flag s.board.bootStatus 26 && flag s.board.bootStatus 28 && !flag s.board.bootStatus 29 &&
    s.cal.self.isNone && s.atBeat && s.banks.all fun (b : Bank) => b.link.up

/-- SELF_CAL_START (R469). -/
def execSelfCalStart (t : Nat) (s : State) : Host.Outcome State Fault Refusal :=
  .next <| let s := s.advance t
    if s.selfReady then s.selfStart else s

/-- Kind of the set in force as INIT_DONE reports it (R472, R475). -/
def selfKind (caldc : Nat) (base set : Bool) : Nat := if caldc = 0 then (if base then 1 else 2) else if base || set then 0 else 2

/-- The self-calibration ends with the outcomes of its quads (R471, R472). -/
def State.selfEnds (s : State) (c : SelfCal) (outcomes : List Nat) (points : List (Nat × Bytes)) : State :=
  let good := (List.range 4).filter fun q => outcomes.getD q 0xFFFF = 0
  let set := s.makeSet c.base (points.filter fun (q, _) => good.contains q) 0 c.caldc
  let s1 := (s.onCal fun k => { k with
    self := none, selfResult := some { outcomes := outcomes, kind := selfKind c.caldc c.base.isSome set.isSome, windows := c.windows, at_ := s.now } }).countCal good
  let s2 := (s1.bootBit 29).noteReady
  match set with
  | some b => s2.setPends b
  | none => s2

/-- A CONVERGE window ends (R470, R472): the next window, MEASURE, the end, or a boot failure. -/
def State.convergeEnds (s : State) (c : SelfCal) (n : Nat) : State :=
  let c1 := { c with windows := n, since := s.now }
  let goTo (p : SelfPhase) : State := s.onCal fun k => { k with self := some { c1 with phase := p } }
  match sixteen.find? fun b => !(s.banks.get b).converged with
  | some b => if n < 4 then goTo (.converge (n + 1)) else s.bootFail 0x080C b.val
  | none => if n < 2 then goTo (.converge (n + 1)) else if c.caldc = 0 ∧ c.base.isNone then s.selfEnds c1 (List.replicate 4 0xFFFF) [] else goTo .measure

/-- The outcome of a quad in MEASURE (R470, R471, R479): an active input and a lost reference come before what was measured, and limits after it. -/
def SelfCal.outcomeOf (c : SelfCal) (q given : Nat) (point : Bytes) : Nat :=
  let before := c.outcomes.getD q 0xFFFF
  if bit c.active q then 0x0803 else if before ≠ 0xFFFF then before else if given = 0 && !pointOk point then 0x0807 else given

/-- A phase of the self-calibration ends (R470). -/
def State.selfPhaseEnds (s : State) (res : SelfPhaseEnd) : State :=
  match s.cal.self with
  | none => s
  | some c => match c.phase, res with
    | .leakage, .leakage active =>
      if s.now < c.since + ms then s
      else s.onCal fun k => { k with self := some { c with phase := .converge 1, since := s.now, active := active.toNat } }
    | .converge n, .converge => if s.now < c.since + 118 * ms then s else s.convergeEnds c n
    | .measure, .measure outcomes points =>
      if s.now < c.since + 119 * ms then s
      else
        let os := (List.range 4).map fun q => c.outcomeOf q ((outcomes.map BitVec.toNat).getD q 0xFFFF) (points.getD q [])
        s.selfEnds c os (points.zipIdx.map fun (p, q) => (q, p))
    | _, _ => s

/-- SELF_CAL_PHASE_END (R470): the points of MEASURE have the form of R247. -/
def execSelfCalPhaseEnd (t : Nat) (res : SelfPhaseEnd) (s : State) : Host.Outcome State Fault Refusal :=
  if !res.wf then .refused .illFormed else s.event t fun s => s.selfPhaseEnds res

/-- READY_CALL_TIMEOUT (R473): 5 s from SELF_CAL, or from QUADS and MEM_INIT where no self-calibration runs. -/
def execReadyCallTimeout (t : Nat) (s : State) : Host.Outcome State Fault Refusal :=
  s.event t fun s =>
    if s.board.boot = .init && flag s.board.bootStatus 26 && flag s.board.bootStatus 28 && s.cal.self.isNone && s.board.readyFrom + 5 * second ≤ s.now then
      s.bootFail 0x0C07 0xF else s

/-- SMB_IDENT (R508): PART, ORDERING and STEPPING as SYS_IDENTIFY gives them. -/
def execSmbIdent (t : Nat) (s : State) : Host.Outcome State Fault Refusal :=
  .next <| let s := s.advance t
    s.smbRead 0x00 (s.identity.take 8)

/-- SMB_ENGINE (R508). -/
def execSmbEngine (t : Nat) (s : State) : Host.Outcome State Fault Refusal :=
  .next <| let s := s.advance t
    s.smbRead 0x01 (leBytes 4 s.engineWord)

/-- SMB_BOOT (R508). -/
def execSmbBoot (t : Nat) (s : State) : Host.Outcome State Fault Refusal :=
  .next <| let s := s.advance t
    s.smbRead 0x02 (leBytes 4 s.board.bootStatus.toNat)

/-- SMB_PINS (R509). -/
def execSmbPins (t : Nat) (s : State) : Host.Outcome State Fault Refusal :=
  .next <| let s := s.advance t
    s.smbRead 0x03 (leBytes 1 s.pins)

/-- SMB_TEMPS (R508). -/
def execSmbTemps (t : Nat) (s : State) : Host.Outcome State Fault Refusal :=
  .next <| let s := s.advance t
    s.smbRead 0x04 s.smbTemps

/-- SMB_UNIQUE_ID (R508). -/
def execSmbUniqueId (t : Nat) (s : State) : Host.Outcome State Fault Refusal :=
  .next <| let s := s.advance t
    s.smbRead 0x05 (leBytes 8 Config.uniqueId.toNat)

/-- SMB_EVENTS (R508). -/
def execSmbEvents (t : Nat) (s : State) : Host.Outcome State Fault Refusal :=
  .next <| let s := s.advance t
    s.smbRead 0x06 (leBytes 4 s.eventStatus)

/-- SMB_WRITE_REJECT (R508): not acknowledged. -/
def execSmbWriteReject (t : Nat) (s : State) : Host.Outcome State Fault Refusal :=
  .next ((s.advance t).onBoard fun b => { b with smb := some { code := 0xFF, acked := false, data := [] } })

/-- The slave answers the Alert Response Address while it drives SMB_ALERT_N, and releases it (R507, R510). -/
def State.alertResponse (s : State) : State :=
  if s.board.alert && s.board.pwrOk then (s.smbRead 0x0C (leBytes 1 s.smbAddress)).onBoard fun b => { b with alert := false }
  else s.onBoard fun b => { b with smb := some { code := 0x0C, acked := false, data := [] } }

/-- SMB_ALERT_RESPONSE (R510). -/
def execSmbAlertResponse (t : Nat) (s : State) : Host.Outcome State Fault Refusal := .next (s.advance t).alertResponse

/-- SMBUS_TIMEOUT (R507): the slave releases the bus; the transaction is lost. -/
def execSmbusTimeout (t : Nat) (s : State) : Host.Outcome State Fault Refusal :=
  .next ((s.advance t).onBoard fun b => { b with smb := none })

/-- TAP_RESET (R511): Test-Logic-Reset, with IDCODE selected. -/
def execTapReset (t : Nat) (s : State) : Host.Outcome State Fault Refusal :=
  .next ((s.advance t).onBoard fun b => { b with tap := .idcode })

/-- EXTEST (R512). -/
def execExtest (t : Nat) (cells : BitVec 151) (s : State) : Host.Outcome State Fault Refusal :=
  .next ((s.advance t).tapLoad .extest (TapInstr.takesPins .extest) (some cells))

/-- IDCODE (R511, R512). -/
def execIdcode (t : Nat) (s : State) : Host.Outcome State Fault Refusal :=
  .next ((s.advance t).tapLoad .idcode (TapInstr.takesPins .idcode) none)

/-- SAMPLE/PRELOAD (R512): the pins as captured, preloaded into the boundary register. -/
def execSamplePreload (t : Nat) (pins : BitVec 151) (s : State) : Host.Outcome State Fault Refusal :=
  .next ((s.advance t).tapLoad .samplePreload (TapInstr.takesPins .samplePreload) (some pins))

/-- CLAMP (R512). -/
def execClamp (t : Nat) (s : State) : Host.Outcome State Fault Refusal :=
  .next ((s.advance t).tapLoad .clamp (TapInstr.takesPins .clamp) none)

/-- HIGHZ (R512). -/
def execHighz (t : Nat) (s : State) : Host.Outcome State Fault Refusal :=
  .next ((s.advance t).tapLoad .highz (TapInstr.takesPins .highz) none)

/-- EXTEST_PULSE (R512). -/
def execExtestPulse (t : Nat) (cells : BitVec 151) (s : State) : Host.Outcome State Fault Refusal :=
  .next ((s.advance t).tapLoad .extestPulse (TapInstr.takesPins .extestPulse) (some cells))

/-- EXTEST_TRAIN (R512). -/
def execExtestTrain (t : Nat) (cells : BitVec 151) (s : State) : Host.Outcome State Fault Refusal :=
  .next ((s.advance t).tapLoad .extestTrain (TapInstr.takesPins .extestTrain) (some cells))

/-- BYPASS (R512). -/
def execBypass (t : Nat) (s : State) : Host.Outcome State Fault Refusal :=
  .next ((s.advance t).tapLoad .bypass (TapInstr.takesPins .bypass) none)

/-- IMAGE_AUTH_DONE (R401): ok is the outcome of the image's hashes and of its signature. -/
def execImageAuthDone (t : Nat) (ok : Bool) (s : State) : Host.Outcome State Fault Refusal :=
  s.event t fun s => s.authDone ok

end Sys2Proof.Machine
end

