-- ==== Sys2Proof/Machine/CalCommands.lean ====
section
/-!
DEFINITION. The commands of the calibration family: each row is a packet with its opcode and payload (12).
-/
namespace Sys2Proof.Machine

/-- CAL_CONFIG (R226), opcode 0x0801. -/
def execCalConfig (h : Hdr) (cfg : BitVec 64) (s : State) : Host.Outcome State Fault Refusal :=
  .next (s.command h 0x0801 (leBytes 8 cfg.toNat))

/-- CAL_CONFIG_QUERY (R353), query twin 0x0881. -/
def execCalConfigQuery (h : Hdr) (s : State) : Host.Outcome State Fault Refusal :=
  .next (s.command h 0x0881 [])

/-- CAL_RUN (R227), opcode 0x0802. -/
def execCalRun (h : Hdr) (word : BitVec 32) (s : State) : Host.Outcome State Fault Refusal :=
  .next (s.command h 0x0802 (leBytes 4 word.toNat))

/-- CAL_ABORT (R234), opcode 0x0803. -/
def execCalAbort (h : Hdr) (s : State) : Host.Outcome State Fault Refusal :=
  .next (s.command h 0x0803 [])

/-- CAL_SET_UPLOAD (R250), opcode 0x0804. -/
def execCalSetUpload (h : Hdr) (offset : BitVec 32) (data : Bytes) (s : State) : Host.Outcome State Fault Refusal :=
  .next (s.command h 0x0804 (leBytes 4 offset.toNat ++ data))

/-- CAL_SET_COMMIT (R250), opcode 0x0805. -/
def execCalSetCommit (h : Hdr) (s : State) : Host.Outcome State Fault Refusal :=
  .next (s.command h 0x0805 [])

/-- CAL_SET_DOWNLOAD (R251), opcode 0x0806. -/
def execCalSetDownload (h : Hdr) (word : BitVec 32) (offset : BitVec 32) (length : BitVec 32) (s : State) : Host.Outcome State Fault Refusal :=
  .next (s.command h 0x0806 (leBytes 4 word.toNat ++ leBytes 4 offset.toNat ++ leBytes 4 length.toNat))

/-- CAL_SLICE_QUERY (R251), opcode 0x0807. -/
def execCalSliceQuery (h : Hdr) (select : BitVec 32) (s : State) : Host.Outcome State Fault Refusal :=
  .next (s.command h 0x0807 (leBytes 4 select.toNat))

end Sys2Proof.Machine
end

