-- ==== Sys2Proof/Machine/CaptureCommands.lean ====
section
/-!
DEFINITION. The commands of the capture family: each row is a packet with its opcode and payload (12).
-/
namespace Sys2Proof.Machine

/-- CAPTURE_CONFIG (R101), opcode 0x0401. -/
def execCaptureConfig (h : Hdr) (select : BitVec 32) (cfg : BitVec 384) (s : State) : Host.Outcome State Fault Refusal :=
  .next (s.command h 0x0401 (leBytes 4 select.toNat ++ leBytes 48 cfg.toNat))

/-- CAPTURE_CONFIG_QUERY (R353), query twin 0x0481. -/
def execCaptureConfigQuery (h : Hdr) (select : BitVec 32) (s : State) : Host.Outcome State Fault Refusal :=
  .next (s.command h 0x0481 (leBytes 4 select.toNat))

/-- DECIM_CONFIG (R130), opcode 0x0402. -/
def execDecimConfig (h : Hdr) (select : BitVec 32) (cfg : BitVec 128) (s : State) : Host.Outcome State Fault Refusal :=
  .next (s.command h 0x0402 (leBytes 4 select.toNat ++ leBytes 16 cfg.toNat))

/-- DECIM_CONFIG_QUERY (R353), query twin 0x0482. -/
def execDecimConfigQuery (h : Hdr) (select : BitVec 32) (s : State) : Host.Outcome State Fault Refusal :=
  .next (s.command h 0x0482 (leBytes 4 select.toNat))

/-- GROUP_ARM (R104), opcode 0x0403. The row is the command with ENABLE = 1. -/
def execGroupArm (h : Hdr) (word : BitVec 32) (s : State) : Host.Outcome State Fault Refusal :=
  .next (s.command h 0x0403 (leBytes 4 (word ||| 0x100#32).toNat))

/-- GROUP_STOP (R105), opcode 0x0403. The row is GROUP_ARM with ENABLE = 0. -/
def execGroupStop (h : Hdr) (word : BitVec 32) (s : State) : Host.Outcome State Fault Refusal :=
  .next (s.command h 0x0403 (leBytes 4 (word &&& 0xFFFFFEFF#32).toNat))

end Sys2Proof.Machine
end

