-- ==== Sys2Proof/Machine/ClockCommands.lean ====
section
/-!
DEFINITION. The commands of the clock family: each row is a packet with its opcode and payload (12).
-/
namespace Sys2Proof.Machine

/-- CLOCK_PLAN (R261), opcode 0x0101. -/
def execClockPlan (h : Hdr) (plan : BitVec 128) (s : State) : Host.Outcome State Fault Refusal :=
  .next (s.command h 0x0101 (leBytes 16 plan.toNat))

/-- CLOCK_PLAN_QUERY (R353), query twin 0x0181. -/
def execClockPlanQuery (h : Hdr) (s : State) : Host.Outcome State Fault Refusal :=
  .next (s.command h 0x0181 [])

/-- CLOCK_SYNC (R266), opcode 0x0102. -/
def execClockSync (h : Hdr) (syncTick : BitVec 64) (timeout : BitVec 16) (reserved : BitVec 16) (s : State) : Host.Outcome State Fault Refusal :=
  .next (s.command h 0x0102 (leBytes 8 syncTick.toNat ++ leBytes 2 timeout.toNat ++ leBytes 2 reserved.toNat))

/-- GRID_TRIM (R281), opcode 0x0103. -/
def execGridTrim (h : Hdr) (amount : BitVec 32) (s : State) : Host.Outcome State Fault Refusal :=
  .next (s.command h 0x0103 (leBytes 4 amount.toNat))

end Sys2Proof.Machine
end

