-- ==== Sys2Proof/Machine/FirmwareCommands.lean ====
section
/-!
DEFINITION. The commands of the firmware family: each row is a packet with its opcode and payload (12).
-/
namespace Sys2Proof.Machine

/-- KEY_INSTALL (R384), opcode 0x0C01. -/
def execKeyInstall (h : Hdr) (x : BitVec 384) (y : BitVec 384) (s : State) : Host.Outcome State Fault Refusal :=
  .next (s.command h 0x0C01 (leBytes 48 x.toNat ++ leBytes 48 y.toNat))

/-- IMAGE_LOAD (R385), opcode 0x0C02. -/
def execImageLoad (h : Hdr) (offset : BitVec 32) (data : Bytes) (s : State) : Host.Outcome State Fault Refusal :=
  .next (s.command h 0x0C02 (leBytes 4 offset.toNat ++ data))

/-- IMAGE_START (R401), opcode 0x0C03. -/
def execImageStart (h : Hdr) (total : BitVec 32) (s : State) : Host.Outcome State Fault Refusal :=
  .next (s.command h 0x0C03 (leBytes 4 total.toNat))

end Sys2Proof.Machine
end

