-- ==== Sys2Proof/Machine/GroveEvents.lean ====
section
/-!
DEFINITION. The events of the grove (15): lanes and blocks of the bough ports, the messages that arrived, link messages, priority frames, ranging, and the time limits of a partition. Each acts only while the bough transmitters run.
-/
namespace Sys2Proof.Machine

/-- A change of the grove, made only while the bough transmitters run (R426). -/
def State.bough (s : State) (t : Nat) (f : State → State) : Host.Outcome State Fault Refusal :=
  s.event t fun s => if s.boughOn then f s else s

/-- The bough port of a DN port. -/
def dnPort (p : Fin 4) : Fin 5 := p.succ

/-- A lane has had no block lock for 1 µs (R426): the port shows it, and goes down where it was UP. -/
def State.lanesLost (s : State) (p : Fin 5) (lane : Fin 4) : State :=
  (s.onPort p fun b => { b with lanes := b.lanes - at' (bits b.lanes lane.val 1) lane.val }).portDown p (s.now - 20000)

/-- LANE_LOCK_LOST (R426): a lane has had no block lock for 1 µs; the loss began that much earlier (R450). -/
def execLaneLockLost (t : Nat) (port : Fin 5) (lane : Fin 4) (s : State) : Host.Outcome State Fault Refusal :=
  s.bough t fun s => s.lanesLost port lane

/-- FAST_RETRAIN_DONE (R426, R428, R435). -/
def execFastRetrainDone (t : Nat) (port : Fin 5) (s : State) : Host.Outcome State Fault Refusal :=
  s.bough t fun s => s.retrained port

/-- BLOCK_LOCK (R426). -/
def execBlockLock (t : Nat) (port : Fin 5) (lane : Fin 4) (s : State) : Host.Outcome State Fault Refusal :=
  s.bough t fun s => s.laneLock port lane

/-- BOUGH_BLOCK_RECEIVE (R427 to R429): bytes of another number than 1,024 fail the check of the block. -/
def execBoughBlockReceive (t : Nat) (port : Fin 5) (block : Bytes) (s : State) : Host.Outcome State Fault Refusal :=
  s.bough t fun s => s.blockIn port block

/-- BLOCK_REPLAY_TIMEOUT (R428): 20 µs with blocks outstanding and no advance of ACK. -/
def execBlockReplayTimeout (t : Nat) (port : Fin 5) (s : State) : Host.Outcome State Fault Refusal :=
  s.bough t fun s => if (s.port port).sends && (s.port port).ackAt + 400000 ≤ s.now then s.replayBlocks port else s

/-- MESSAGE_AGE_EXPIRY (R432). -/
def execMessageAgeExpiry (t : Nat) (port : Fin 5) (s : State) : Host.Outcome State Fault Refusal :=
  s.bough t fun s => s.ageExpiry port

/-- UNICAST (R439): the first of what arrived on the port, where it is such a message. -/
def execUnicast (t : Nat) (port : Fin 5) (s : State) : Host.Outcome State Fault Refusal :=
  s.bough t fun s => s.unicast port

/-- UP (R438, R439, R441). -/
def execUp (t : Nat) (port : Fin 5) (s : State) : Host.Outcome State Fault Refusal :=
  s.bough t fun s => s.upIn port

/-- FLOOD (R439). -/
def execFlood (t : Nat) (port : Fin 5) (s : State) : Host.Outcome State Fault Refusal :=
  s.bough t fun s => s.floodIn port

/-- PATH (R439). -/
def execPath (t : Nat) (port : Fin 5) (s : State) : Host.Outcome State Fault Refusal :=
  s.bough t fun s => s.pathIn port

/-- HELLO (R426, R431, R453). -/
def execHello (t : Nat) (port : Fin 5) (s : State) : Host.Outcome State Fault Refusal :=
  s.bough t fun s => s.helloIn port

/-- JOIN_ACCEPT (R454). -/
def execJoinAccept (t : Nat) (port : Fin 5) (s : State) : Host.Outcome State Fault Refusal :=
  s.bough t fun s => s.joinAccept port

/-- JOIN_REFUSE (R453). -/
def execJoinRefuse (t : Nat) (port : Fin 5) (s : State) : Host.Outcome State Fault Refusal :=
  s.bough t fun s => s.joinRefuse port

/-- ORPHAN_NOTICE (R450). -/
def execOrphanNotice (t : Nat) (port : Fin 5) (s : State) : Host.Outcome State Fault Refusal :=
  s.bough t fun s => s.orphanNotice port

/-- EPOCH_SET (R452, R454). -/
def execEpochSet (t : Nat) (port : Fin 5) (s : State) : Host.Outcome State Fault Refusal :=
  s.bough t fun s => s.epochSet port

/-- SAPLING_SET (R442). -/
def execSaplingSet (t : Nat) (port : Fin 5) (s : State) : Host.Outcome State Fault Refusal :=
  s.bough t fun s => s.saplingSet port

/-- GROVE_TRIGGER (R89, R434 to R436, R449). -/
def execGroveTrigger (t pseq origin : Nat) (tick : BitVec 64) (fraction gtn : BitVec 32) (s : State) : Host.Outcome State Fault Refusal :=
  s.bough t fun s => s.groveTriggerIn pseq (origin % 65536) tick.toNat fraction.toNat gtn.toNat

/-- TRIGGER_REQUEST (R88, R434, R437, R451): it arrives on a DN port. -/
def execTriggerRequest (t : Nat) (port : Fin 4) (pseq origin : Nat) (tick : BitVec 64) (fraction : BitVec 32) (s : State) : Host.Outcome State Fault Refusal :=
  s.bough t fun s => s.requestIn (dnPort port) pseq (origin % 65536) tick.toNat fraction.toNat

/-- GROVE_BROADCAST (R88, R437). -/
def execGroveBroadcast (t : Nat) (s : State) : Host.Outcome State Fault Refusal :=
  s.bough t fun s => s.groveBroadcast

/-- REQUEST_FORWARD (R437). -/
def execRequestForward (t : Nat) (s : State) : Host.Outcome State Fault Refusal :=
  s.bough t fun s => s.requestForward

/-- RANGE_REQ (R445): t2 is this device's grove time with the fraction of its arrival. -/
def execRangeReq (t pseq : Nat) (t1 : BitVec 64) (t1frac number arrival turnaround : BitVec 32) (s : State) : Host.Outcome State Fault Refusal :=
  s.bough t fun s => s.rangeReq pseq t1.toNat t1frac.toNat number.toNat arrival.toNat turnaround.toNat

/-- RANGE_REPLY (R445). -/
def execRangeReply (t : Nat) (port : Fin 4) (pseq : Nat) (turnaround arrival : BitVec 32) (s : State) : Host.Outcome State Fault Refusal :=
  s.bough t fun s => s.rangeReply (dnPort port) pseq turnaround.toNat arrival.toNat

/-- RANGE_RESULT (R445, R447, R454). -/
def execRangeResult (t pseq : Nat) (mean : BitVec 32) (s : State) : Host.Outcome State Fault Refusal :=
  s.bough t fun s => s.rangeResult pseq mean.toNat

/-- PACK (R435). -/
def execPack (t : Nat) (port : Fin 5) (pseq : Nat) (s : State) : Host.Outcome State Fault Refusal :=
  s.bough t fun s => s.packIn port pseq

/-- PFRAME_RESEND (R435). -/
def execPframeResend (t : Nat) (port : Fin 5) (s : State) : Host.Outcome State Fault Refusal :=
  s.bough t fun s => s.resendFrame port

/-- RANGE_EXCHANGE (R445). -/
def execRangeExchange (t : Nat) (port : Fin 4) (s : State) : Host.Outcome State Fault Refusal :=
  s.bough t fun s => s.rangeExchange (dnPort port)

/-- RANGE_COMPLETE (R445). -/
def execRangeComplete (t : Nat) (port : Fin 4) (s : State) : Host.Outcome State Fault Refusal :=
  s.bough t fun s => s.rangeComplete (dnPort port)

/-- TRACKING_RANGE (R447). -/
def execTrackingRange (t : Nat) (port : Fin 4) (s : State) : Host.Outcome State Fault Refusal :=
  s.bough t fun s => s.trackingRange (dnPort port)

/-- ORPHAN_TIMEOUT (R450). -/
def execOrphanTimeout (t : Nat) (s : State) : Host.Outcome State Fault Refusal :=
  s.bough t fun s => s.orphanTimeout

/-- SAPLING_TIMEOUT (R442). -/
def execSaplingTimeout (t : Nat) (s : State) : Host.Outcome State Fault Refusal :=
  s.bough t fun s => s.saplingTimeout

end Sys2Proof.Machine
end

