-- ==== Sys2Proof/Machine/ProtocolEvents.lean ====
section
/-!
DEFINITION. The protocol's own rows (10, 11, 17): receipt of packets, interim notices, doorbells, and reads and writes of the status window.
-/
namespace Sys2Proof.Machine

/-- COMMAND_RECEIVE (R325 to R335): a packet reaches the intake of a path; on PCIe from the command ring, with its descriptor. -/
def execCommandReceive (t : Nat) (path : Path) (desc packet : Bytes) (s : State) : Host.Outcome State Fault Refusal :=
  s.event t fun s => if s.board.boot = .reset || s.board.boot = .heartwood then s else s.intake path desc packet

/-- INTERIM_NOTICE (R343). -/
def execInterimNotice (t : Nat) (path : Path) (index : Nat) (s : State) : Host.Outcome State Fault Refusal :=
  s.event t fun s => s.sendNotice path index

/-- CMD_TAIL_DOORBELL (R330). -/
def execCmdTailDoorbell (t : Nat) (value : BitVec 32) (s : State) : Host.Outcome State Fault Refusal :=
  s.event t fun s => s.writeWindow .host 0x440 false value.toNat

/-- BOOT_DOORBELL (R331). -/
def execBootDoorbell (t : Nat) (value : BitVec 32) (s : State) : Host.Outcome State Fault Refusal :=
  s.event t fun s => s.writeWindow .host 0x28 false value.toNat

/-- DESC_TAIL_DOORBELL (R199). -/
def execDescTailDoorbell (t : Nat) (g : Fin 4) (value : BitVec 32) (s : State) : Host.Outcome State Fault Refusal :=
  s.event t fun s => s.writeWindow .host (0x400 + 16 * g.val) false value.toNat

/-- CPL_HEAD_DOORBELL (R199, R212): a freed entry may let a waiting completion be written. -/
def execCplHeadDoorbell (t : Nat) (ring : Fin 5) (value : BitVec 32) (s : State) : Host.Outcome State Fault Refusal :=
  s.event t fun s => s.writeWindow .host (0x40C + 16 * ring.val) false value.toNat

/-- LOW_HALF_READ (R18, R218): a 32-bit read of the word at the offset rounded down to 8 bytes. -/
def execLowHalfRead (t : Nat) (req : Requester) (offset : Nat) (s : State) : Host.Outcome State Fault Refusal :=
  s.event t fun s => s.read32 req (8 * (offset / 8))

/-- HIGH_HALF_READ (R218): a 32-bit read of the word above it. -/
def execHighHalfRead (t : Nat) (req : Requester) (offset : Nat) (s : State) : Host.Outcome State Fault Refusal :=
  s.event t fun s => s.read32 req (8 * (offset / 8) + 4)

/-- ATOMIC_64_READ (R218). -/
def execAtomic64Read (t : Nat) (req : Requester) (offset : Nat) (s : State) : Host.Outcome State Fault Refusal :=
  s.event t fun s => s.read64 req offset

/-- RC_FIELD_READ (R15, R195). -/
def execRcFieldRead (t : Nat) (req : Requester) (offset : Nat) (s : State) : Host.Outcome State Fault Refusal :=
  s.event t fun s => s.read32 req offset

/-- HALF_ORDER_CLEAR (R219). -/
def execHalfOrderClear (t : Nat) (req : Requester) (value : BitVec 32) (s : State) : Host.Outcome State Fault Refusal :=
  s.event t fun s => s.writeWindow req 0x1C false value.toNat

/-- MON_CTRL_CONVERT (R317). -/
def execMonCtrlConvert (t : Nat) (req : Requester) (value : BitVec 32) (s : State) : Host.Outcome State Fault Refusal :=
  s.event t fun s => s.writeWindow req 0x20 false value.toNat

/-- REGISTER_WRITE (R403 to R408, R490): into the status window, or by a Sapwood core into its map. -/
def execRegisterWrite (t : Nat) (place : WritePlace) (wide : Bool) (value : BitVec 64) (s : State) : Host.Outcome State Fault Refusal :=
  s.event t fun s => match place with
    | .window req offset => s.writeWindow req offset wide value.toNat
    | .sapwood _ addr => if wide then s.writeSapwood addr 8 value.toNat else s.writeSapwood addr 4 (value.toNat % 2 ^ 32)

end Sys2Proof.Machine
end

