-- ==== Sys2Proof/Machine/FirmwareEvents.lean ====
section
/-!
DEFINITION. The rows of the firmware (14): the intake registers, COMMIT, the watchdog, service calls, and the causes and steps of a restart.
-/
namespace Sys2Proof.Machine

/-- TAKE (R340, R408). -/
def execTake (t : Nat) (core : Fin 4) (s : State) : Host.Outcome State Fault Refusal := s.event t fun s => s.takeRead core

/-- POST (R408): SLOT and LENGTH of the value. -/
def execPost (t : Nat) (_core : Fin 4) (value : BitVec 64) (s : State) : Host.Outcome State Fault Refusal :=
  s.event t fun s => s.postReply (fld value 32 10) (fld value 0 13)

/-- EVENT_POST (R408). -/
def execEventPost (t : Nat) (_core : Fin 4) (addr : BitVec 64) (s : State) : Host.Outcome State Fault Refusal :=
  s.event t fun s => s.eventPost addr.toNat

/-- COMMIT (R405, R406). -/
def execCommit (t : Nat) (_core : Fin 4) (value : BitVec 64) (s : State) : Host.Outcome State Fault Refusal :=
  s.event t fun s => s.commitWrite value.toNat

/-- WDT_KICK (R414). -/
def execWdtKick (t : Nat) (core : Fin 4) (s : State) : Host.Outcome State Fault Refusal := s.event t fun s => s.kick core

/-- SC_OVERRUN_CLEAR (R410): a write of SC_STATUS. -/
def execScOverrunClear (t : Nat) (core : Fin 4) (value : BitVec 32) (s : State) : Host.Outcome State Fault Refusal :=
  s.event t fun s => if s.sapwood then s.writeCore core 0x34 4 value.toNat else s

/-- SC_CLOCK_PLAN (R410, R411): function 0x01. -/
def execScClockPlan (t : Nat) (core : Fin 4) (addr : BitVec 64) (s : State) : Host.Outcome State Fault Refusal :=
  s.event t fun s => s.serviceCall core 0x01 [addr.toNat]

/-- SC_CLOCK_SYNC (R410, R411): function 0x02. -/
def execScClockSync (t : Nat) (core : Fin 4) (syncTick timeout : BitVec 64) (s : State) : Host.Outcome State Fault Refusal :=
  s.event t fun s => s.serviceCall core 0x02 [syncTick.toNat, timeout.toNat]

/-- SC_SLEW (R410, R411): function 0x03. -/
def execScSlew (t : Nat) (core : Fin 4) (deltaTicks deltaFs : BitVec 64) (s : State) : Host.Outcome State Fault Refusal :=
  s.event t fun s => s.serviceCall core 0x03 [deltaTicks.toNat, deltaFs.toNat]

/-- SC_MEM_CLOCK (R410, R411): function 0x04. -/
def execScMemClock (t : Nat) (core : Fin 4) (rate : BitVec 64) (s : State) : Host.Outcome State Fault Refusal :=
  s.event t fun s => s.serviceCall core 0x04 [rate.toNat]

/-- SC_QUAD_POWER (R410, R411): function 0x05. -/
def execScQuadPower (t : Nat) (core : Fin 4) (quad on : BitVec 64) (s : State) : Host.Outcome State Fault Refusal :=
  s.event t fun s => s.serviceCall core 0x05 [quad.toNat, on.toNat]

/-- SC_CAL_OPEN (R410, R411): function 0x06. -/
def execScCalOpen (t : Nat) (core : Fin 4) (mask : BitVec 64) (s : State) : Host.Outcome State Fault Refusal :=
  s.event t fun s => s.serviceCall core 0x06 [mask.toNat]

/-- SC_CAL_SWITCH (R410, R411): function 0x07. -/
def execScCalSwitch (t : Nat) (core : Fin 4) (quad position : BitVec 64) (s : State) : Host.Outcome State Fault Refusal :=
  s.event t fun s => s.serviceCall core 0x07 [quad.toNat, position.toNat]

/-- SC_CAL_CLOSE (R410, R411): function 0x08. -/
def execScCalClose (t : Nat) (core : Fin 4) (s : State) : Host.Outcome State Fault Refusal :=
  s.event t fun s => s.serviceCall core 0x08 []

/-- SC_GROVE_IDENTITY (R410, R411): function 0x09. -/
def execScGroveIdentity (t : Nat) (core : Fin 4) (devaddr role epoch bound : BitVec 64) (s : State) : Host.Outcome State Fault Refusal :=
  s.event t fun s => s.serviceCall core 0x09 [devaddr.toNat, role.toNat, epoch.toNat, bound.toNat]

/-- SC_WDT_CONFIG (R410, R411): function 0x0A. -/
def execScWdtConfig (t : Nat) (core : Fin 4) (period park : BitVec 64) (s : State) : Host.Outcome State Fault Refusal :=
  s.event t fun s => s.serviceCall core 0x0A [period.toNat, park.toNat]

/-- SC_READY (R410, R411): function 0x0B. -/
def execScReady (t : Nat) (core : Fin 4) (s : State) : Host.Outcome State Fault Refusal :=
  s.event t fun s => s.serviceCall core 0x0B []

/-- SC_SUBMIT (R410, R411): function 0x0C. -/
def execScSubmit (t : Nat) (core : Fin 4) (packet length buffer size : BitVec 64) (s : State) : Host.Outcome State Fault Refusal :=
  s.event t fun s => s.serviceCall core 0x0C [packet.toNat, length.toNat, buffer.toNat, size.toNat]

/-- SC_RESTART (R410, R411): function 0x0D. -/
def execScRestart (t : Nat) (core : Fin 4) (pc : BitVec 64) (s : State) : Host.Outcome State Fault Refusal :=
  s.event t fun s => s.serviceCall core 0x0D [pc.toNat]

/-- SC_FAULT (R410, R411): function 0x0E. -/
def execScFault (t : Nat) (core : Fin 4) (reason : BitVec 64) (s : State) : Host.Outcome State Fault Refusal :=
  s.event t fun s => s.serviceCall core 0x0E [reason.toNat]

/-- SC_KEYS (R410, R411): function 0x0F. -/
def execScKeys (t : Nat) (core : Fin 4) (s : State) : Host.Outcome State Fault Refusal :=
  s.event t fun s => s.serviceCall core 0x0F []

/-- WATCHDOG_EXPIRY (R414, R415). -/
def execWatchdogExpiry (t : Nat) (core : Fin 4) (pc : BitVec 64) (s : State) : Host.Outcome State Fault Refusal :=
  s.event t fun s => if s.wdtExpired core then s.restart 0 core pc.toNat 0 else s

/-- FIREWALL_FAULT (R406, R415). -/
def execFirewallFault (t : Nat) (core : Fin 4) (pc addr : BitVec 64) (s : State) : Host.Outcome State Fault Refusal :=
  s.event t fun s => if s.sapwood then s.restart 1 core pc.toNat addr.toNat else s

/-- DOUBLE_TRAP (R415). -/
def execDoubleTrap (t : Nat) (core : Fin 4) (pc : BitVec 64) (s : State) : Host.Outcome State Fault Refusal :=
  s.event t fun s => if s.sapwood then s.restart 2 core pc.toNat 0 else s

/-- RESTART_VERIFY_DONE (R416, R417). -/
def execRestartVerifyDone (t : Nat) (ok : Bool) (s : State) : Host.Outcome State Fault Refusal := s.event t fun s => s.verifyDone ok

/-- SAPWOOD_READY_TIMEOUT (R417). -/
def execSapwoodReadyTimeout (t : Nat) (s : State) : Host.Outcome State Fault Refusal := s.event t State.readyLate

end Sys2Proof.Machine
end

