-- ==== Sys2Proof/Machine/GroveCommands.lean ====
section
/-!
DEFINITION. The commands of the grove family: each row is a packet with its opcode and payload (12).
-/
namespace Sys2Proof.Machine

/-- ENUM_PROBE (R443), opcode 0x0B01. The row is the command without ASSIGN. -/
def execEnumProbe (h : Hdr) (probe : BitVec 128) (s : State) : Host.Outcome State Fault Refusal :=
  .next (s.command h 0x0B01 (leBytes 16 (probe &&& 0xFFFFFFFFFFFFFFFFFFFEFFFFFFFFFFFF#128).toNat))

/-- ENUM_PROBE_ASSIGN (R382), opcode 0x0B01. The row is ENUM_PROBE with ASSIGN. -/
def execEnumProbeAssign (h : Hdr) (probe : BitVec 128) (s : State) : Host.Outcome State Fault Refusal :=
  .next (s.command h 0x0B01 (leBytes 16 (probe ||| 0x1000000000000#128).toNat))

/-- GROVE_CONFIG (R423), opcode 0x0B02. -/
def execGroveConfig (h : Hdr) (mcast : BitVec 256) (s : State) : Host.Outcome State Fault Refusal :=
  .next (s.command h 0x0B02 (leBytes 32 mcast.toNat))

/-- GROVE_CONFIG_QUERY (R353), query twin 0x0B82. -/
def execGroveConfigQuery (h : Hdr) (s : State) : Host.Outcome State Fault Refusal :=
  .next (s.command h 0x0B82 [])

/-- GROVE_RANGE (R445), opcode 0x0B03. -/
def execGroveRange (h : Hdr) (word : BitVec 32) (s : State) : Host.Outcome State Fault Refusal :=
  .next (s.command h 0x0B03 (leBytes 4 word.toNat))

/-- GROVE_ALIGN (R446), opcode 0x0B04. -/
def execGroveAlign (h : Hdr) (deltaTicks : BitVec 64) (deltaFs : BitVec 32) (reserved : BitVec 32) (s : State) : Host.Outcome State Fault Refusal :=
  .next (s.command h 0x0B04 (leBytes 8 deltaTicks.toNat ++ leBytes 4 deltaFs.toNat ++ leBytes 4 reserved.toNat))

/-- PROMOTE (R452), opcode 0x0B05. -/
def execPromote (h : Hdr) (s : State) : Host.Outcome State Fault Refusal :=
  .next (s.command h 0x0B05 [])

/-- DEMOTE (R452), opcode 0x0B06. -/
def execDemote (h : Hdr) (s : State) : Host.Outcome State Fault Refusal :=
  .next (s.command h 0x0B06 [])

/-- GROVE_STATUS (R383), opcode 0x0B07. -/
def execGroveStatus (h : Hdr) (s : State) : Host.Outcome State Fault Refusal :=
  .next (s.command h 0x0B07 [])

end Sys2Proof.Machine
end

