-- ==== Sys2Proof/Machine/InputCommands.lean ====
section
/-!
DEFINITION. The commands of the input family: each row is a packet with its opcode and payload (12).
-/
namespace Sys2Proof.Machine

/-- INPUT_CONFIG (R28), opcode 0x0201. -/
def execInputConfig (h : Hdr) (select : BitVec 32) (cfg : BitVec 32) (s : State) : Host.Outcome State Fault Refusal :=
  .next (s.command h 0x0201 (leBytes 4 select.toNat ++ leBytes 4 cfg.toNat))

/-- INPUT_CONFIG_QUERY (R353), query twin 0x0281. -/
def execInputConfigQuery (h : Hdr) (select : BitVec 32) (s : State) : Host.Outcome State Fault Refusal :=
  .next (s.command h 0x0281 (leBytes 4 select.toNat))

/-- QUAD_FUSION (R39), opcode 0x0202. -/
def execQuadFusion (h : Hdr) (select : BitVec 32) (word : BitVec 32) (s : State) : Host.Outcome State Fault Refusal :=
  .next (s.command h 0x0202 (leBytes 4 select.toNat ++ leBytes 4 word.toNat))

/-- QUAD_FUSION_QUERY (R353), query twin 0x0282. -/
def execQuadFusionQuery (h : Hdr) (select : BitVec 32) (s : State) : Host.Outcome State Fault Refusal :=
  .next (s.command h 0x0282 (leBytes 4 select.toNat))

/-- QUAD_POWER (R366), opcode 0x0203. -/
def execQuadPower (h : Hdr) (select : BitVec 32) (word : BitVec 32) (s : State) : Host.Outcome State Fault Refusal :=
  .next (s.command h 0x0203 (leBytes 4 select.toNat ++ leBytes 4 word.toNat))

/-- QUAD_POWER_QUERY (R353), query twin 0x0283. -/
def execQuadPowerQuery (h : Hdr) (select : BitVec 32) (s : State) : Host.Outcome State Fault Refusal :=
  .next (s.command h 0x0283 (leBytes 4 select.toNat))

end Sys2Proof.Machine
end

