-- ==== Sys2Proof/Machine/MemoryCommands.lean ====
section
/-!
DEFINITION. The commands of the memory family: each row is a packet with its opcode and payload (12).
-/
namespace Sys2Proof.Machine

/-- MEM_PORT_CONFIG (R174), opcode 0x0601. -/
def execMemPortConfig (h : Hdr) (select : BitVec 32) (cfg : BitVec 64) (s : State) : Host.Outcome State Fault Refusal :=
  .next (s.command h 0x0601 (leBytes 4 select.toNat ++ leBytes 8 cfg.toNat))

/-- MEM_PORT_CONFIG_QUERY (R353), query twin 0x0681. -/
def execMemPortConfigQuery (h : Hdr) (select : BitVec 32) (s : State) : Host.Outcome State Fault Refusal :=
  .next (s.command h 0x0681 (leBytes 4 select.toNat))

/-- MEM_CONFIG (R188), opcode 0x0602. -/
def execMemConfig (h : Hdr) (cfg : BitVec 32) (s : State) : Host.Outcome State Fault Refusal :=
  .next (s.command h 0x0602 (leBytes 4 cfg.toNat))

/-- MEM_CONFIG_QUERY (R353), query twin 0x0682. -/
def execMemConfigQuery (h : Hdr) (s : State) : Host.Outcome State Fault Refusal :=
  .next (s.command h 0x0682 [])

/-- MEM_CLOCK (R190), opcode 0x0603. -/
def execMemClock (h : Hdr) (word : BitVec 32) (s : State) : Host.Outcome State Fault Refusal :=
  .next (s.command h 0x0603 (leBytes 4 word.toNat))

/-- BAR2_SET (R167), opcode 0x0604. -/
def execBar2Set (h : Hdr) (base : BitVec 64) (s : State) : Host.Outcome State Fault Refusal :=
  .next (s.command h 0x0604 (leBytes 8 base.toNat))

/-- BAR2_SET_QUERY (R353), query twin 0x0684. -/
def execBar2SetQuery (h : Hdr) (s : State) : Host.Outcome State Fault Refusal :=
  .next (s.command h 0x0684 [])

end Sys2Proof.Machine
end

