-- ==== Sys2Proof/Machine/MonitorCommands.lean ====
section
/-!
DEFINITION. The commands of the monitor family: each row is a packet with its opcode and payload (12).
-/
namespace Sys2Proof.Machine

/-- MON_CONFIG (R315), opcode 0x0A01. -/
def execMonConfig (h : Hdr) (cfg : BitVec 32) (s : State) : Host.Outcome State Fault Refusal :=
  .next (s.command h 0x0A01 (leBytes 4 cfg.toNat))

/-- MON_CONFIG_QUERY (R353), query twin 0x0A81. -/
def execMonConfigQuery (h : Hdr) (s : State) : Host.Outcome State Fault Refusal :=
  .next (s.command h 0x0A81 [])

/-- MON_WINDOW_SET (R319), opcode 0x0A02. -/
def execMonWindowSet (h : Hdr) (select : BitVec 32) (cfg : BitVec 64) (s : State) : Host.Outcome State Fault Refusal :=
  .next (s.command h 0x0A02 (leBytes 4 select.toNat ++ leBytes 8 cfg.toNat))

/-- MON_WINDOW_SET_QUERY (R353), query twin 0x0A82. -/
def execMonWindowSetQuery (h : Hdr) (select : BitVec 32) (s : State) : Host.Outcome State Fault Refusal :=
  .next (s.command h 0x0A82 (leBytes 4 select.toNat))

end Sys2Proof.Machine
end

