-- ==== Sys2Proof/Machine/ReadoutCommands.lean ====
section
/-!
DEFINITION. The commands of the readout family: each row is a packet with its opcode and payload (12).
-/
namespace Sys2Proof.Machine

/-- READOUT_RINGS (R198), opcode 0x0701. -/
def execReadoutRings (h : Hdr) (select : BitVec 32) (cfg : BitVec 256) (s : State) : Host.Outcome State Fault Refusal :=
  .next (s.command h 0x0701 (leBytes 4 select.toNat ++ leBytes 32 cfg.toNat))

/-- READOUT_RINGS_QUERY (R353), query twin 0x0781. -/
def execReadoutRingsQuery (h : Hdr) (select : BitVec 32) (s : State) : Host.Outcome State Fault Refusal :=
  .next (s.command h 0x0781 (leBytes 4 select.toNat))

end Sys2Proof.Machine
end

