-- ==== Sys2Proof/Machine/StimCommands.lean ====
section
/-!
DEFINITION. The commands of the stimulus family: each row is a packet with its opcode and payload (12).
-/
namespace Sys2Proof.Machine

/-- SEQ_CONFIG (R288), opcode 0x0901. -/
def execSeqConfig (h : Hdr) (cfg : BitVec 128) (s : State) : Host.Outcome State Fault Refusal :=
  .next (s.command h 0x0901 (leBytes 16 cfg.toNat))

/-- SEQ_CONFIG_QUERY (R353), query twin 0x0981. -/
def execSeqConfigQuery (h : Hdr) (s : State) : Host.Outcome State Fault Refusal :=
  .next (s.command h 0x0981 [])

/-- SEQ_SEGMENT_DEFINE (R292), opcode 0x0902. -/
def execSeqSegmentDefine (h : Hdr) (select : BitVec 32) (seg : BitVec 128) (s : State) : Host.Outcome State Fault Refusal :=
  .next (s.command h 0x0902 (leBytes 4 select.toNat ++ leBytes 16 seg.toNat))

/-- SEQ_SEGMENT_DEFINE_QUERY (R353), query twin 0x0982. -/
def execSeqSegmentDefineQuery (h : Hdr) (select : BitVec 32) (s : State) : Host.Outcome State Fault Refusal :=
  .next (s.command h 0x0982 (leBytes 4 select.toNat))

/-- SEQ_LIST_WRITE (R293), opcode 0x0903. -/
def execSeqListWrite (h : Hdr) (select : BitVec 32) (first : BitVec 32) (entries : List (BitVec 128)) (s : State) : Host.Outcome State Fault Refusal :=
  .next (s.command h 0x0903 (leBytes 4 select.toNat ++ leBytes 4 first.toNat ++ (entries.map fun e => leBytes 16 e.toNat).flatten))

/-- SEQ_LIST_READ (R378), opcode 0x0983. -/
def execSeqListRead (h : Hdr) (select : BitVec 32) (count : BitVec 32) (first : BitVec 32) (s : State) : Host.Outcome State Fault Refusal :=
  .next (s.command h 0x0983 (leBytes 4 select.toNat ++ leBytes 4 count.toNat ++ leBytes 4 first.toNat))

/-- SEQ_SEGMENT_READY (R294), opcode 0x0904. -/
def execSeqSegmentReady (h : Hdr) (select : BitVec 32) (crc : BitVec 32) (s : State) : Host.Outcome State Fault Refusal :=
  .next (s.command h 0x0904 (leBytes 4 select.toNat ++ leBytes 4 crc.toNat))

/-- SEQ_STEP_WRITE (R295), opcode 0x0905. -/
def execSeqStepWrite (h : Hdr) (select : BitVec 32) (stepw : BitVec 128) (s : State) : Host.Outcome State Fault Refusal :=
  .next (s.command h 0x0905 (leBytes 4 select.toNat ++ leBytes 16 stepw.toNat))

/-- SEQ_STEP_WRITE_QUERY (R353), query twin 0x0985. -/
def execSeqStepWriteQuery (h : Hdr) (select : BitVec 32) (s : State) : Host.Outcome State Fault Refusal :=
  .next (s.command h 0x0985 (leBytes 4 select.toNat))

/-- SEQ_ENABLE (R297), opcode 0x0906. The row is the command with ENABLE = 1. -/
def execSeqEnable (h : Hdr) (word : BitVec 32) (s : State) : Host.Outcome State Fault Refusal :=
  .next (s.command h 0x0906 (leBytes 4 (word ||| 1#32).toNat))

/-- SEQ_DISABLE (R297), opcode 0x0906. The row is SEQ_ENABLE with ENABLE = 0. -/
def execSeqDisable (h : Hdr) (word : BitVec 32) (s : State) : Host.Outcome State Fault Refusal :=
  .next (s.command h 0x0906 (leBytes 4 (word &&& 0xFFFFFFFE#32).toNat))

/-- SEQ_START (R299), opcode 0x0907. -/
def execSeqStart (h : Hdr) (word : BitVec 128) (s : State) : Host.Outcome State Fault Refusal :=
  .next (s.command h 0x0907 (leBytes 16 word.toNat))

/-- SEQ_STOP_NOW (R300), opcode 0x0908. The row is SEQ_STOP with MODE NOW. -/
def execSeqStopNow (h : Hdr) (word : BitVec 32) (s : State) : Host.Outcome State Fault Refusal :=
  .next (s.command h 0x0908 (leBytes 4 (word &&& 0xFFFFFEFF#32).toNat))

/-- SEQ_STOP_BOUNDARY (R300), opcode 0x0908. The row is SEQ_STOP with MODE BOUNDARY. -/
def execSeqStopBoundary (h : Hdr) (word : BitVec 32) (s : State) : Host.Outcome State Fault Refusal :=
  .next (s.command h 0x0908 (leBytes 4 (word ||| 0x100#32).toNat))

/-- SEQ_JUMP (R302), opcode 0x0909. -/
def execSeqJump (h : Hdr) (word : BitVec 32) (s : State) : Host.Outcome State Fault Refusal :=
  .next (s.command h 0x0909 (leBytes 4 word.toNat))

end Sys2Proof.Machine
end

