-- ==== Sys2Proof/Machine/SystemCommands.lean ====
section
/-!
DEFINITION. The commands of the system family: each row is a packet with its opcode and payload (12).
-/
namespace Sys2Proof.Machine

/-- SYS_ECHO (R358), opcode 0x0000. -/
def execSysEcho (h : Hdr) (data : Bytes) (s : State) : Host.Outcome State Fault Refusal :=
  .next (s.command h 0x0000 (data))

/-- SYS_IDENTIFY (R359), opcode 0x0001. -/
def execSysIdentify (h : Hdr) (s : State) : Host.Outcome State Fault Refusal :=
  .next (s.command h 0x0001 [])

/-- SYS_STATUS (R494), opcode 0x0002. -/
def execSysStatus (h : Hdr) (s : State) : Host.Outcome State Fault Refusal :=
  .next (s.command h 0x0002 [])

/-- CMD_RING_SETUP (R332), opcode 0x0003. -/
def execCmdRingSetup (h : Hdr) (setup : BitVec 256) (s : State) : Host.Outcome State Fault Refusal :=
  .next (s.command h 0x0003 (leBytes 32 setup.toNat))

/-- CMD_RING_SETUP_QUERY (R353), query twin 0x0083. -/
def execCmdRingSetupQuery (h : Hdr) (s : State) : Host.Outcome State Fault Refusal :=
  .next (s.command h 0x0083 [])

/-- TAG_RETIRE (R345), opcode 0x0004. -/
def execTagRetire (h : Hdr) (word : BitVec 32) (s : State) : Host.Outcome State Fault Refusal :=
  .next (s.command h 0x0004 (leBytes 4 word.toNat))

/-- SYS_RESET (R360), opcode 0x0005. -/
def execSysReset (h : Hdr) (confirm : BitVec 32) (s : State) : Host.Outcome State Fault Refusal :=
  .next (s.command h 0x0005 (leBytes 4 confirm.toNat))

/-- EVENT_FETCH (R361), opcode 0x0006. -/
def execEventFetch (h : Hdr) (word : BitVec 32) (s : State) : Host.Outcome State Fault Refusal :=
  .next (s.command h 0x0006 (leBytes 4 word.toNat))

end Sys2Proof.Machine
end

