-- ==== Sys2Proof/Machine/TriggerCommands.lean ====
section
/-!
DEFINITION. The commands of the trigger family: each row is a packet with its opcode and payload (12).
-/
namespace Sys2Proof.Machine

/-- TU_CONFIG (R61), opcode 0x0301. -/
def execTuConfig (h : Hdr) (select : BitVec 32) (cfg : BitVec 256) (s : State) : Host.Outcome State Fault Refusal :=
  .next (s.command h 0x0301 (leBytes 4 select.toNat ++ leBytes 32 cfg.toNat))

/-- TU_CONFIG_QUERY (R353), query twin 0x0381. -/
def execTuConfigQuery (h : Hdr) (select : BitVec 32) (s : State) : Host.Outcome State Fault Refusal :=
  .next (s.command h 0x0381 (leBytes 4 select.toNat))

/-- CMP_CONFIG (R368), opcode 0x0302. -/
def execCmpConfig (h : Hdr) (select : BitVec 32) (cfg : BitVec 32) (s : State) : Host.Outcome State Fault Refusal :=
  .next (s.command h 0x0302 (leBytes 4 select.toNat ++ leBytes 4 cfg.toNat))

/-- CMP_CONFIG_QUERY (R353), query twin 0x0382. -/
def execCmpConfigQuery (h : Hdr) (select : BitVec 32) (s : State) : Host.Outcome State Fault Refusal :=
  .next (s.command h 0x0382 (leBytes 4 select.toNat))

/-- COMBINER_CONFIG (R76), opcode 0x0303. -/
def execCombinerConfig (h : Hdr) (select : BitVec 32) (cfg : BitVec 128) (s : State) : Host.Outcome State Fault Refusal :=
  .next (s.command h 0x0303 (leBytes 4 select.toNat ++ leBytes 16 cfg.toNat))

/-- COMBINER_CONFIG_QUERY (R353), query twin 0x0383. -/
def execCombinerConfigQuery (h : Hdr) (select : BitVec 32) (s : State) : Host.Outcome State Fault Refusal :=
  .next (s.command h 0x0383 (leBytes 4 select.toNat))

/-- SW_TRIGGER (R96), opcode 0x0304. -/
def execSwTrigger (h : Hdr) (select : BitVec 32) (flags : BitVec 32) (atTick : BitVec 64) (s : State) : Host.Outcome State Fault Refusal :=
  .next (s.command h 0x0304 (leBytes 4 select.toNat ++ leBytes 4 flags.toNat ++ leBytes 8 atTick.toNat))

/-- TRIGOUT_CONFIG (R369), opcode 0x0305. -/
def execTrigoutConfig (h : Hdr) (select : BitVec 32) (cfg : BitVec 64) (s : State) : Host.Outcome State Fault Refusal :=
  .next (s.command h 0x0305 (leBytes 4 select.toNat ++ leBytes 8 cfg.toNat))

/-- TRIGOUT_CONFIG_QUERY (R353), query twin 0x0385. -/
def execTrigoutConfigQuery (h : Hdr) (select : BitVec 32) (s : State) : Host.Outcome State Fault Refusal :=
  .next (s.command h 0x0385 (leBytes 4 select.toNat))

end Sys2Proof.Machine
end

