-- ==== Sys2Proof/Machine/Dispatch.lean ====
section
/-!
DEFINITION. The dispatch of commands and events to their meanings: one arm per row of the opcode table.
-/
namespace Sys2Proof.Machine

/-- The effect of a command or event on everything but the queue. -/
def exec (i : Instr) (s : State) : Host.Outcome State Fault Refusal :=
  match i with
  | .sysEcho h data => Sys2Proof.Machine.execSysEcho h data s
  | .sysIdentify h => Sys2Proof.Machine.execSysIdentify h s
  | .sysStatus h => Sys2Proof.Machine.execSysStatus h s
  | .cmdRingSetup h setup => Sys2Proof.Machine.execCmdRingSetup h setup s
  | .cmdRingSetupQuery h => Sys2Proof.Machine.execCmdRingSetupQuery h s
  | .tagRetire h word => Sys2Proof.Machine.execTagRetire h word s
  | .sysReset h confirm => Sys2Proof.Machine.execSysReset h confirm s
  | .eventFetch h word => Sys2Proof.Machine.execEventFetch h word s
  | .clockPlan h plan => Sys2Proof.Machine.execClockPlan h plan s
  | .clockPlanQuery h => Sys2Proof.Machine.execClockPlanQuery h s
  | .clockSync h syncTick timeout reserved => Sys2Proof.Machine.execClockSync h syncTick timeout reserved s
  | .gridTrim h amount => Sys2Proof.Machine.execGridTrim h amount s
  | .inputConfig h select cfg => Sys2Proof.Machine.execInputConfig h select cfg s
  | .inputConfigQuery h select => Sys2Proof.Machine.execInputConfigQuery h select s
  | .quadFusion h select word => Sys2Proof.Machine.execQuadFusion h select word s
  | .quadFusionQuery h select => Sys2Proof.Machine.execQuadFusionQuery h select s
  | .quadPower h select word => Sys2Proof.Machine.execQuadPower h select word s
  | .quadPowerQuery h select => Sys2Proof.Machine.execQuadPowerQuery h select s
  | .tuConfig h select cfg => Sys2Proof.Machine.execTuConfig h select cfg s
  | .tuConfigQuery h select => Sys2Proof.Machine.execTuConfigQuery h select s
  | .cmpConfig h select cfg => Sys2Proof.Machine.execCmpConfig h select cfg s
  | .cmpConfigQuery h select => Sys2Proof.Machine.execCmpConfigQuery h select s
  | .combinerConfig h select cfg => Sys2Proof.Machine.execCombinerConfig h select cfg s
  | .combinerConfigQuery h select => Sys2Proof.Machine.execCombinerConfigQuery h select s
  | .swTrigger h select flags atTick => Sys2Proof.Machine.execSwTrigger h select flags atTick s
  | .trigoutConfig h select cfg => Sys2Proof.Machine.execTrigoutConfig h select cfg s
  | .trigoutConfigQuery h select => Sys2Proof.Machine.execTrigoutConfigQuery h select s
  | .captureConfig h select cfg => Sys2Proof.Machine.execCaptureConfig h select cfg s
  | .captureConfigQuery h select => Sys2Proof.Machine.execCaptureConfigQuery h select s
  | .decimConfig h select cfg => Sys2Proof.Machine.execDecimConfig h select cfg s
  | .decimConfigQuery h select => Sys2Proof.Machine.execDecimConfigQuery h select s
  | .groupArm h word => Sys2Proof.Machine.execGroupArm h word s
  | .groupStop h word => Sys2Proof.Machine.execGroupStop h word s
  | .accConfig h select cfg => Sys2Proof.Machine.execAccConfig h select cfg s
  | .accConfigQuery h select => Sys2Proof.Machine.execAccConfigQuery h select s
  | .accSnapshot h select => Sys2Proof.Machine.execAccSnapshot h select s
  | .memPortConfig h select cfg => Sys2Proof.Machine.execMemPortConfig h select cfg s
  | .memPortConfigQuery h select => Sys2Proof.Machine.execMemPortConfigQuery h select s
  | .memConfig h cfg => Sys2Proof.Machine.execMemConfig h cfg s
  | .memConfigQuery h => Sys2Proof.Machine.execMemConfigQuery h s
  | .memClock h word => Sys2Proof.Machine.execMemClock h word s
  | .bar2Set h base => Sys2Proof.Machine.execBar2Set h base s
  | .bar2SetQuery h => Sys2Proof.Machine.execBar2SetQuery h s
  | .readoutRings h select cfg => Sys2Proof.Machine.execReadoutRings h select cfg s
  | .readoutRingsQuery h select => Sys2Proof.Machine.execReadoutRingsQuery h select s
  | .calConfig h cfg => Sys2Proof.Machine.execCalConfig h cfg s
  | .calConfigQuery h => Sys2Proof.Machine.execCalConfigQuery h s
  | .calRun h word => Sys2Proof.Machine.execCalRun h word s
  | .calAbort h => Sys2Proof.Machine.execCalAbort h s
  | .calSetUpload h offset data => Sys2Proof.Machine.execCalSetUpload h offset data s
  | .calSetCommit h => Sys2Proof.Machine.execCalSetCommit h s
  | .calSetDownload h word offset length => Sys2Proof.Machine.execCalSetDownload h word offset length s
  | .calSliceQuery h select => Sys2Proof.Machine.execCalSliceQuery h select s
  | .seqConfig h cfg => Sys2Proof.Machine.execSeqConfig h cfg s
  | .seqConfigQuery h => Sys2Proof.Machine.execSeqConfigQuery h s
  | .seqSegmentDefine h select seg => Sys2Proof.Machine.execSeqSegmentDefine h select seg s
  | .seqSegmentDefineQuery h select => Sys2Proof.Machine.execSeqSegmentDefineQuery h select s
  | .seqListWrite h select first entries => Sys2Proof.Machine.execSeqListWrite h select first entries s
  | .seqListRead h select count first => Sys2Proof.Machine.execSeqListRead h select count first s
  | .seqSegmentReady h select crc => Sys2Proof.Machine.execSeqSegmentReady h select crc s
  | .seqStepWrite h select stepw => Sys2Proof.Machine.execSeqStepWrite h select stepw s
  | .seqStepWriteQuery h select => Sys2Proof.Machine.execSeqStepWriteQuery h select s
  | .seqEnable h word => Sys2Proof.Machine.execSeqEnable h word s
  | .seqDisable h word => Sys2Proof.Machine.execSeqDisable h word s
  | .seqStart h word => Sys2Proof.Machine.execSeqStart h word s
  | .seqStopNow h word => Sys2Proof.Machine.execSeqStopNow h word s
  | .seqStopBoundary h word => Sys2Proof.Machine.execSeqStopBoundary h word s
  | .seqJump h word => Sys2Proof.Machine.execSeqJump h word s
  | .monConfig h cfg => Sys2Proof.Machine.execMonConfig h cfg s
  | .monConfigQuery h => Sys2Proof.Machine.execMonConfigQuery h s
  | .monWindowSet h select cfg => Sys2Proof.Machine.execMonWindowSet h select cfg s
  | .monWindowSetQuery h select => Sys2Proof.Machine.execMonWindowSetQuery h select s
  | .enumProbe h probe => Sys2Proof.Machine.execEnumProbe h probe s
  | .enumProbeAssign h probe => Sys2Proof.Machine.execEnumProbeAssign h probe s
  | .groveConfig h mcast => Sys2Proof.Machine.execGroveConfig h mcast s
  | .groveConfigQuery h => Sys2Proof.Machine.execGroveConfigQuery h s
  | .groveRange h word => Sys2Proof.Machine.execGroveRange h word s
  | .groveAlign h deltaTicks deltaFs reserved => Sys2Proof.Machine.execGroveAlign h deltaTicks deltaFs reserved s
  | .promote h => Sys2Proof.Machine.execPromote h s
  | .demote h => Sys2Proof.Machine.execDemote h s
  | .groveStatus h => Sys2Proof.Machine.execGroveStatus h s
  | .keyInstall h x y => Sys2Proof.Machine.execKeyInstall h x y s
  | .imageLoad h offset data => Sys2Proof.Machine.execImageLoad h offset data s
  | .imageStart h total => Sys2Proof.Machine.execImageStart h total s
  | .commandReceive t path desc packet => Sys2Proof.Machine.execCommandReceive t path desc packet s
  | .interimNotice t path index => Sys2Proof.Machine.execInterimNotice t path index s
  | .cmdTailDoorbell t value => Sys2Proof.Machine.execCmdTailDoorbell t value s
  | .bootDoorbell t value => Sys2Proof.Machine.execBootDoorbell t value s
  | .descTailDoorbell t g value => Sys2Proof.Machine.execDescTailDoorbell t g value s
  | .cplHeadDoorbell t ring value => Sys2Proof.Machine.execCplHeadDoorbell t ring value s
  | .lowHalfRead t req offset => Sys2Proof.Machine.execLowHalfRead t req offset s
  | .highHalfRead t req offset => Sys2Proof.Machine.execHighHalfRead t req offset s
  | .atomic64Read t req offset => Sys2Proof.Machine.execAtomic64Read t req offset s
  | .rcFieldRead t req offset => Sys2Proof.Machine.execRcFieldRead t req offset s
  | .halfOrderClear t req value => Sys2Proof.Machine.execHalfOrderClear t req value s
  | .monCtrlConvert t req value => Sys2Proof.Machine.execMonCtrlConvert t req value s
  | .registerWrite t place wide value => Sys2Proof.Machine.execRegisterWrite t place wide value s
  | .bar2Access t offset access => Sys2Proof.Machine.execBar2Access t offset access s
  | .take t core => Sys2Proof.Machine.execTake t core s
  | .post t core value => Sys2Proof.Machine.execPost t core value s
  | .eventPost t core addr => Sys2Proof.Machine.execEventPost t core addr s
  | .commit t core value => Sys2Proof.Machine.execCommit t core value s
  | .wdtKick t core => Sys2Proof.Machine.execWdtKick t core s
  | .scOverrunClear t core value => Sys2Proof.Machine.execScOverrunClear t core value s
  | .scClockPlan t core addr => Sys2Proof.Machine.execScClockPlan t core addr s
  | .scClockSync t core syncTick timeout => Sys2Proof.Machine.execScClockSync t core syncTick timeout s
  | .scSlew t core deltaTicks deltaFs => Sys2Proof.Machine.execScSlew t core deltaTicks deltaFs s
  | .scMemClock t core rate => Sys2Proof.Machine.execScMemClock t core rate s
  | .scQuadPower t core quad on => Sys2Proof.Machine.execScQuadPower t core quad on s
  | .scCalOpen t core mask => Sys2Proof.Machine.execScCalOpen t core mask s
  | .scCalSwitch t core quad position => Sys2Proof.Machine.execScCalSwitch t core quad position s
  | .scCalClose t core => Sys2Proof.Machine.execScCalClose t core s
  | .scGroveIdentity t core devaddr role epoch bound => Sys2Proof.Machine.execScGroveIdentity t core devaddr role epoch bound s
  | .scWdtConfig t core period park => Sys2Proof.Machine.execScWdtConfig t core period park s
  | .scReady t core => Sys2Proof.Machine.execScReady t core s
  | .scSubmit t core packet length buffer size => Sys2Proof.Machine.execScSubmit t core packet length buffer size s
  | .scRestart t core pc => Sys2Proof.Machine.execScRestart t core pc s
  | .scFault t core reason => Sys2Proof.Machine.execScFault t core reason s
  | .scKeys t core => Sys2Proof.Machine.execScKeys t core s
  | .watchdogExpiry t core pc => Sys2Proof.Machine.execWatchdogExpiry t core pc s
  | .firewallFault t core pc addr => Sys2Proof.Machine.execFirewallFault t core pc addr s
  | .doubleTrap t core pc => Sys2Proof.Machine.execDoubleTrap t core pc s
  | .restartVerifyDone t ok => Sys2Proof.Machine.execRestartVerifyDone t ok s
  | .sapwoodReadyTimeout t => Sys2Proof.Machine.execSapwoodReadyTimeout t s
  | .sampleLinkBlock t bank data => Sys2Proof.Machine.execSampleLinkBlock t bank data s
  | .nak t bank => Sys2Proof.Machine.execNak t bank s
  | .linkResend t bank => Sys2Proof.Machine.execLinkResend t bank s
  | .alignmentFifoRelease t bank overrun => Sys2Proof.Machine.execAlignmentFifoRelease t bank overrun s
  | .linkRetrainDone t bank ok => Sys2Proof.Machine.execLinkRetrainDone t bank ok s
  | .bankReturned t bank => Sys2Proof.Machine.execBankReturned t bank s
  | .sliceSubstitution t bank pos => Sys2Proof.Machine.execSliceSubstitution t bank pos s
  | .backgroundEstimate t bank est => Sys2Proof.Machine.execBackgroundEstimate t bank est s
  | .quadPoweringDone t q => Sys2Proof.Machine.execQuadPoweringDone t q s
  | .quadTrainingDone t q => Sys2Proof.Machine.execQuadTrainingDone t q s
  | .quadConverged t q => Sys2Proof.Machine.execQuadConverged t q s
  | .quadRetimingDone t q => Sys2Proof.Machine.execQuadRetimingDone t q s
  | .inputSettled t input => Sys2Proof.Machine.execInputSettled t input s
  | .triggerUnitDecision t => Sys2Proof.Machine.execTriggerUnitDecision t s
  | .taggedEventDelivery t => Sys2Proof.Machine.execTaggedEventDelivery t s
  | .triginEdge t pin level tick fraction => Sys2Proof.Machine.execTriginEdge t pin level tick fraction s
  | .swTriggerDue t unit => Sys2Proof.Machine.execSwTriggerDue t unit s
  | .fillComplete t g => Sys2Proof.Machine.execFillComplete t g s
  | .holdoffExpiry t g => Sys2Proof.Machine.execHoldoffExpiry t g s
  | .trigoutPulseStart t out => Sys2Proof.Machine.execTrigoutPulseStart t out s
  | .trigoutPulseEnd t out => Sys2Proof.Machine.execTrigoutPulseEnd t out s
  | .trigoutLevelChange t out => Sys2Proof.Machine.execTrigoutLevelChange t out s
  | .recordBlockWritten t g taint => Sys2Proof.Machine.execRecordBlockWritten t g taint s
  | .recordComplete t g => Sys2Proof.Machine.execRecordComplete t g s
  | .accumulationCommit t g => Sys2Proof.Machine.execAccumulationCommit t g s
  | .snapshotComplete t g => Sys2Proof.Machine.execSnapshotComplete t g s
  | .memRequest t port unit access level => Sys2Proof.Machine.execMemRequest t port unit access level s
  | .memReadReturn t port ecc => Sys2Proof.Machine.execMemReadReturn t port ecc s
  | .refreshDue t pc => Sys2Proof.Machine.execRefreshDue t pc s
  | .stackTempReading t stack temp => Sys2Proof.Machine.execStackTempReading t stack temp s
  | .neighbourRefreshForced t pc => Sys2Proof.Machine.execNeighbourRefreshForced t pc s
  | .stripeReinitDone t g => Sys2Proof.Machine.execStripeReinitDone t g s
  | .memClockRelocked t => Sys2Proof.Machine.execMemClockRelocked t s
  | .trainingPassDone t failed => Sys2Proof.Machine.execTrainingPassDone t failed s
  | .memInitDone t failed => Sys2Proof.Machine.execMemInitDone t failed s
  | .descriptorTake t g desc => Sys2Proof.Machine.execDescriptorTake t g desc s
  | .readoutBlockRead t g damaged => Sys2Proof.Machine.execReadoutBlockRead t g damaged s
  | .completionPost t ring lane => Sys2Proof.Machine.execCompletionPost t ring lane s
  | .streamFlushTimeout t g => Sys2Proof.Machine.execStreamFlushTimeout t g s
  | .irqTimerExpiry t ring => Sys2Proof.Machine.execIrqTimerExpiry t ring s
  | .calDrainDone t => Sys2Proof.Machine.execCalDrainDone t s
  | .calDrainTimeout t => Sys2Proof.Machine.execCalDrainTimeout t s
  | .calLeakageEnd t q squares => Sys2Proof.Machine.execCalLeakageEnd t q squares s
  | .calIsolateEnd t q => Sys2Proof.Machine.execCalIsolateEnd t q s
  | .calSourceSettled t q => Sys2Proof.Machine.execCalSourceSettled t q s
  | .calRefTransferEnd t q caldc => Sys2Proof.Machine.execCalRefTransferEnd t q caldc s
  | .calRunAEnd t q => Sys2Proof.Machine.execCalRunAEnd t q s
  | .calRunBEnd t q agree => Sys2Proof.Machine.execCalRunBEnd t q agree s
  | .calCompareEnd t q point => Sys2Proof.Machine.execCalCompareEnd t q point s
  | .calRestoreEnd t q => Sys2Proof.Machine.execCalRestoreEnd t q s
  | .calStopDone t q => Sys2Proof.Machine.execCalStopDone t q s
  | .calHeldWordsEnd t q => Sys2Proof.Machine.execCalHeldWordsEnd t q s
  | .calResultsFormed t => Sys2Proof.Machine.execCalResultsFormed t s
  | .heldTriggerResume t q => Sys2Proof.Machine.execHeldTriggerResume t q s
  | .switchTimeout t q => Sys2Proof.Machine.execSwitchTimeout t q s
  | .changeover t q => Sys2Proof.Machine.execChangeover t q s
  | .gatherReopen t g => Sys2Proof.Machine.execGatherReopen t g s
  | .bgGatherDue t q => Sys2Proof.Machine.execBgGatherDue t q s
  | .quadTempReading t q temp => Sys2Proof.Machine.execQuadTempReading t q temp s
  | .lockWindowEnd t loop count word => Sys2Proof.Machine.execLockWindowEnd t loop count word s
  | .lockLost t loop => Sys2Proof.Machine.execLockLost t loop s
  | .bandSearchDone t band fine gain => Sys2Proof.Machine.execBandSearchDone t band fine gain s
  | .acquisitionDone t => Sys2Proof.Machine.execAcquisitionDone t s
  | .commonStart t => Sys2Proof.Machine.execCommonStart t s
  | .syncEdge t high fraction => Sys2Proof.Machine.execSyncEdge t high fraction s
  | .syncTimeout t => Sys2Proof.Machine.execSyncTimeout t s
  | .planHopTimeout t => Sys2Proof.Machine.execPlanHopTimeout t s
  | .refLost t => Sys2Proof.Machine.execRefLost t s
  | .refReturned t phase offset => Sys2Proof.Machine.execRefReturned t phase offset s
  | .slewEnd t phase => Sys2Proof.Machine.execSlewEnd t phase s
  | .fallbackSwitch t => Sys2Proof.Machine.execFallbackSwitch t s
  | .clockRestore t => Sys2Proof.Machine.execClockRestore t s
  | .fallbackStandby t => Sys2Proof.Machine.execFallbackStandby t s
  | .sampleClockStop t => Sys2Proof.Machine.execSampleClockStop t s
  | .sampleClockRestart t uncertainty => Sys2Proof.Machine.execSampleClockRestart t uncertainty s
  | .xoLost t => Sys2Proof.Machine.execXoLost t s
  | .keeperTrim t step => Sys2Proof.Machine.execKeeperTrim t step s
  | .sqRephaseDone t => Sys2Proof.Machine.execSqRephaseDone t s
  | .stimStartInstant t ch => Sys2Proof.Machine.execStimStartInstant t ch s
  | .stimDecisionPoint t ch => Sys2Proof.Machine.execStimDecisionPoint t ch s
  | .stimBoundary t ch => Sys2Proof.Machine.execStimBoundary t ch s
  | .stimEntryEffect t ch starved => Sys2Proof.Machine.execStimEntryEffect t ch starved s
  | .stimStopRampStart t ch => Sys2Proof.Machine.execStimStopRampStart t ch s
  | .stimStopRampEnd t ch => Sys2Proof.Machine.execStimStopRampEnd t ch s
  | .stimMuteRampEnd t ch => Sys2Proof.Machine.execStimMuteRampEnd t ch s
  | .segmentReadbackDone t => Sys2Proof.Machine.execSegmentReadbackDone t s
  | .monConversion t slot code ovr => Sys2Proof.Machine.execMonConversion t slot code ovr s
  | .monRefSettled t => Sys2Proof.Machine.execMonRefSettled t s
  | .railFault t rail => Sys2Proof.Machine.execRailFault t rail s
  | .pwrOkRise t straps => Sys2Proof.Machine.execPwrOkRise t straps s
  | .pwrOkFall t => Sys2Proof.Machine.execPwrOkFall t s
  | .perstNAssert t => Sys2Proof.Machine.execPerstNAssert t s
  | .perstNRelease t => Sys2Proof.Machine.execPerstNRelease t s
  | .selftestDone t result => Sys2Proof.Machine.execSelftestDone t result s
  | .lockTimeout t => Sys2Proof.Machine.execLockTimeout t s
  | .quadStartTimeout t q => Sys2Proof.Machine.execQuadStartTimeout t q s
  | .selfCalStart t => Sys2Proof.Machine.execSelfCalStart t s
  | .selfCalPhaseEnd t res => Sys2Proof.Machine.execSelfCalPhaseEnd t res s
  | .readyCallTimeout t => Sys2Proof.Machine.execReadyCallTimeout t s
  | .laneLockLost t port lane => Sys2Proof.Machine.execLaneLockLost t port lane s
  | .fastRetrainDone t port => Sys2Proof.Machine.execFastRetrainDone t port s
  | .boughBlockReceive t port block => Sys2Proof.Machine.execBoughBlockReceive t port block s
  | .blockReplayTimeout t port => Sys2Proof.Machine.execBlockReplayTimeout t port s
  | .messageAgeExpiry t port => Sys2Proof.Machine.execMessageAgeExpiry t port s
  | .unicast t port => Sys2Proof.Machine.execUnicast t port s
  | .up t port => Sys2Proof.Machine.execUp t port s
  | .flood t port => Sys2Proof.Machine.execFlood t port s
  | .path t port => Sys2Proof.Machine.execPath t port s
  | .hello t port => Sys2Proof.Machine.execHello t port s
  | .joinAccept t port => Sys2Proof.Machine.execJoinAccept t port s
  | .joinRefuse t port => Sys2Proof.Machine.execJoinRefuse t port s
  | .orphanNotice t port => Sys2Proof.Machine.execOrphanNotice t port s
  | .epochSet t port => Sys2Proof.Machine.execEpochSet t port s
  | .saplingSet t port => Sys2Proof.Machine.execSaplingSet t port s
  | .groveTrigger t pseq origin tick fraction gtn => Sys2Proof.Machine.execGroveTrigger t pseq origin tick fraction gtn s
  | .triggerRequest t port pseq origin tick fraction => Sys2Proof.Machine.execTriggerRequest t port pseq origin tick fraction s
  | .groveBroadcast t => Sys2Proof.Machine.execGroveBroadcast t s
  | .requestForward t => Sys2Proof.Machine.execRequestForward t s
  | .rangeReq t pseq t1 t1frac number arrival turnaround => Sys2Proof.Machine.execRangeReq t pseq t1 t1frac number arrival turnaround s
  | .rangeReply t port pseq turnaround arrival => Sys2Proof.Machine.execRangeReply t port pseq turnaround arrival s
  | .rangeResult t pseq mean => Sys2Proof.Machine.execRangeResult t pseq mean s
  | .pack t port pseq => Sys2Proof.Machine.execPack t port pseq s
  | .pframeResend t port => Sys2Proof.Machine.execPframeResend t port s
  | .rangeExchange t port => Sys2Proof.Machine.execRangeExchange t port s
  | .rangeComplete t port => Sys2Proof.Machine.execRangeComplete t port s
  | .trackingRange t port => Sys2Proof.Machine.execTrackingRange t port s
  | .orphanTimeout t => Sys2Proof.Machine.execOrphanTimeout t s
  | .saplingTimeout t => Sys2Proof.Machine.execSaplingTimeout t s
  | .smbIdent t => Sys2Proof.Machine.execSmbIdent t s
  | .smbEngine t => Sys2Proof.Machine.execSmbEngine t s
  | .smbBoot t => Sys2Proof.Machine.execSmbBoot t s
  | .smbPins t => Sys2Proof.Machine.execSmbPins t s
  | .smbTemps t => Sys2Proof.Machine.execSmbTemps t s
  | .smbUniqueId t => Sys2Proof.Machine.execSmbUniqueId t s
  | .smbEvents t => Sys2Proof.Machine.execSmbEvents t s
  | .smbWriteReject t => Sys2Proof.Machine.execSmbWriteReject t s
  | .smbAlertResponse t => Sys2Proof.Machine.execSmbAlertResponse t s
  | .tapReset t => Sys2Proof.Machine.execTapReset t s
  | .extest t cells => Sys2Proof.Machine.execExtest t cells s
  | .idcode t => Sys2Proof.Machine.execIdcode t s
  | .samplePreload t pins => Sys2Proof.Machine.execSamplePreload t pins s
  | .clamp t => Sys2Proof.Machine.execClamp t s
  | .highz t => Sys2Proof.Machine.execHighz t s
  | .extestPulse t cells => Sys2Proof.Machine.execExtestPulse t cells s
  | .extestTrain t cells => Sys2Proof.Machine.execExtestTrain t cells s
  | .bypass t => Sys2Proof.Machine.execBypass t s
  | .imageAuthDone t ok => Sys2Proof.Machine.execImageAuthDone t ok s
  | .blockLock t port lane => Sys2Proof.Machine.execBlockLock t port lane s
  | .smbusTimeout t => Sys2Proof.Machine.execSmbusTimeout t s
  | .pageTimerExpiry t pc => Sys2Proof.Machine.execPageTimerExpiry t pc s

end Sys2Proof.Machine
end

