-- ==== Sys2Proof/Safety.lean ====
section
/-!
DEFINITION. The terms in which statements are made: the canonical form of the engine's memories, the parts of the state that an operation leaves alone, and what becomes of a command that the engine takes.
-/
namespace Sys2Proof.Machine

/-- The addressed memories of the firmware are in canonical form: image memory, Sapwood SRAM, and the aperture's staging (R403). -/
def Firmware.wf (w : Firmware) : Bool := sparseWf w.image && sparseWf w.sram && sparseWf w.aperture

/-- Every addressed memory is in canonical form: the array (R168), the firmware's memories, the bootstrap mailbox (R331) and CAL_STAGING. -/
def State.memoriesWf (s : State) : Bool := s.mem.wf && s.fw.wf && sparseWf s.host.mailbox && sparseWf s.cal.staging

/-- What tells one pending register from another (R488): the event's code, its object, and the device that raised it. -/
def Event.register (e : Event) : Nat × Nat × Nat := (e.code, e.obj, e.devaddr)

/-- The event queue of R488: at most 1,024 entries, events pend only while it is full, and one for each register. -/
def Events.wf (ev : Events) : Bool :=
  ev.queue.length ≤ 1024 && (ev.pending.isEmpty || ev.queue.length = 1024) && decide (ev.pending.map Event.register).Nodup

/-- What every row keeps: the memories' canonical form, the rule of the event queue, and a rotation of the monitor among its ten channels (R316). -/
def State.wf (s : State) : Bool := s.memoriesWf && s.events.wf && decide (s.mon.rotation < 10)

/-- The parts of the state. -/
inductive Part where
  | now | board | clock | inputs | quads | banks | cal | units | tagged | decided | evaluated | groups | accs | trigouts | mem | rings
  | ring4 | paths | host | events | fw | shadows | stim | mon | grove | link | readValues | bar2Out | freeCount
deriving DecidableEq, Repr

/-- All of them. -/
def Part.all : List Part :=
  [.now, .board, .clock, .inputs, .quads, .banks, .cal, .units, .tagged, .decided, .evaluated, .groups, .accs, .trigouts, .mem, .rings,
    .ring4, .paths, .host, .events, .fw, .shadows, .stim, .mon, .grove, .link, .readValues, .bar2Out, .freeCount]

/-- A part is the same in two states. -/
def Part.same (p : Part) (s t : State) : Prop :=
  match p with
  | .now => t.now = s.now
  | .board => t.board = s.board
  | .clock => t.clock = s.clock
  | .inputs => t.inputs = s.inputs
  | .quads => t.quads = s.quads
  | .banks => t.banks = s.banks
  | .cal => t.cal = s.cal
  | .units => t.units = s.units
  | .tagged => t.tagged = s.tagged
  | .decided => t.decided = s.decided
  | .evaluated => t.evaluated = s.evaluated
  | .groups => t.groups = s.groups
  | .accs => t.accs = s.accs
  | .trigouts => t.trigouts = s.trigouts
  | .mem => t.mem = s.mem
  | .rings => t.rings = s.rings
  | .ring4 => t.ring4 = s.ring4
  | .paths => t.paths = s.paths
  | .host => t.host = s.host
  | .events => t.events = s.events
  | .fw => t.fw = s.fw
  | .shadows => t.shadows = s.shadows
  | .stim => t.stim = s.stim
  | .mon => t.mon = s.mon
  | .grove => t.grove = s.grove
  | .link => t.link = s.link
  | .readValues => t.readValues = s.readValues
  | .bar2Out => t.bar2Out = s.bar2Out
  | .freeCount => t.freeCount = s.freeCount

/-- From s the state t was reached, and only the listed parts may differ. -/
structure Frame (ps : List Part) (s t : State) : Prop where
  pending : t.pending = s.pending
  is96 : t.is96 = s.is96
  time : s.now ≤ t.now
  kept : s.wf = true → t.wf = true
  rest : ∀ p, ps.contains p = false → p.same s t

/-- A row at a tick was refused as ill formed, or ran and changed at most the listed parts once time had moved on to its tick. -/
def State.Changes (s : State) (t : Nat) (ps : List Part) (o : Host.Outcome State Fault Refusal) : Prop :=
  o = .refused .illFormed ∨ ∃ u, o = .next u ∧ Frame ps (s.advance t) u

/-- The same for a row after which waiting commands or service calls may go on: before they do, at most the listed parts have changed. -/
def State.ChangesThen (s : State) (t : Nat) (ps : List Part) (o : Host.Outcome State Fault Refusal) : Prop :=
  o = .refused .illFormed ∨ ∃ u, o = .next u.settle ∧ Frame ps (s.advance t) u

/-- Nothing can go on by itself: no path has a command that can be examined now, no service call is pending, and no SUBMIT awaits its reply. -/
def State.idle (s : State) : Prop :=
  (∀ p : Path, s.headReady p = none) ∧ s.fw.callQueue = [] ∧ ∀ c : Fin 4, (s.fw.cores.get c).submit = none

/-- The engine takes the packet of a command (R334, R335 steps 1 to 6): nothing else waits, and the header is that of a command for this device. -/
structure State.Reaches (s : State) (h : Hdr) (opcode : Nat) : Prop where
  idle : s.idle
  alone : (s.path h.path).queue = []
  awake : s.board.boot ≠ .reset ∧ s.board.boot ≠ .heartwood
  sapwood : s.board.boot = .init ∨ s.board.boot = .run → s.fw.restart = none
  sapling : h.path = .bough → s.grove.role = .sapling → opcode = 0x0B01
  flags : h.flags.toNat % 8 = 0 ∧ headerOk h = true
  source : s.sourceOk h = true
  dest : h.group = false ∧ h.dest.toNat = s.grove.devaddr ∨
    h.group = true ∧ 0xFF00 ≤ h.dest.toNat ∧ s.member h.dest.toNat = true ∧ ¬ (h.path = .pcie ∧ s.ringOn = true ∧ s.grove.role = .manager)

/-- It examines the command at once (R335 steps 7 and 8): its ticket is new too (R342). -/
structure State.Hears (s : State) (h : Hdr) (opcode : Nat) : Prop extends State.Reaches s h opcode where
  fresh : ∀ g, (s.path h.path).lastGen h.tag = some g → newerGen h.gen g = true

/-- The state in which such a command is examined: time has moved on to its tick, its generation is recorded, and it alone stands in its path's queue. -/
def State.heard (s : State) (h : Hdr) (opcode : Nat) (payload : Bytes) : State :=
  let s1 := s.advance h.tick
  (s1.onPath h.path fun p => { p.record h.tag h.gen with queue := [newEntry h opcode payload s1.now false 0 0] }).onFw fun w =>
    { w with turn := h.path.idx.val }

/-- What an executed command leaves once its reply has been handed to its path: it is counted and off the queue; an OK reply to a command with QUIET is not sent (R325, R346). -/
def State.answered (s : State) (h : Hdr) (opcode eng : Nat) (r : Reply) : State :=
  let s1 := s.onPath h.path fun p => { p with queue := [], cnt := { p.cnt with executed := p.cnt.executed + 1 } }
  if r.status = 0 ∧ h.quiet = true then (if h.path = .pcie ∧ ¬ s.ringOn then s1.onHost fun k => { k with bootBusy := false } else s1)
  else s1.handReply h.path (s.replyPacket h opcode eng r) h.ticket.toNat 0 0 0

/-- What a command leaves that is turned away: it is off the queue, its reply is sent, and replies of BAD_PACKET and STATE are counted (R335, R350). -/
def State.turned (s : State) (h : Hdr) (opcode : Nat) (payload : Bytes) (r : Reply) : State :=
  ((s.heard h opcode payload).onPath h.path fun p => { p with
    queue := [], cnt := { p.cnt with badPackets := p.cnt.badPackets + (if r.status = 4 then 1 else 0)
                                     stateReplies := p.cnt.stateReplies + (if r.status = 2 then 1 else 0) } }).handReply h.path
    (s.replyPacket h opcode s.engineState r) h.ticket.toNat 0 0 0

/-- What an executed command leaves whose reply waits for the end of an operation (R387). -/
def State.holding (s : State) (h : Hdr) (eng : Nat) (k : HeldKind) : State :=
  s.onPath h.path fun p => { p with
    queue := p.queue.map fun e => { e with phase := .held k eng }, cnt := { p.cnt with executed := p.cnt.executed + 1 } }

/-- The command runs and is answered at once: the next state is its effect on the state in which it was examined, and what its reply leaves. -/
def State.Does (s : State) (i : Instr) (h : Hdr) (opcode : Nat) (payload : Bytes) (r : Reply) (effect : State → State) : Prop :=
  exec i s = .next ((effect (s.heard h opcode payload)).answered h opcode s.engineState r)

/-- The command runs and its reply waits: the next state is its effect on the state in which it was examined, with the command held. -/
def State.Holds (s : State) (i : Instr) (h : Hdr) (opcode : Nat) (payload : Bytes) (k : HeldKind) (effect : State → State) : Prop :=
  exec i s = .next ((effect (s.heard h opcode payload)).holding h s.engineState k)

/-- The command is turned away with a reply and has no effect. -/
def State.Refuses (s : State) (i : Instr) (h : Hdr) (opcode : Nat) (payload : Bytes) (r : Reply) : Prop :=
  exec i s = .next (s.turned h opcode payload r)

/-- An event's next state is its effect on the state that time has brought to the event's tick. -/
def State.Turns (s : State) (i : Instr) (t : Nat) (effect : State → State) : Prop := exec i s = .next (effect (s.advance t))

/-- The same for an event that may let waiting commands or service calls go on. -/
def State.TurnsThen (s : State) (i : Instr) (t : Nat) (effect : State → State) : Prop := exec i s = .next (effect (s.advance t)).settle

/-- A core's service call is served at once (R410): Sapwood runs, nothing else waits, and no call is pending or waiting. -/
structure State.Calls (s : State) (core : Fin 4) : Prop where
  idle : s.idle
  sapwood : s.sapwood = true
  free : (s.fw.cores.get core).pending = false
  alone : s.callWaits = false

/-- The state in which such a call is served: time has moved on to its tick, and the core's window holds its arguments and its function. -/
def State.called (s : State) (t : Nat) (core : Fin 4) (func : Nat) (args : List Nat) : State :=
  (s.advance t).onCore core fun k => { k with args := args ++ k.args.drop args.length, pending := true, func := func }

/-- The call is served: the next state is its effect on the state in which it was made, and how it ends. -/
def State.Serves (s : State) (i : Instr) (t : Nat) (core : Fin 4) (func : Nat) (args : List Nat) (v : Served) (effect : State → State) : Prop :=
  exec i s = .next ((effect (s.called t core func args)).endCall core func v)

/-- What waited goes on once a call is served: further calls, commands, and submitted packets that came to nothing. -/
def State.goesOn (s : State) : State := (((State.serve 7 s).drainAll).settleSubmits).settle

/-- The same for a call that may let commands go on. -/
def State.ServesThen (s : State) (i : Instr) (t : Nat) (core : Fin 4) (func : Nat) (args : List Nat) (v : Served) (effect : State → State) : Prop :=
  exec i s = .next ((effect (s.called t core func args)).endCall core func v).goesOn

end Sys2Proof.Machine
end

