-- ==== Sys2Proof/Certificates/Slice0/Obligations.lean ====
section
/-!
DEFINITION. The statements for the provers, each under the rules of the spec it formalises.
-/
open Sys2Proof Sys2Proof.Machine

/-- The commands of the system family take effect (R332, R345, R358 to R361, R494). -/
def Obligations.SystemCommandsTakeEffect : Prop :=
  ∀ (s : State) (h : Hdr), s.engineState ∈ setQ →
    (∀ data : Bytes, s.Hears h 0x0000 → data.length % 4 = 0 → data.length ≤ 4088 → s.Does (.sysEcho h data) h 0x0000 data (Reply.ok data) id) ∧
    (s.Hears h 0x0001 → s.Does (.sysIdentify h) h 0x0001 [] (Reply.ok s.identity) id) ∧
    (s.Hears h 0x0002 → s.Does (.sysStatus h) h 0x0002 [] (Reply.ok (s.heard h 0x0002 []).sysStatus) id) ∧
    (∀ setup : BitVec 256, s.Hears h 0x0003 → h.path = .pcie → h.group = false → fld setup 96 13 = 0 → fld setup 1 63 = 0 → setupInvalid setup = false →
      (s.ringOn = true → s.host.cmdHead = s.host.cmdTail) →
      let t := ((s.heard h 0x0003 (leBytes 32 setup.toNat)).onHost fun k => { k with setup := some setup }).answered h 0x0003 s.engineState Reply.ok
      exec (.cmdRingSetup h setup) s = .next t.applySetup ∧
      (s.ringOn = false → t.applySetup.host = { t.host with ring := setup, setup := none, cmdTail := 0, cmdHead := 0 } ∧
        (t.applySetup.path .pcie).tags = [] ∧ t.applySetup.ring4.tail = 0 ∧ t.applySetup.ring4.head = 0)) ∧
    (∀ (tag : BitVec 12) (gen : BitVec 4), s.Hears h 0x0004 → h.group = false →
      let w : BitVec 32 := (tag ++ gen).setWidth 32
      let u := s.heard h 0x0004 (leBytes 4 w.toNat)
      let known := (u.path h.path).lastGen tag.toNat
      s.Does (.tagRetire h w) h 0x0004 (leBytes 4 w.toNat)
        (Reply.ok (leBytes 1 (if known = some gen.toNat then 0 else if (known.map fun g => newerGen gen.toNat g).getD true then 1 else 2) ++ zeros 3))
        fun v => v.onPath h.path fun p => if known = some gen.toNat ∨ (known.map fun g => newerGen gen.toNat g).getD true = false then p else p.record tag.toNat gen.toNat) ∧
    (s.Hears h 0x0005 →
      let t := ((s.heard h 0x0005 (leBytes 4 0xA55A)).onBoard fun k => { k with resetPending := true }).answered h 0x0005 s.engineState Reply.ok
      exec (.sysReset h 0xA55A) s = .next t.applyReset ∧ (s.ringOn = false → t.applyReset = t.toReset.leaveReset)) ∧
    (∀ n : BitVec 32, s.Hears h 0x0006 → 1 ≤ n.toNat → n.toNat ≤ 42 → (s.ringOn = false ∨ s.board.boot = .fault) →
      s.Does (.eventFetch h n) h 0x0006 (leBytes 4 n.toNat)
        (Reply.ok (leBytes 2 (s.events.queue.take n.toNat).length ++
          leBytes 2 (min 65535 (((s.events.fetch n.toNat).queue.length + (s.events.fetch n.toNat).pending.length))) ++ zeros 4 ++
          ((s.events.queue.take n.toNat).map Event.body).flatten))
        fun u => u.onEvents fun ev => ev.fetch n.toNat)

/-- CLOCK_PLAN, CLOCK_SYNC and GRID_TRIM take effect (R261, R266, R281, R362, R363). -/
def Obligations.ClockCommandsTakeEffect : Prop :=
  ∀ (s : State) (h : Hdr),
    (∀ plan : BitVec 128, s.Hears h 0x0101 → s.engineState ∈ [2, 4] → fld plan 0 24 = 0 → fld plan 32 32 = 0 → planValid plan = true →
      (s.board.boot ≠ .awaitImage → s.clock.sync = none ∧ s.clock.slew = none ∧ s.stim.enabled = false) →
      (s.board.boot = .awaitImage ∨ planKey plan = planKey s.clock.plan) →
      s.Does (.clockPlan h plan) h 0x0101 (leBytes 16 plan.toNat) Reply.ok fun u => u.onClock fun c =>
        { c with plan := plan, fbStandby := c.fbStandby && planFallback plan && planInteger plan }) ∧
    (∀ plan : BitVec 128, s.Hears h 0x0101 → s.engineState = 4 → fld plan 0 24 = 0 → fld plan 32 32 = 0 → planValid plan = true →
      s.clock.sync = none → s.clock.slew = none → s.stim.enabled = false → s.clock.drive ≠ .fallback → planKey plan ≠ planKey s.clock.plan →
      s.Holds (.clockPlan h plan) h 0x0101 (leBytes 16 plan.toNat) .planHop fun u =>
        let v := u.onClock fun c => { c with
          plan := plan, refJudged := false, refPresent := false, fbStandby := false, hop := some u.now, windows := true, goodWindows := 0 }
        if s.clock.drive = .stopped then v.coldLock else (v.onClock fun c => { c with loop := .coasting }).dropSnap) ∧
    (∀ (tick : BitVec 64) (timeout reserved : BitVec 16), s.Hears h 0x0102 → s.engineState ∈ [2, 4] → reserved = 0 → s.clock.sync = none → s.clock.slew = none →
      (s.board.boot ≠ .awaitImage → s.stim.enabled = false) → tick.toNat % 128 = 0 → timeout ≠ 0 → planInteger s.clock.plan = true → planSource s.clock.plan = 1 →
      s.Does (.clockSync h tick timeout reserved) h 0x0102 (leBytes 8 tick.toNat ++ leBytes 2 timeout.toNat ++ leBytes 2 reserved.toNat) Reply.deferred
        fun u => u.onClock fun c => { c with
          sync := some { syncTick := tick.toNat, timeoutMs := timeout.toNat, since := u.now, ticket := h.ticket.toNat, lows := 0 } }) ∧
    (∀ amount : BitVec 32, s.Hears h 0x0103 → s.engineState ∈ [4, 5, 6, 9] → s.clock.slew = none → amount.toInt.natAbs ≤ 50000 →
      s.Does (.gridTrim h amount) h 0x0103 (leBytes 4 amount.toNat) (if amount = 0 then Reply.ok else Reply.deferred) fun u =>
        if amount = 0 then u else u.startSlew .trim amount.toInt h.ticket.toNat 0)

/-- INPUT_CONFIG, QUAD_FUSION and QUAD_POWER take effect (R28, R35, R39, R364 to R366). -/
def Obligations.InputCommandsTakeEffect : Prop :=
  ∀ (s : State) (h : Hdr) (select : BitVec 32), s.engineState ∈ setC →
    (∀ cfg : BitVec 32, s.Hears h 0x0201 → select.toNat < 16 → fld cfg 16 12 = 0 → filterCode cfg ≠ 3 →
      ((s.inputs.get (Fin.ofNat 16 select.toNat)).cfg = cfg →
        s.Does (.inputConfig h select cfg) h 0x0201 (leBytes 4 select.toNat ++ leBytes 4 cfg.toNat) Reply.ok id) ∧
      ((s.inputs.get (Fin.ofNat 16 select.toNat)).cfg ≠ cfg → s.inUse (Fin.ofNat 16 select.toNat) = false →
        s.Holds (.inputConfig h select cfg) h 0x0201 (leBytes 4 select.toNat ++ leBytes 4 cfg.toNat) (.input select.toNat)
          fun u => u.onInput (Fin.ofNat 16 select.toNat) fun x => { x with cfg := cfg })) ∧
    (∀ (mode : BitVec 32) (q : Fin 4), s.Hears h 0x0202 → select.toNat = q.val → mode.toNat < 3 → (s.quads.get q).state.busy = false →
      (mode.toNat = (s.quads.get q).fusion ∨ s.quadInUse q (s.quads.get q).fusion = false ∧ s.quadInUse q mode.toNat = false) →
      ((s.quads.get q).fusion = mode.toNat →
        s.Does (.quadFusion h select mode) h 0x0202 (leBytes 4 select.toNat ++ leBytes 4 mode.toNat) Reply.ok id) ∧
      ((s.quads.get q).fusion ≠ mode.toNat → (s.quads.get q).state = .off →
        s.Does (.quadFusion h select mode) h 0x0202 (leBytes 4 select.toNat ++ leBytes 4 mode.toNat) Reply.ok
          fun u => u.onQuad q fun k => { k with fusion := mode.toNat }) ∧
      ((s.quads.get q).fusion ≠ mode.toNat → (s.quads.get q).state = .ready →
        s.Holds (.quadFusion h select mode) h 0x0202 (leBytes 4 select.toNat ++ leBytes 4 mode.toNat) (.fusion q.val)
          fun u => (u.quiesce q).onQuad q fun k => { k with fusion := mode.toNat, state := .retiming, since := u.now })) ∧
    (∀ (on : BitVec 32) (q : Fin 4), s.Hears h 0x0203 → select.toNat = q.val →
      (on = 0 → (s.quads.get q).state = .off →
        s.Does (.quadPower h select on) h 0x0203 (leBytes 4 select.toNat ++ leBytes 4 on.toNat) Reply.ok id) ∧
      (on = 0 → (s.quads.get q).state = .ready → s.quadInUse q (s.quads.get q).fusion = false →
        s.Does (.quadPower h select on) h 0x0203 (leBytes 4 select.toNat ++ leBytes 4 on.toNat) Reply.ok
          fun u => (u.quiesce q).onQuad q fun k => { k with state := .off, since := u.now }) ∧
      (on = 1 → (s.quads.get q).state = .off →
        s.Does (.quadPower h select on) h 0x0203 (leBytes 4 select.toNat ++ leBytes 4 on.toNat) Reply.deferred
          fun u => u.onQuad q fun k => { k with state := .powering, since := u.now, ticket := h.ticket.toNat }) ∧
      (on = 1 → (s.quads.get q).state = .ready ∨ (s.quads.get q).state = .retiming →
        s.Does (.quadPower h select on) h 0x0203 (leBytes 4 select.toNat ++ leBytes 4 on.toNat) Reply.ok id))

/-- TU_CONFIG, CMP_CONFIG, COMBINER_CONFIG, SW_TRIGGER and TRIGOUT_CONFIG take effect (R59 to R61, R76, R96, R97, R367 to R370). -/
def Obligations.TriggerCommandsTakeEffect : Prop :=
  ∀ (s : State) (h : Hdr) (select : BitVec 32),
    (∀ cfg : BitVec 256, s.Hears h 0x0301 → s.engineState ∈ setC → select.toNat < 8 → fld cfg 40 44 = 0 → fld cfg 1 21 = 0 →
      s.referenced select.toNat = false → fld cfg 28 4 ∈ permitted (fld cfg 32 8) → tuInvalid cfg = false →
      s.Does (.tuConfig h select cfg) h 0x0301 (leBytes 4 select.toNat ++ leBytes 32 cfg.toNat) Reply.ok fun u =>
        u.reconfigure fun v => v.onUnit (Fin.ofNat 8 select.toNat) fun x =>
          { x with cfg := cfg, cond := {}, last := none, atTick := none, cancels := x.cancels + (if x.atTick.isSome then 1 else 0) }) ∧
    (∀ cfg : BitVec 32, s.Hears h 0x0302 → s.engineState ∈ setC → select.toNat < 16 → fld cfg 0 4 = 0 → s.cmpMask select.toNat = 0 →
      s.Does (.cmpConfig h select cfg) h 0x0302 (leBytes 4 select.toNat ++ leBytes 4 cfg.toNat) Reply.ok fun u =>
        u.reconfigure fun v => v.onInput (Fin.ofNat 16 select.toNat) fun i => { i.cmpRestart with cmp := cfg }) ∧
    (∀ cfg : BitVec 128, s.Hears h 0x0303 → s.engineState ∈ setC → select.toNat < 4 → fld cfg 32 15 = 0 → fld cfg 0 12 = 0 →
      (s.groups.get (Fin.ofNat 4 select.toNat)).live = false →
      s.Does (.combinerConfig h select cfg) h 0x0303 (leBytes 4 select.toNat ++ leBytes 16 cfg.toNat) Reply.ok fun u =>
        u.onGroup (Fin.ofNat 4 select.toNat) fun g => { g with comb := cfg }) ∧
    (∀ (flags : BitVec 32) (tick : BitVec 64) (u : Fin 8), s.Hears h 0x0304 → s.engineState ∈ setW → select.toNat = u.val →
      (s.units.get u).on = true → (s.units.get u).source = 0x40 →
      (flags = 0 → tick = 0 → s.Does (.swTrigger h select flags tick) h 0x0304 (leBytes 4 select.toNat ++ leBytes 4 flags.toNat ++ leBytes 8 tick.toNat)
        (Reply.ok (leBytes 8 ((s.advance h.tick).groveAt ((s.advance h.tick).now - 1280))))
        fun v => v.tag { source := 0x40, rising := true, time := (v.now - 1280) * 2 ^ 32, unit := u.val }) ∧
      (flags = 1 → (s.units.get u).atTick = none → ((s.advance h.tick).now : Int) - 1280 ≤ (s.advance h.tick).internal tick.toNat →
        s.Does (.swTrigger h select flags tick) h 0x0304 (leBytes 4 select.toNat ++ leBytes 4 flags.toNat ++ leBytes 8 tick.toNat)
          (Reply.ok (leBytes 8 tick.toNat)) fun v => v.onUnit u fun x => { x with atTick := some (v.internal tick.toNat).toNat })) ∧
    (∀ (cfg : BitVec 64) (o : Fin 4), s.Hears h 0x0305 → s.engineState ∈ setC → select.toNat = o.val → fld cfg 11 17 = 0 → fld cfg 2 6 = 0 →
      (outSource cfg = 1 ∨ outSource cfg = 2 → fld cfg 28 16 ≠ 0) → (2 ≤ outSource cfg → outIndex cfg ≤ 3) →
      ((s.trigouts.get o).cfg = cfg → s.Does (.trigoutConfig h select cfg) h 0x0305 (leBytes 4 select.toNat ++ leBytes 8 cfg.toNat) Reply.ok id) ∧
      ((s.trigouts.get o).cfg ≠ cfg →
        s.Does (.trigoutConfig h select cfg) h 0x0305 (leBytes 4 select.toNat ++ leBytes 8 cfg.toNat) Reply.ok fun u =>
          let lag := 160 + outDelay cfg
          let g := vnat s.groups (outIndex cfg)
          u.onOut o fun t => { t with
            cfg := cfg, starts := [], high := t.high && outSource (s.trigouts.get o).cfg ≠ 3
            levels := if outSource cfg = 3 then
                (u.now + 1, g.armedAt (u.now + 1 - lag)) :: ((g.armedLog.filter fun x => u.now + 1 < x.1 + lag).reverse.map fun x => (x.1 + lag, x.2))
              else [] }))

/-- CAPTURE_CONFIG, DECIM_CONFIG, GROUP_ARM, GROUP_STOP, ACC_CONFIG and ACC_SNAPSHOT take effect (R100, R104, R105, R129, R140, R155, R371 to R373). -/
def Obligations.CaptureCommandsTakeEffect : Prop :=
  ∀ (s : State) (h : Hdr) (g : Fin 4),
    (∀ (select : BitVec 32) (cfg : BitVec 384), s.Hears h 0x0401 → s.engineState ∈ setC → select.toNat = g.val →
      fld cfg 240 24 = 0 → fld cfg 64 39 = 0 → fld cfg 0 41 = 0 → (s.groups.get g).live = false → capInvalid cfg = false →
      s.Does (.captureConfig h select cfg) h 0x0401 (leBytes 4 select.toNat ++ leBytes 48 cfg.toNat) Reply.ok fun u =>
        u.onGroup g fun x => { x with cap := cfg, state := if x.state = .off then .configured else x.state }) ∧
    (∀ (select : BitVec 32) (cfg : BitVec 128), s.Hears h 0x0402 → s.engineState ∈ setC → select.toNat = g.val →
      fld cfg 81 15 = 0 → fld cfg 5 59 = 0 → (s.groups.get g).live = false →
      decMode cfg ≤ 4 → 1 ≤ decFactor cfg → decFactor cfg ≤ 65536 → 4096 ≤ decRatio cfg → decRatio cfg ≤ 16777216 →
      s.Does (.decimConfig h select cfg) h 0x0402 (leBytes 4 select.toNat ++ leBytes 16 cfg.toNat) Reply.ok fun u =>
        u.onGroup g fun x => { x with dec := cfg }) ∧
    (∀ (w : BitVec 32) (place : Option Nat), s.Hears h 0x0403 → s.engineState ∈ setW → fld w 0 8 = g.val → w.toNat < 1024 →
      (s.groups.get g).state = .configured ∨ (s.groups.get g).state = .done →
      (s.heard h 0x0403 (leBytes 4 (w ||| 0x100#32).toNat)).groupCheck g = .ok place → (s.groups.get g).armWait = none →
      ((s.regrains ((s.reserve g place).holds g) (s.groups.get g).grain).isEmpty = true →
        s.Does (.groupArm h w) h 0x0403 (leBytes 4 (w ||| 0x100#32).toNat)
          (Reply.ok (((s.heard h 0x0403 (leBytes 4 (w ||| 0x100#32).toNat)).reserve g place).armNow g).2) fun u => ((u.reserve g place).armNow g).1) ∧
      ((s.regrains ((s.reserve g place).holds g) (s.groups.get g).grain).isEmpty = false →
        s.Holds (.groupArm h w) h 0x0403 (leBytes 4 (w ||| 0x100#32).toNat) (.arm g.val) fun u =>
          (u.reserve g place).onGroup g fun x => { x with armWait := some { path := h.path, reinit := true } })) ∧
    (∀ w : BitVec 32, s.Hears h 0x0403 → s.engineState ∈ setW → fld w 0 8 = g.val → w.toNat < 1024 →
      s.Does (.groupStop h w) h 0x0403 (leBytes 4 (w &&& 0xFFFFFEFF#32).toNat)
        (Reply.ok (leBytes 8 (if (s.groups.get g).live then (s.advance h.tick).groveAt ((s.advance h.tick).now - 1375) else 0)))
        fun u => u.stopGroup g (flag w 9)) ∧
    (∀ (select : BitVec 32) (cfg : BitVec 256), s.Hears h 0x0501 → s.engineState ∈ setC → select.toNat = g.val →
      fld cfg 128 31 = 0 → fld cfg 72 8 = 0 → fld cfg 2 62 = 0 → (s.groups.get g).live = false → accInvalid cfg = false →
      s.Does (.accConfig h select cfg) h 0x0501 (leBytes 4 select.toNat ++ leBytes 32 cfg.toNat) Reply.ok fun u =>
        u.onAcc g fun a => { a with cfg := cfg }) ∧
    (∀ (select : BitVec 32) (k : Nat), s.Hears h 0x0502 → s.engineState ∈ setW → select.toNat = g.val → (s.accs.get g).snaps = [] →
      (s.groups.get g).live = true → (s.accs.get g).mode ≠ 0 →
      (s.accs.get g).occupied.length + (if (s.accs.get g).restarts then 0 else 1) < (s.accs.get g).slots →
      (∀ t, (s.accs.get g).lastBegun = some t → snapInterval (s.groups.get g) (s.accs.get g) ≤ (s.advance h.tick).now - t) →
      (s.accs.get g).freeSlot = some k →
      s.Does (.accSnapshot h select) h 0x0502 (leBytes 4 select.toNat)
        (Reply.ok (leBytes 1 k ++ zeros 7 ++ leBytes 8 ((s.heard h 0x0502 (leBytes 4 select.toNat)).snapSeq g))) fun u => u.takeSnap g k false false)

/-- MEM_PORT_CONFIG, MEM_CONFIG, MEM_CLOCK, BAR2_SET and READOUT_RINGS take effect (R167, R174, R188, R190, R198, R374, R375). -/
def Obligations.MemoryCommandsTakeEffect : Prop :=
  ∀ (s : State) (h : Hdr),
    (∀ (select : BitVec 32) (cfg : BitVec 64), s.Hears h 0x0601 → s.engineState ∈ setS → select.toNat < 23 → fld cfg 4 28 = 0 → fld cfg 0 2 = 0 →
      s.portUsers select.toNat = 0 → (select.toNat = 0x15 → s.stim.enabled = false) → portCfgOk select.toNat cfg = true →
      s.Does (.memPortConfig h select cfg) h 0x0601 (leBytes 4 select.toNat ++ leBytes 8 cfg.toNat) Reply.ok fun u =>
        u.onMem fun m => m.onPort (Fin.ofNat 23 select.toNat) fun p => { p with cfg := cfg }) ∧
    (∀ cfg : BitVec 32, s.Hears h 0x0602 → s.engineState ∈ setS → fld cfg 16 16 = 0 → fld cfg 4 4 = 0 → 4 ≤ fld cfg 8 8 → 8 ≤ fld cfg 0 4 →
      s.Does (.memConfig h cfg) h 0x0602 (leBytes 4 cfg.toNat) Reply.ok fun u => u.onMem fun m => { m with cfg := cfg }) ∧
    (∀ rate : BitVec 32, s.Hears h 0x0603 → s.engineState ∈ [3, 4] → rate.toNat ≤ 3 → s.stim.enabled = false → s.mem.clock.queued = none →
      (s.mem.clock.phase = .idle → s.mem.clock.rate = rate.toNat → s.Does (.memClock h rate) h 0x0603 (leBytes 4 rate.toNat) Reply.ok id) ∧
      (s.mem.clock.phase = .idle → s.mem.clock.rate ≠ rate.toNat →
        s.Holds (.memClock h rate) h 0x0603 (leBytes 4 rate.toNat) .memClock fun u => u.startMemChange rate.toNat) ∧
      (s.mem.clock.phase ≠ .idle → s.mem.clock.target = rate.toNat →
        s.Does (.memClock h rate) h 0x0603 (leBytes 4 rate.toNat) Reply.deferred fun u =>
          u.onMem fun m => { m with clock := { m.clock with deferred := m.clock.deferred ++ [h.ticket.toNat] } }) ∧
      (s.mem.clock.phase ≠ .idle → s.mem.clock.target ≠ rate.toNat →
        s.Does (.memClock h rate) h 0x0603 (leBytes 4 rate.toNat) Reply.deferred fun u =>
          u.onMem fun m => { m with clock := { m.clock with queued := some (rate.toNat, h.ticket.toNat) } })) ∧
    (∀ base : BitVec 64, s.Hears h 0x0604 → s.engineState ∈ setS → base.toNat < 2 ^ 40 → base.toNat % 2 ^ 28 = 0 → base.toNat < s.memBytes →
      s.Does (.bar2Set h base) h 0x0604 (leBytes 8 base.toNat) Reply.ok fun u => u.onMem fun m => { m with bar2 := base.toNat }) ∧
    (∀ (select : BitVec 32) (cfg : BitVec 256) (g : Fin 4), s.Hears h 0x0701 → s.engineState ∈ setC → select.toNat = g.val → fld cfg 96 13 = 0 → fld cfg 3 45 = 0 →
      (s.groups.get g).live = false → (s.rings.get g).desc = none → (s.rings.get g).cpl.waiting = [] → ringsInvalid cfg = false →
      s.Does (.readoutRings h select cfg) h 0x0701 (leBytes 4 select.toNat ++ leBytes 32 cfg.toNat) Reply.ok fun u => u.onRing g fun r => { r with
        cfg := cfg, descTail := 0, descHead := 0, desc := none, delivery := none, items := r.items.map fun i => { i with ready := none }
        cpl := { CplRing.reset with fullWaits := r.cpl.fullWaits } })

/-- The commands of the calibration and monitor families take effect (R226, R227, R234, R250, R251, R315, R319, R376, R377, R380). -/
def Obligations.CalibrationCommandsTakeEffect : Prop :=
  ∀ (s : State) (h : Hdr),
    (∀ cfg : BitVec 64, s.Hears h 0x0801 → s.engineState ∈ setS → fld cfg 10 6 = 0 → fld cfg 4 4 = 0 → s.calBusy = false →
      (∀ g : Fin 4, (s.groups.get g).live = true → flag cfg g.val = flag s.cal.cfg g.val) →
      (calDc cfg = 0 ∨ 400000 ≤ calDc cfg ∧ calDc cfg ≤ 600000) → 10 ≤ bgPeriod cfg → fld cfg 8 2 < 2 →
      s.Does (.calConfig h cfg) h 0x0801 (leBytes 8 cfg.toNat) Reply.ok fun u => u.onCal fun c => { c with cfg := cfg }) ∧
    (∀ w : BitVec 32, s.Hears h 0x0802 → s.engineState ∈ [4, 5, 6, 9] → s.cal.run = none → onlyBits w.toNat 0x10F = true → fld w 0 4 ≠ 0 →
      (∀ q : Fin 4, flag w q.val = true → (s.quads.get q).state = .ready ∧ ∀ k ∈ ofQuad q, (s.banks.get k).link.faulted = false) → s.refinLocked = true →
      s.Does (.calRun h w) h 0x0802 (leBytes 4 w.toNat) Reply.deferred fun u => u.startRun (fld w 0 4) (flag w 8) h.ticket.toNat) ∧
    (s.Hears h 0x0803 → s.engineState = 8 →
      s.Does (.calAbort h) h 0x0803 [] Reply.ok State.abortRun) ∧
    (∀ (offset : BitVec 32) (data : Bytes), s.Hears h 0x0804 → s.engineState ∈ setS → s.calBusy = false → data.length % 4 = 0 → 4 ≤ data.length → data.length ≤ 4032 →
      offset.toNat % 4 = 0 → offset.toNat + data.length ≤ 131072 →
      s.Does (.calSetUpload h offset data) h 0x0804 (leBytes 4 offset.toNat ++ data) Reply.ok fun u =>
        u.onCal fun c => { c with staging := putSparse c.staging offset.toNat data }) ∧
    (s.Hears h 0x0805 → s.engineState ∈ setS → s.calBusy = false → setValid s.staged sinTable = true →
      s.Does (.calSetCommit h) h 0x0805 [] (Reply.ok (leBytes 4 s.cal.nextId)) fun u =>
        let x := putBytes s.staged 4 (leBytes 4 s.cal.nextId)
        u.setPends (withCrc (x.take (x.length - 4)))) ∧
    (∀ (w offset length : BitVec 32) (set : Bytes), s.Hears h 0x0806 → s.engineState ∈ setS → w.toNat ≤ 1 →
      (if w = 0 then s.cal.active else s.cal.pending) = some set → offset.toNat % 4 = 0 → offset.toNat < set.length →
      length.toNat % 4 = 0 → 4 ≤ length.toNat → length.toNat ≤ 4032 →
      s.Does (.calSetDownload h w offset length) h 0x0806 (leBytes 4 w.toNat ++ leBytes 4 offset.toNat ++ leBytes 4 length.toNat)
        (Reply.ok (leBytes 4 set.length ++ padWords ((set.drop offset.toNat).take length.toNat))) id) ∧
    (∀ select : BitVec 32, s.Hears h 0x0807 → s.engineState ∈ setS → select.toNat < 16 →
      s.Does (.calSliceQuery h select) h 0x0807 (leBytes 4 select.toNat)
        (Reply.ok ((s.banks.get (Fin.ofNat 16 select.toNat)).live.flatMap fun c =>
          leBytes 2 (unsigned 16 (liveUnits c).offset) ++ leBytes 2 (unsigned 16 (liveUnits c).gain) ++ leBytes 2 (unsigned 16 (liveUnits c).skew) ++ zeros 2)) id) ∧
    (∀ cfg : BitVec 32, s.Hears h 0x0A01 → s.engineState ∈ setS → fld cfg 8 22 = 0 → monRef cfg ≠ 3 →
      (monRef cfg = monRef s.mon.cfg ∨ ∀ n < 8, s.winReferenced n = false) →
      s.Does (.monConfig h cfg) h 0x0A01 (leBytes 4 cfg.toNat) Reply.ok fun u => u.onMon fun m =>
        if monRef cfg = monRef m.cfg then { m with cfg := cfg } else { m with cfg := cfg, settled := false, before := m.settledAt u.now, fellAt := u.now }) ∧
    (∀ (select : BitVec 32) (cfg : BitVec 64), s.Hears h 0x0A02 → s.engineState ∈ setS → select.toNat < 8 → fld cfg 48 11 = 0 → fld cfg 1 11 = 0 →
      s.winReferenced select.toNat = false → winLow cfg ≤ winHigh cfg → 2 * winHyst cfg ≤ winHigh cfg - winLow cfg →
      s.Does (.monWindowSet h select cfg) h 0x0A02 (leBytes 4 select.toNat ++ leBytes 8 cfg.toNat) Reply.ok fun u => u.onMon fun m =>
        { m with windows := vmod m.windows (Fin.ofNat 8 select.toNat) fun w => { w with cfg := cfg, outside := false } })

/-- SEQ_CONFIG, SEQ_SEGMENT_DEFINE, SEQ_LIST_WRITE, SEQ_LIST_READ, SEQ_SEGMENT_READY and SEQ_STEP_WRITE take effect (R287, R288, R292 to R295, R378). -/
def Obligations.StimulusTablesAreWritten : Prop :=
  ∀ (s : State) (h : Hdr), s.engineState ∈ setT →
    (∀ cfg : BitVec 128, s.Hears h 0x0901 → fld cfg 6 2 = 0 → fld cfg 2 2 = 0 → s.stim.enabled = false → seqInvalid cfg = false →
      s.Does (.seqConfig h cfg) h 0x0901 (leBytes 16 cfg.toNat) Reply.ok fun u => u.onStim fun q => { q with cfg := cfg }) ∧
    (∀ (select : BitVec 32) (d : BitVec 128), s.Hears h 0x0902 → select.toNat < 4096 → flag d 0 = false → s.stim.segActive select.toNat = false →
      s.stim.segInvalid select.toNat d = false → (s.stim.enabled = true → (s.onStim fun q => q.define select.toNat d).seqCheck = none) →
      s.Does (.seqSegmentDefine h select d) h 0x0902 (leBytes 4 select.toNat ++ leBytes 16 d.toNat) Reply.ok fun u => u.onStim fun q => q.define select.toNat d) ∧
    (∀ (select first : BitVec 32) (es : List (BitVec 128)), s.Hears h 0x0903 → select.toNat < 65536 → 1 ≤ es.length → es.length ≤ 255 →
      (∀ e ∈ es, fld e 2 2 = 0) → s.stim.segActive select.toNat = false → s.stim.listOk select.toNat first.toNat es.length = true →
      s.Does (.seqListWrite h select first es) h 0x0903 (leBytes 4 select.toNat ++ leBytes 4 first.toNat ++ (es.map fun e => leBytes 16 e.toNat).flatten) Reply.ok
        fun u => u.onStim fun q =>
          let d := q.seg select.toNat
          let q1 := q.putEntries (segFirst d + first.toNat) es
          { q1 with segs := putAssoc q1.segs select.toNat (withUpdates d (q1.sumUpdates d)) }) ∧
    (∀ (select count first : BitVec 32), s.Hears h 0x0983 → select.toNat < 65536 → 1 ≤ count.toNat → count.toNat < 256 →
      s.stim.listOk select.toNat first.toNat count.toNat = true →
      s.Does (.seqListRead h select count first) h 0x0983 (leBytes 4 select.toNat ++ leBytes 4 count.toNat ++ leBytes 4 first.toNat)
        (Reply.ok ((List.range count.toNat).map fun k => leBytes 16 (s.segEntry select.toNat (first.toNat + k)).toNat).flatten) id) ∧
    (∀ (select crc : BitVec 32), s.Hears h 0x0904 → select.toNat < 65536 → s.stim.segActive select.toNat = false → segKind (s.stim.seg select.toNat) = 2 →
      s.Holds (.seqSegmentReady h select crc) h 0x0904 (leBytes 4 select.toNat ++ leBytes 4 crc.toNat) (.readback select.toNat) fun u =>
        u.onStim fun q => { q with readback := q.readback ++ [(select.toNat, crc.toNat)] }) ∧
    (∀ (select : BitVec 32) (t : BitVec 128), s.Hears h 0x0905 → select.toNat < 1024 → fld t 88 4 = 0 → fld t 0 57 = 0 → s.stim.stepActive select.toNat = false →
      stepSegment t + stepRing t ≤ 4096 → (s.stim.enabled = true → (s.onStim fun q => { q with steps := putAssoc q.steps select.toNat t }).seqCheck = none) →
      s.Does (.seqStepWrite h select t) h 0x0905 (leBytes 4 select.toNat ++ leBytes 16 t.toNat) Reply.ok fun u =>
        u.onStim fun q => { q with steps := putAssoc q.steps select.toNat t })

/-- SEQ_ENABLE, SEQ_DISABLE, SEQ_START, SEQ_STOP in both modes and SEQ_JUMP take effect (R297 to R302, R378, R379). -/
def Obligations.StimulusControlTakesEffect : Prop :=
  ∀ (s : State) (h : Hdr), s.engineState ∈ setT →
    (∀ w : BitVec 32, s.Hears h 0x0906 → w.toNat ≤ 1 →
      (s.stim.enabled = true → s.Does (.seqEnable h w) h 0x0906 (leBytes 4 1) Reply.ok id) ∧
      (s.stim.enabled = false → s.seqCheck = none → s.seqRegrains = [] → s.clock.sqRephase = false →
        s.Does (.seqEnable h w) h 0x0906 (leBytes 4 1) Reply.ok fun u => (u.onStim fun q => { q with enabled := true }).seqIdle) ∧
      (s.stim.enabled = false → s.seqCheck = none → (s.seqRegrains ≠ [] ∨ s.clock.sqRephase = true) →
        s.Holds (.seqEnable h w) h 0x0906 (leBytes 4 1) .seqEnable fun u => u.onStim fun q => { q with enabled := true })) ∧
    (∀ w : BitVec 32, s.Hears h 0x0906 → w.toNat ≤ 1 → (∀ c : Fin 2, (s.stim.chs.get c).state = .off ∨ (s.stim.chs.get c).state = .idle) →
      s.Does (.seqDisable h w) h 0x0906 (leBytes 4 0) Reply.ok fun u =>
        u.onStim fun q => { q with enabled := false, chs := q.chs.map fun (k : StimCh) => { k with state := .off } }) ∧
    (∀ w : BitVec 128, s.Hears h 0x0907 → onlyBits (fld w 0 32) 0x103 = true → (flag w 8 = false → fld w 64 64 = 0) → fld w 0 2 ≠ 0 →
      (∀ c : Fin 2, flag w c.val = false → fld w (32 + 16 * c.val) 16 = 0) →
      (∀ c : Fin 2, flag w c.val = true → (s.stim.chs.get c).state = .idle ∧ (assoc s.stim.steps (fld w (32 + 16 * c.val) 16)).isSome = true) →
      (flag w 8 = true → 4096 ≤ signed 64 (unsigned 64 ((fld w 64 64 : Int) - (s.advance h.tick).grove64))) →
      let n := dacFrom (if flag w 8 then fld w 64 64 else (s.advance h.tick).grove64 + 4096)
      s.Does (.seqStart h w) h 0x0907 (leBytes 16 w.toNat) (Reply.ok (leBytes 8 (dacTick n))) fun u =>
        u.each (two.filter fun c => flag w c.val) fun v c => v.onCh c fun k => { k with
          state := .waiting, startAt := n, startStep := fld w (32 + 16 * c.val) 16, judgeAt := v.grove64 + 4096, decided := [] }) ∧
    (∀ w : BitVec 32, s.Hears h 0x0908 → fld w 2 6 = 0 → w.toNat < 512 →
      let b := leBytes 4 (w &&& 0xFFFFFEFF#32).toNat
      let x := if flag w 0 then (s.heard h 0x0908 b).stopNow 0 else (s.heard h 0x0908 b, 0)
      let y := if flag w 1 then x.1.stopNow 1 else (x.1, 0)
      s.Does (.seqStopNow h w) h 0x0908 b (Reply.ok (leBytes 8 x.2 ++ leBytes 8 y.2)) fun _ => y.1) ∧
    (∀ w : BitVec 32, s.Hears h 0x0908 → fld w 2 6 = 0 → w.toNat < 512 →
      let b := leBytes 4 (w ||| 0x100#32).toNat
      let x := if flag w 0 then (s.heard h 0x0908 b).stopBoundary 0 else (s.heard h 0x0908 b, 0)
      let y := if flag w 1 then x.1.stopBoundary 1 else (x.1, 0)
      s.Does (.seqStopBoundary h w) h 0x0908 b (Reply.ok (leBytes 8 x.2 ++ leBytes 8 y.2)) fun _ => y.1) ∧
    (∀ (w : BitVec 32) (c : Fin 2), s.Hears h 0x0909 → w.toNat = c.val → (s.stim.chs.get c).state = .playing →
      let d := (s.advance h.tick).requestAt c
      d.ends = false → stepByCommand (s.stim.step d.step) = true →
      s.Does (.seqJump h w) h 0x0909 (leBytes 4 w.toNat)
        (Reply.ok (leBytes 8 (d.seq + 1) ++ leBytes 8 (dacTick (d.nextAt (seqPeriod s.stim.cfg c.val))) ++ leBytes 2 (stepTarget (s.stim.step d.step)) ++ zeros 6))
        fun u => u.onCh c fun k => { k with jumpSeq := some (d.seq + 1) }) ∧
    (∀ c : Fin 2,
      ((s.stim.chs.get c).state = .waiting → s.stopNow c = (s.onCh c fun k => { k with state := .idle, lastEnd := .stopped, decided := [] }, s.grove64) ∧
        s.stopBoundary c = s.stopNow c) ∧
      ((s.stim.chs.get c).state = .playing → (s.stim.chs.get c).stopRamp = none →
        let n := dacFrom (s.grove64 + 4096)
        s.stopNow c = (s.onCh c fun k => { k with stopRamp := some (k.stopRamp.getD (n, 0)) }, dacTick (n + 64 * seqPeriod s.stim.cfg c.val))) ∧
      ((s.stim.chs.get c).state = .off ∨ (s.stim.chs.get c).state = .idle → s.stopNow c = (s, 0) ∧ s.stopBoundary c = (s, 0)))

/-- The commands of the grove family take effect (R280, R281, R381 to R383, R423, R443, R445, R446, R452). -/
def Obligations.GroveCommandsTakeEffect : Prop :=
  ∀ (s : State) (h : Hdr),
    (∀ probe : BitVec 128, s.Hears h 0x0B01 → h.path = .bough → s.engineState ∈ setW → fld probe 20 12 = 0 → fld probe 49 15 = 0 → fld probe 32 16 = 0 →
      fld probe 64 64 = 0 → 1 ≤ fld probe 16 4 → fld probe 16 4 ≤ 8 →
      s.Does (.enumProbe h probe) h 0x0B01 (leBytes 16 (probe &&& 0xFFFFFFFFFFFFFFFFFFFEFFFFFFFFFFFF#128).toNat)
        (Reply.ok (s.identity ++ leBytes 1 s.portsUp ++ zeros 7)) id) ∧
    (∀ probe : BitVec 128, s.Hears h 0x0B01 → h.path = .bough → s.engineState ∈ setW → fld probe 20 12 = 0 → fld probe 49 15 = 0 → fld probe 32 16 ≠ 0 →
      1 ≤ fld probe 16 4 → fld probe 16 4 ≤ 8 →
      let b := leBytes 16 (probe ||| 0x1000000000000#128).toNat
      let t := (((s.heard h 0x0B01 b).onGrove fun g => { g with
        devaddr := fld probe 32 16, aligned := g.aligned && g.role = .worker, role := .worker, epoch := fld probe 64 32, bound := fld probe 96 32
        depth := fld probe 16 4, manager := h.source.toNat, hasManager := true }).clearBoughTags).rejudge.sayHello
      s.Does (.enumProbeAssign h probe) h 0x0B01 b (Reply.ok (t.identity ++ leBytes 1 t.portsUp ++ zeros 7)) fun _ => t) ∧
    (∀ mcast : BitVec 256, s.Hears h 0x0B02 → s.engineState ∈ setW →
      s.Does (.groveConfig h mcast) h 0x0B02 (leBytes 32 mcast.toNat) Reply.ok fun u =>
        u.onGrove fun g => { g with mcast := mcast ||| BitVec.ofNat 256 (1 <<< 255) }) ∧
    (∀ (w : BitVec 32) (p : Fin 5), s.Hears h 0x0B03 → h.group = false → s.engineState ∈ setW → p.val = 1 + w.toNat → (s.port p).link = .up →
      s.Does (.groveRange h w) h 0x0B03 (leBytes 4 w.toNat) Reply.deferred fun u => u.startRange p [h.ticket.toNat]) ∧
    (∀ (ticks : BitVec 64) (fs reserved : BitVec 32), s.Hears h 0x0B04 → s.engineState = 4 → reserved = 0 → s.clock.slew = none → s.clock.sync = none →
      s.stim.enabled = false → fs.toInt.natAbs ≤ 50000 →
      s.Does (.groveAlign h ticks fs reserved) h 0x0B04 (leBytes 8 ticks.toNat ++ leBytes 4 fs.toNat ++ leBytes 4 reserved.toNat)
        (if fs = 0 then Reply.ok else Reply.deferred) fun u =>
          let v := (u.load ticks.toInt).onGrove fun g => { g with aligned := true }
          if fs = 0 then v else v.startSlew .align fs.toInt h.ticket.toNat 0) ∧
    (s.Hears h 0x0B05 → h.group = false → h.path = .pcie → s.engineState = 9 → s.grove.role = .orphanRoot →
      let v := (((s.heard h 0x0B05 []).leaveOrphan .manager ((s.grove.epoch + 1) % 2 ^ 32) s.grove.devaddr).onGrove fun g =>
        { g with gtn := 1, lastBroadcast := none, requests := [], rejoin := none })
      let t := ((v.sendDown (v.linkMsg 5 .worker)).rejudge).sayHello
      s.Does (.promote h) h 0x0B05 [] (Reply.ok (leBytes 4 t.grove.epoch)) fun _ => t) ∧
    (s.Hears h 0x0B06 → h.group = false → h.path = .pcie → s.engineState ∈ setW → (s.grove.role = .manager ∨ s.grove.role.orphan = true) →
      s.Does (.demote h) h 0x0B06 [] Reply.ok fun u =>
        let v := (u.onGrove fun g => { g with epoch := 0 }).enterOrphan .orphanRoot
        (v.sendDown (v.linkMsg 5 .orphanMember)).sayHello) ∧
    (s.Hears h 0x0B07 → s.engineState ∈ setQ →
      s.Does (.groveStatus h) h 0x0B07 [] (Reply.ok (leBytes 2 s.grove.devaddr ++ leBytes 1 s.grove.role.code ++ leBytes 1 s.grove.depth ++
        leBytes 4 s.grove.epoch ++ leBytes 4 s.grove.bound ++ leBytes 1 s.portsUp ++ zeros 3 ++
        (dn.map fun p => leBytes 4 (if (s.port p).ranged then unsigned 32 (s.port p).delay else 0)).flatten)) id)

/-- KEY_INSTALL, IMAGE_LOAD and IMAGE_START take effect (R384, R385, R401); that the point lies on P-384 is judged with the constants of log 26 (PRESUMED). -/
def Obligations.FirmwareCommandsTakeEffect : Prop :=
  ∀ (s : State) (h : Hdr), s.board.boot = .awaitImage → h.path = .pcie → h.group = false →
    (∀ x y : BitVec 384, s.Hears h 0x0C01 → s.fw.ownerKey = none → onCurve x.toNat y.toNat = true →
      s.Does (.keyInstall h x y) h 0x0C01 (leBytes 48 x.toNat ++ leBytes 48 y.toNat) Reply.ok fun u =>
        u.onFw fun w => { w with ownerKey := some (x.toNat + 2 ^ 384 * y.toNat) }) ∧
    (∀ (offset : BitVec 32) (data : Bytes), s.Hears h 0x0C02 → data.length % 4 = 0 → 4 ≤ data.length → data.length ≤ 4080 → offset.toNat % 4 = 0 →
      offset.toNat + data.length ≤ 2 ^ 24 →
      s.Does (.imageLoad h offset data) h 0x0C02 (leBytes 4 offset.toNat ++ data) Reply.ok fun u =>
        u.onFw fun w => { w with image := putSparse w.image offset.toNat data }) ∧
    (∀ total : BitVec 32, s.Hears h 0x0C03 → total.toNat % 4 = 0 → total.toNat ≤ 2 ^ 24 →
      s.Holds (.imageStart h total) h 0x0C03 (leBytes 4 total.toNat) .imageAuth fun u => u.onFw fun w => { w with auth := some total.toNat })

/-- The events of the clock loops up to the common start have their effect (R261 to R267, R271, R272, R274). -/
def Obligations.ClockLoopEventsTakeEffect : Prop :=
  ∀ (s : State) (t : Nat),
    (∀ count word : Nat, s.clock.loop = .acquiring → s.clock.windows = true →
      let want := planExpected s.clock.plan
      let dev := max count want - min count want
      let judged := !s.clock.refJudged && 100000 * dev ≤ want
      let good := if dev ≤ 2 then min 4 (s.clock.goodWindows + 1) else 0
      s.TurnsThen (.lockWindowEnd t .main count word) t fun v =>
        let u := v.onClock fun c => { c with
          words := (word, v.now) :: c.words.take 3, refJudged := c.refJudged || judged, refPresent := c.refPresent || judged, goodWindows := good }
        if good = 4 then u.coldLocked else u) ∧
    (∀ count word : Nat, s.clock.loop = .locked → s.clock.refPresent = true → s.clock.refJudged = true →
      8 < max count (planExpected s.clock.plan) - min count (planExpected s.clock.plan) →
      s.TurnsThen (.lockWindowEnd t .main count word) t fun v => (v.onClock fun c => { c with words := (word, v.now) :: c.words.take 3 }).mainLost) ∧
    (s.clock.loop = .locked ∨ s.clock.loop = .coasting →
      let fallen := s.clock.drive = .main ∧ s.clock.fbStandby = true ∧ s.clock.loop = .locked
      s.TurnsThen (.lockLost t .main) t fun v =>
        let u := v.onClock fun c => { c with cnt := { c.cnt with lockLosses := c.cnt.lockLosses + 1 } }
        State.coldLock <|
          if s.clock.drive = .fallback then u
          else if s.clock.drive = .stopped then u.onClock fun c => { c with switch := none }
          else if fallen then u.dropSnap.onClock fun c => { c with switch := some (v.beatFrom (v.now + 64), .toFallback) }
          else u.dropSnap.scheduleStop) ∧
    (s.TurnsThen (.lockLost t .fallback) t fun v =>
      let u := v.onClock fun c => { c with fbStandby := false }
      if s.clock.drive ≠ .fallback then u
      else if s.clock.loop = .locked then u.onClock fun c => { c with switch := some (v.beatFrom (v.now + 1), .toMain) }
      else u.scheduleStop) ∧
    (∀ band fine gain : Nat, s.clock.loop = .searching →
      s.Turns (.bandSearchDone t band fine gain) t fun v => v.onClock fun c =>
        let e : BandEntry := BandEntry.mk (planSource c.plan) (planFreq c.plan) (planScaler c.plan) (band % 64) fine gain v.dieCode
        { c with loop := .acquiring, band := band % 64, fine := fine
                 cache := (e :: c.cache.filter fun x => (x.source, x.freq, x.scaler) ≠ planKey c.plan).take 16 }) ∧
    (s.clock.loop = .acquiring → s.clock.windows = false →
      s.Turns (.acquisitionDone t) t fun v => v.onClock fun c => { c with windows := true, goodWindows := 0 }) ∧
    (∀ d : CommonDue, s.clock.commonDue = some d → d.due ≤ max s.now t → s.clock.t0 = none → s.board.boot = .init ∨ s.board.boot = .run →
      s.Turns (.commonStart t) t (fun v => v.startCommon d) ∧
      ((s.advance t).startCommon d).clock = { (s.advance t).clock with
        off := (d.start : Int) - (s.advance t).now, t0 := some d.start, drive := .main, commonDue := none, firstDelivered := (s.advance t).now
        keeper := { s.clock.keeper with count := d.start * 2 ^ 32, noted := (s.advance t).now } } ∧
      ∀ q : Fin 4, (((s.advance t).startCommon d).quads.get q).state = .powering) ∧
    (∀ (w : SyncWait) (fraction : BitVec 32), s.clock.sync = some w → s.board.boot = .init ∨ s.board.boot = .run → s.clock.commonDue = none →
      s.clock.t0.isSome = true ∨ s.clock.loop = .locked →
      s.Turns (.syncEdge t false fraction) t (fun v => v.onClock fun c => { c with sync := some { w with lows := w.lows + 1 } }) ∧
      (2 ≤ w.lows → s.clock.t0 = none → s.Turns (.syncEdge t true fraction) t fun v => v.onClock fun c =>
        { c with sync := none, commonDue := some { due := v.now + 204800, start := w.syncTick, sync := some (w.ticket, 0) } }) ∧
      (2 ≤ w.lows → s.clock.t0.isSome = true → s.clock.slew = none → s.groups.any Group.live = false → s.stim.enabled = false →
        s.Turns (.syncEdge t true fraction) t fun v => v.syncRealign w fraction.toNat) ∧
      (w.since + w.timeoutMs * 20000000 ≤ max s.now t →
        (s.clock.t0 = none → s.Turns (.syncTimeout t) t fun v => v.onClock fun c =>
          { c with sync := none, commonDue := some { due := v.now, start := w.syncTick, sync := some (w.ticket, 1) } }) ∧
        (s.clock.t0.isSome = true → s.Turns (.syncTimeout t) t fun v =>
          (v.onClock fun c => { c with sync := none }).raise { code := 0x0188, vals := [1, 0], ticket := w.ticket }))) ∧
    (∀ start : Nat, s.clock.hop = some start → start + 2000000000 ≤ max s.now t →
      s.TurnsThen (.planHopTimeout t) t fun v => (v.onClock fun c => { c with hop := none }).finish .planHop Reply.ok)

/-- The events of the reference, the switches of the phase generator and the keeper have their effect (R262, R268 to R275, R278, R281, R285). -/
def Obligations.ClockSwitchEventsTakeEffect : Prop :=
  ∀ (s : State) (t : Nat),
    (s.clock.refPresent = true →
      let locked := s.clock.loop = .locked
      s.Turns (.refLost t) t fun v =>
        let word := ((s.clock.words.find? fun x => x.2 + 640000000000000 / planPfd2 s.clock.plan ≤ v.now).map Prod.fst).getD s.clock.coastWord
        let u := (v.onClock fun c => { c with
          refPresent := false, fbStandby := false, refJudged := false, coastWord := word, cnt := { c.cnt with refLosses := c.cnt.refLosses + 1 } }).raise { code := 0x0181 }
        let w := if locked then u.onClock fun c => { c with loop := .coasting } else u
        State.runNoRefin <| State.dropSnap <|
          if s.clock.drive ≠ .fallback then w
          else if locked then w.onClock fun c => { c with switch := some (v.beatFrom (v.now + 1), .toMain) }
          else w.scheduleStop) ∧
    (∀ phase offset : Int, s.clock.refPresent = false → s.clock.loop ≠ .off →
      s.Turns (.refReturned t phase offset) t fun v =>
        let u := (v.onClock fun c => { c with
          refPresent := true, refJudged := true, refPhaseStep := phase, refOffset := offset, loop := if c.loop = .coasting then .locked else c.loop }).raise
            { code := 0x0182, vals := [unsigned 64 phase] }
        if planSnap s.clock.plan = false ∨ s.clock.loop ≠ .coasting ∨ phase = 0 then u
        else if s.clock.slew.isSome then u.onClock fun c => { c with snapWaiting := true }
        else u.startSlew .snap (-phase) 0 0) ∧
    (∀ (w : Slew) (phase : Int), s.clock.slew = some w → w.start + 20 * w.amount.natAbs ≤ max s.now t →
      s.Turns (.slewEnd t phase) t fun v =>
        let u := v.endSlew w.endsAt
        if s.clock.snapWaiting = false then u
        else
          let x := u.onClock fun c => { c with snapWaiting := false, refPhaseStep := phase }
          if phase = 0 then x else x.startSlew .snap (-phase) 0 0) ∧
    (∀ x : Nat, s.clock.switch = some (x, .toFallback) → x ≤ max s.now t →
      s.Turns (.fallbackSwitch t) t fun v =>
        if s.clock.fbStandby = true then
          ((v.onClock fun c => { c with
            fbStandby := false, drive := .fallback, switch := none, suspect := c.suspect ++ [(x, some x)]
            cnt := { c.cnt with fallbackSwitches := c.cnt.fallbackSwitches + 1 } }).raiseAt { code := 0x0183 } (v.groveAt x)).runNoRefin
        else (v.onClock fun c => { c with switch := none }).scheduleStop) ∧
    (∀ x : Nat, s.clock.drive = .fallback →
      (s.clock.switch = some (x, .toMain) ∧ x ≤ max s.now t ∨ s.clock.switch = none ∧ s.clock.loop = .locked ∧ x = (s.advance t).beatFrom (max s.now t)) →
      s.Turns (.clockRestore t) t fun v =>
        (v.onClock fun c => { c with
          drive := .main, switch := none, suspect := c.suspect ++ [(x, some x)], cnt := { c.cnt with fallbackSwitches := c.cnt.fallbackSwitches + 1 } }).raiseAt
            { code := 0x0184 } (v.groveAt x)) ∧
    (s.clock.drive = .main → s.clock.switch = none → planFallback s.clock.plan = true → planInteger s.clock.plan = true → s.clock.refPresent = true →
      s.Turns (.fallbackStandby t) t fun v => v.onClock fun c => { c with fbStandby := true }) ∧
    (∀ x : Nat, s.clock.switch = some (x, .stop) → x ≤ max s.now t →
      let v := s.advance t
      s.Turns (.sampleClockStop t) t (fun v => v.stopClocks x) ∧
      (v.stopClocks x).clock.drive = .stopped ∧ (v.stopClocks x).clock.switch = none ∧ (v.stopClocks x).clock.fbStandby = false ∧
        (v.stopClocks x).clock.keeper = { count := v.groveAt x * 2 ^ 32, noted := x, step := (v.stopClocks x).clock.keeper.step }) ∧
    (∀ (x uncertainty : Nat), s.clock.switch = some (x, .restart) → x ≤ max s.now t → s.board.boot = .init ∨ s.board.boot = .run →
      s.clock.loop = .locked ∨ s.clock.loop = .coasting →
      let v := s.advance t
      let g := v.groveAt x
      let tr : Int := (g : Int) + 400000 + ((s.clock.t0.getD 0 - ((g : Int) + 400000)) % 128)
      s.Turns (.sampleClockRestart t uncertainty) t (fun v => v.restartClocks x uncertainty) ∧
      (v.restartClocks x uncertainty).clock = { v.clock with
        off := (g : Int) - x, drive := .main, switch := none, firstDelivered := (tr - ((g : Int) - x)).toNat }) ∧
    (s.clock.xoPresent = true →
      s.TurnsThen (.xoLost t) t fun v => (v.onClock fun c => { c with xoPresent := false, loop := .off, fbStandby := false }).fatal 0x0107 0xF) ∧
    (∀ step : Nat, s.clock.drive ≠ .stopped → s.clock.t0.isSome = true →
      s.Turns (.keeperTrim t step) t fun v => v.onClock fun c => { c with keeper := { count := v.grove64 * 2 ^ 32, noted := v.now, step := step } }) ∧
    (s.clock.sqRephase = true → s.TurnsThen (.sqRephaseDone t) t fun v => (v.onClock fun c => { c with sqRephase := false }).seqEnabled)

/-- The events of power-up, boot and the self-calibration have their effect (R401, R460 to R473, R478, R479, R506). -/
def Obligations.BootEventsTakeEffect : Prop :=
  ∀ (s : State) (t : Nat),
    (∀ straps : BitVec 2, s.board.pwrOk = false → s.board.boot = .reset →
      s.Turns (.pwrOkRise t straps) t fun v => v.onBoard fun b => { b with
        pwrOk := true, straps := straps.toNat, strapPins := straps.toNat, boot := if b.perstReleased then .heartwood else .reset }) ∧
    (s.board.pwrOk = true → s.Turns (.pwrOkFall t) t fun v => v.toReset.onBoard fun b => { b with pwrOk := false, smb := none, tap := .idcode }) ∧
    (s.board.perstReleased = true → s.Turns (.perstNAssert t) t fun v => v.toReset.onBoard fun b => { b with perstReleased := false }) ∧
    (s.board.perstReleased = false → s.board.boot = .reset →
      s.Turns (.perstNRelease t) t fun v => v.onBoard fun b => { b with
        perstReleased := true, tap := if b.tap.takesPins then .bypass else b.tap, boot := if b.pwrOk then .heartwood else .reset }) ∧
    (s.board.boot = .heartwood →
      s.TurnsThen (.selftestDone t .passed) t (fun v => State.takeHeldBoot <|
        ((v.onClock fun c => { c with xoPresent := true }).controlOn 4).onBoard fun b => { b with
          boot := .awaitImage, thermWatch := true, bootStatus := b.bootStatus ||| 0x800000 }) ∧
      s.TurnsThen (.selftestDone t .rom) t (fun v => (v.bootFail 0x0C06 0xF).takeHeldBoot) ∧
      s.TurnsThen (.selftestDone t .sram) t (fun v => (v.bootFail 0x0C06 0xF).takeHeldBoot) ∧
      (∀ i : Fin 12, s.TurnsThen (.selftestDone t (.rail i)) t fun v => (v.bootFail 0x0026 i.val).takeHeldBoot) ∧
      s.TurnsThen (.selftestDone t .xo) t (fun v => (v.bootFail 0x0107 0xF).takeHeldBoot) ∧
      (∀ q : Fin 4, s.TurnsThen (.selftestDone t (.quad q)) t fun v =>
        (((v.onClock fun c => { c with xoPresent := true }).controlOn q.val).bootFail 0x0026 q.val).takeHeldBoot) ∧
      ∀ k : Fin 6, s.TurnsThen (.selftestDone t (.thermal k)) t fun v =>
        ((((v.onClock fun c => { c with xoPresent := true }).controlOn 4).onBoard fun b => { b with thermWatch := true }).fatal 0x0025 k.val true).takeHeldBoot) ∧
    (∀ (total : Nat) (ok : Bool), s.fw.auth = some total →
      s.TurnsThen (.imageAuthDone t ok) t fun v =>
        let u := v.onFw fun w => { w with auth := none }
        if ok = true ∧ s.imageFits total = true then u.enterInit.finish .imageAuth Reply.deferred else u.finish .imageAuth (Reply.refused 0x0C01)) ∧
    (s.board.boot = .init → s.clock.drive = .stopped → s.clock.loop = .searching ∨ s.clock.loop = .acquiring →
      s.clock.lockSince + (if planSource s.clock.plan = 2 then 200000000000 else 20000000000) ≤ max s.now t →
      s.TurnsThen (.lockTimeout t) t fun v => v.bootFail 0x0106 0xF) ∧
    (∀ q : Fin 4, s.board.boot = .init → s.clock.t0.isSome = true → (s.quads.get q).state ≠ .ready → s.clock.firstDelivered + 2000000000 ≤ max s.now t →
      s.TurnsThen (.quadStartTimeout t q) t fun v => v.bootFail 0x0206 q.val) ∧
    (s.board.boot = .init → flag s.board.bootStatus 26 = true → flag s.board.bootStatus 28 = true → s.cal.self = none →
      s.board.readyFrom + 100000000000 ≤ max s.now t → s.TurnsThen (.readyCallTimeout t) t fun v => v.bootFail 0x0C07 0xF) ∧
    ((s.advance t).selfReady = true →
      s.Turns (.selfCalStart t) t fun v => v.onCal fun c =>
        let base := match c.pending with
          | some p => some p
          | none => c.active
        { c with self := some (SelfCal.mk .leakage v.now (calDc c.cfg) base 0 0 [0xFFFF, 0xFFFF, 0xFFFF, 0xFFFF] []) }) ∧
    (∀ c : SelfCal, s.cal.self = some c →
      (∀ active : BitVec 4, c.phase = .leakage → c.since + 20000000 ≤ max s.now t →
        s.TurnsThen (.selfCalPhaseEnd t (.leakage active)) t fun v =>
          v.onCal fun k => { k with self := some { c with phase := .converge 1, since := v.now, active := active.toNat } }) ∧
      (∀ n : Nat, c.phase = .converge n → c.since + 2360000000 ≤ max s.now t →
        let all := ∀ b : Fin 16, (s.banks.get b).converged = true
        (n < 2 ∨ (¬ all ∧ n < 4) → s.TurnsThen (.selfCalPhaseEnd t .converge) t fun v =>
          v.onCal fun k => { k with self := some { c with phase := .converge (n + 1), since := v.now, windows := n } }) ∧
        (2 ≤ n → all → ¬ (c.caldc = 0 ∧ c.base = none) → s.TurnsThen (.selfCalPhaseEnd t .converge) t fun v =>
          v.onCal fun k => { k with self := some { c with phase := .measure, since := v.now, windows := n } }) ∧
        (2 ≤ n → all → c.caldc = 0 ∧ c.base = none → s.TurnsThen (.selfCalPhaseEnd t .converge) t fun v =>
          v.selfEnds { c with windows := n, since := v.now } [0xFFFF, 0xFFFF, 0xFFFF, 0xFFFF] []) ∧
        (4 ≤ n → ∀ b : Fin 16, (s.banks.get b).converged = false → (∀ d : Fin 16, d < b → (s.banks.get d).converged = true) →
          s.TurnsThen (.selfCalPhaseEnd t .converge) t fun v => v.bootFail 0x080C b.val)) ∧
      (∀ (outcomes : List (BitVec 16)) (points : List Bytes), c.phase = .measure → c.since + 2380000000 ≤ max s.now t →
        outcomes.length = 4 → points.length = 4 → (∀ p ∈ points, p.length = pointBytes) →
        s.TurnsThen (.selfCalPhaseEnd t (.measure outcomes points)) t fun v =>
          v.selfEnds c ((List.range 4).map fun q => c.outcomeOf q ((outcomes.map BitVec.toNat).getD q 0xFFFF) (points.getD q []))
            (points.zipIdx.map fun x => (x.2, x.1))))

/-- SMBus transactions and the instructions of the test access port have their effect (R506 to R513). -/
def Obligations.BoardInterfacesTakeEffect : Prop :=
  ∀ (s : State) (t : Nat),
    let ok := s.board.pwrOk
    let gives := fun (code : Nat) (data : Bytes) (v : State) => v.onBoard fun b => { b with smb := some { code := code, acked := ok, data := if ok then data else [] } }
    s.Turns (.smbIdent t) t (fun v => gives 0 (v.identity.take 8) v) ∧
    s.Turns (.smbEngine t) t (fun v => gives 1 (leBytes 4 v.engineWord) v) ∧
    s.Turns (.smbBoot t) t (fun v => gives 2 (leBytes 4 v.board.bootStatus.toNat) v) ∧
    s.Turns (.smbPins t) t (fun v => gives 3 [BitVec.ofBool (v.mem.hbm.any Stack.hot) ++ BitVec.ofBool v.board.perstReleased ++ BitVec.ofBool v.board.ready ++
      BitVec.ofBool v.board.faultLow ++ BitVec.ofBool v.board.thermLow ++ BitVec.ofBool v.clock.refPresent ++ BitVec.ofBool v.clock.xoPresent ++
      BitVec.ofBool v.board.alert] v) ∧
    s.Turns (.smbTemps t) t (fun v => gives 4 ((List.range 10).flatMap fun i =>
      let x := v.mon.temps.getD i (0, false)
      leBytes 2 ((if x.2 then 0x8000 else 0) + x.1 % 4096)) v) ∧
    s.Turns (.smbUniqueId t) t (fun v => gives 5 (leBytes 8 Config.uniqueId.toNat) v) ∧
    s.Turns (.smbEvents t) t (fun v => gives 6 (leBytes 4 v.eventStatus) v) ∧
    s.Turns (.smbWriteReject t) t (fun v => v.onBoard fun b => { b with smb := some { code := 0xFF, acked := false, data := [] } }) ∧
    s.Turns (.smbAlertResponse t) t (fun v => v.onBoard fun b =>
      if b.alert && b.pwrOk then { b with smb := some { code := 0x0C, acked := true, data := leBytes 1 (0x58 + b.straps) }, alert := false }
      else { b with smb := some { code := 0x0C, acked := false, data := [] } }) ∧
    s.Turns (.smbusTimeout t) t (fun v => v.onBoard fun b => { b with smb := none }) ∧
    s.Turns (.tapReset t) t (fun v => v.onBoard fun b => { b with tap := .idcode }) ∧
    (s.board.pwrOk = false → ∀ cells : BitVec 151, ∀ i ∈ [Instr.extest t cells, .idcode t, .samplePreload t cells, .clamp t, .highz t,
        .extestPulse t cells, .extestTrain t cells, .bypass t],
      s.Turns i t fun v => v.onBoard fun b => { b with tap := .idcode }) ∧
    (s.board.pwrOk = true →
      s.Turns (.idcode t) t (fun v => v.onBoard fun b => { b with tap := .idcode }) ∧
      s.Turns (.bypass t) t (fun v => v.onBoard fun b => { b with tap := .bypass }) ∧
      (∀ pins : BitVec 151, s.Turns (.samplePreload t pins) t fun v => v.onBoard fun b => { b with tap := .samplePreload, boundary := pins }) ∧
      (s.board.perstReleased = true → ∀ cells : BitVec 151, ∀ i ∈ [Instr.extest t cells, .clamp t, .highz t, .extestPulse t cells, .extestTrain t cells],
        s.Turns i t fun v => v.onBoard fun b => { b with tap := .bypass }) ∧
      (s.board.perstReleased = false →
        s.Turns (.clamp t) t (fun v => v.onBoard fun b => { b with tap := .clamp }) ∧
        s.Turns (.highz t) t (fun v => v.onBoard fun b => { b with tap := .highz }) ∧
        ∀ cells : BitVec 151,
          s.Turns (.extest t cells) t (fun v => v.onBoard fun b => { b with tap := .extest, boundary := cells }) ∧
          s.Turns (.extestPulse t cells) t (fun v => v.onBoard fun b => { b with tap := .extestPulse, boundary := cells }) ∧
          s.Turns (.extestTrain t cells) t (fun v => v.onBoard fun b => { b with tap := .extestTrain, boundary := cells })))

/-- The service calls of Sapwood's cores take effect (R261, R266, R281, R410 to R417). -/
def Obligations.ServiceCallsTakeEffect : Prop :=
  ∀ (s : State) (t : Nat) (core : Fin 4), s.Calls core →
    (∀ addr : BitVec 64, let p := structAt 128 (s.sramAt addr.toNat 16) 0
      inSram addr.toNat 16 = true → s.engineState = 4 → s.planConflict = none → planValid p = true →
      (planKey p = planKey s.clock.plan → s.Serves (.scClockPlan t core addr) t core 1 [addr.toNat] (.returns .ok 0 [])
        fun v => v.onClock fun c => { c with plan := p, fbStandby := c.fbStandby && planFallback p && planInteger p }) ∧
      (planKey p ≠ planKey s.clock.plan → s.clock.drive = .main → s.Serves (.scClockPlan t core addr) t core 1 [addr.toNat] (.waits .planHop)
        fun v => (v.onClock fun c => { c with
          plan := p, refJudged := false, refPresent := false, fbStandby := false, hop := some v.now, windows := true, goodWindows := 0, loop := .coasting }).dropSnap)) ∧
    (∀ tick timeout : BitVec 64, s.clock.sync = none → s.clock.slew = none → s.engineState = 4 → s.stim.enabled = false → tick.toNat % 128 = 0 →
      1 ≤ timeout.toNat → timeout.toNat ≤ 65535 → planInteger s.clock.plan = true → planSource s.clock.plan = 1 →
      s.Serves (.scClockSync t core tick timeout) t core 2 [tick.toNat, timeout.toNat] (.returns .ok 0 [])
        fun v => v.onClock fun c => { c with sync := some (SyncWait.mk tick.toNat timeout.toNat v.now (s.servingTicket core) 0) }) ∧
    (∀ ticks fs : BitVec 64, s.clock.slew = none → ticks = 0 ∨ (s.groups.any Group.live = false ∧ s.stim.enabled = false) → fs.toInt.natAbs ≤ 50000 →
      let align := (s.serving core).map Entry.opcode = some 0x0B04
      s.Serves (.scSlew t core ticks fs) t core 3 [ticks.toNat, fs.toNat] (.returns .ok 0 []) fun v =>
        let u := if align then (v.load ticks.toInt).onGrove fun g => { g with aligned := true } else v.load ticks.toInt
        if fs = 0 then u else u.startSlew (if align then .align else .trim) fs.toInt (s.servingTicket core) 0) ∧
    (∀ rate : BitVec 64, s.mem.clock.queued = none → s.engineState = 3 ∨ s.engineState = 4 → s.stim.enabled = false → rate.toNat ≤ 3 →
      (s.mem.clock.phase = .idle → s.mem.clock.rate = rate.toNat → s.Serves (.scMemClock t core rate) t core 4 [rate.toNat] (.returns .ok 0 [0]) id) ∧
      (s.mem.clock.phase = .idle → s.mem.clock.rate ≠ rate.toNat → s.Serves (.scMemClock t core rate) t core 4 [rate.toNat] (.waits .memClock)
        fun v => v.startMemChange rate.toNat) ∧
      (s.mem.clock.phase ≠ .idle → s.mem.clock.target ≠ rate.toNat → s.Serves (.scMemClock t core rate) t core 4 [rate.toNat] (.returns .ok 0 [1])
        fun v => v.onMem fun m => { m with clock := { m.clock with queued := some (rate.toNat, 0) } })) ∧
    (∀ (quad on : BitVec 64) (q : Fin 4), quad.toNat = q.val → (s.quads.get q).state.busy = false →
      (on = 1 → (s.quads.get q).state = .off → s.Serves (.scQuadPower t core quad on) t core 5 [quad.toNat, on.toNat] (.returns .ok 0 [])
        fun v => v.onQuad q fun k => { k with state := .powering, since := v.now, ticket := (BitVec.ofNat 16 (s.servingTicket core)).toNat }) ∧
      (on = 0 → (s.quads.get q).state ≠ .off → s.quadInUse q (s.quads.get q).fusion = false →
        s.Serves (.scQuadPower t core quad on) t core 5 [quad.toNat, on.toNat] (.returns .ok 0 [])
          fun v => (v.quiesce q).onQuad q fun k => { k with state := .off, since := v.now })) ∧
    (∀ mask : BitVec 64, s.cal.run = none → s.cal.svc = none → s.clock.loop = .locked → planSource s.clock.plan = 1 → 1 ≤ mask.toNat → mask.toNat ≤ 15 →
      s.Serves (.scCalOpen t core mask) t core 6 [mask.toNat] (.returns .ok 0 [])
        fun v => (v.onCal fun c => { c with svc := some mask.toNat }).each four fun u q => u.onQuad q fun k => { k with outTicks := 0 }) ∧
    (∀ (quad position : BitVec 64) (q : Fin 4) (mask : Nat), quad.toNat = q.val → s.cal.svc = some mask → bit mask q.val = true →
      (position = 0 → s.Serves (.scCalSwitch t core quad position) t core 7 [quad.toNat, position.toNat] (.returns .ok 0 [])
        fun v => v.returnSwitch q 40000000) ∧
      (position = 1 ∨ position = 2 → (s.advance t).outFor q < 2400000000 →
        let dest := if position = 1 then Switch3.isolate else .source
        s.Serves (.scCalSwitch t core quad position) t core 7 [quad.toNat, position.toNat] (.returns .ok 0 [])
          fun v => if (s.quads.get q).switch = .connect then v.leaveConnect q dest else v.onQuad q fun k => { k with switch := dest })) ∧
    (s.cal.svc.isSome = true → s.Serves (.scCalClose t core) t core 8 [] (.returns .ok 0 []) fun v => (v.onCal fun c => { c with svc := none }).returnAll) ∧
    (∀ devaddr role epoch bound : BitVec 64,
      let args := [devaddr.toNat, role.toNat, epoch.toNat, bound.toNat]
      (role = 0 → s.grove.role = .orphanRoot → epoch.toNat = (s.grove.epoch + 1) % 2 ^ 32 →
        s.ServesThen (.scGroveIdentity t core devaddr role epoch bound) t core 9 args (.returns .ok 0 []) State.promote) ∧
      (role = 3 → epoch = 0 → s.grove.role = .manager ∨ s.grove.role.orphan = true →
        s.ServesThen (.scGroveIdentity t core devaddr role epoch bound) t core 9 args (.returns .ok 0 []) State.demote) ∧
      (∀ e : Entry, s.serving core = some e → role = 1 → 1 ≤ devaddr.toNat → devaddr.toNat < 2 ^ 16 → epoch.toNat < 2 ^ 32 → bound.toNat < 2 ^ 32 →
        e.opcode = 0x0B01 → probeAssign e.payload = true →
        s.ServesThen (.scGroveIdentity t core devaddr role epoch bound) t core 9 args (.returns .ok 0 [])
          fun v => v.assign (leBytes 4 (probePath e.payload) ++ leBytes 2 devaddr.toNat ++ [1, 0] ++ leBytes 4 epoch.toNat ++ leBytes 4 bound.toNat) e.hdr.source.toNat)) ∧
    (∀ period park : BitVec 64, 10 ≤ period.toNat → period.toNat ≤ 1000 → park.toNat < 15 →
      s.Serves (.scWdtConfig t core period park) t core 0x0A [period.toNat, park.toNat] (.returns .ok 0 [])
        fun v => v.onFw fun w => { w with wdtPeriod := period.toNat, cores := Vector.ofFn fun i : Fin 4 =>
          { w.cores.get i with
            parked := bit park.toNat i.val, kicked := if (w.cores.get i).parked = true ∧ bit park.toNat i.val = false then v.now else (w.cores.get i).kicked } }) ∧
    (s.board.boot = .init → s.readyOk = true → s.ServesThen (.scReady t core) t core 0x0B [] (.returns .ok 0 []) State.becomeReady) ∧
    (s.board.boot = .run → s.fw.restart.any Restart.started = true →
      s.ServesThen (.scReady t core) t core 0x0B [] (.returns .ok 0 []) fun v => v.onFw fun w => { w with restart := none }) ∧
    (∀ packet length buffer size : BitVec 64, inSram packet.toNat length.toNat = true → inSram buffer.toNat size.toNat = true →
      (s.path .mailbox).queue.length < 256 →
      let b := s.sramAt packet.toNat length.toNat
      s.ServesThen (.scSubmit t core packet length buffer size) t core 0x0C [packet.toNat, length.toNat, buffer.toNat, size.toNat] .submits
        fun v => (v.onCore core fun k => { k with submit := some (buffer.toNat, size.toNat, leAt b 4 2) }).receiveBytes .mailbox b 0 0) ∧
    (∀ pc : BitVec 64, s.ServesThen (.scRestart t core pc) t core 0x0D [pc.toNat] .gone fun v => v.restart 3 core pc.toNat 0) ∧
    (∀ reason : BitVec 64, (∃ r ∈ reasonCodes, r.1 ≤ reason.toNat ∧ reason.toNat ≤ r.2) →
      s.ServesThen (.scFault t core reason) t core 0x0E [reason.toNat] .gone fun v => v.fatal reason.toNat 0xF (call := true)) ∧
    s.Serves (.scKeys t core) t core 0x0F []
      (.returns .ok 0 [(if s.fw.ownerKey.isSome then 1 else 0) + (if s.fw.ownerImage then 2 else 0)]) id

/-- The rows of the firmware but for the service calls have their effect (R340, R405 to R417). -/
def Obligations.FirmwareRowsTakeEffect : Prop :=
  (∀ (s : State) (t : Nat) (core : Fin 4), s.sapwood = true →
    (s.fw.restart = none →
      let v := (((s.advance t).discardStale .pcie).discardStale .bough).discardStale .mailbox
      let next := ([1, 2, 3] : List Nat).findSome? fun k => (v.takeable (pathAt (s.fw.turn + k))).map fun e => (pathAt (s.fw.turn + k), e)
      (next = none → s.TurnsThen (.take t core) t fun _ => v.returns .sapwood 0) ∧
      (∀ (path : Path) (e : Entry), next = some (path, e) → s.TurnsThen (.take t core) t fun _ =>
        ((v.onPath path fun p => p.onFirst fun x => { x with phase := .taken, slot := some v.freeSlot }).onFw fun w =>
          { w with turn := path.idx.val }.took core.val v.freeSlot).returns .sapwood
            (2 ^ 63 + path.idx.val * 2 ^ 48 + v.freeSlot * 2 ^ 32 + (20 + e.payload.length)))) ∧
    (∀ value : BitVec 64,
      (∀ (path : Path) (e : Entry), s.slotEntry (fld value 32 10) = some (path, e) →
        let pkt := e.staged (fld value 0 13)
        s.TurnsThen (.post t core value) t fun v =>
          State.flush 800 path (v.onSlot (fld value 32 10) fun x => { x.answer pkt (leAt pkt 16 1 = 0) with slot := none })) ∧
      (s.slotEntry (fld value 32 10) = none → s.TurnsThen (.post t core value) t fun v => v.onFw fun w => { w with scErrors := w.scErrors + 1 })) ∧
    (∀ addr : BitVec 64, inSram addr.toNat 96 = true →
      let e := s.postedEvent (s.sramAt addr.toNat 96)
      s.TurnsThen (.eventPost t core addr) t fun v => (v.onEvents fun ev => { ev.enter e with seq := ev.seq + 1 }).eventUp e) ∧
    (∀ (value : BitVec 64) (op : Nat) (b : Bytes) (c : Card), s.fw.restart = none → s.commitOf value.toNat = some (op, b, c) →
      (bit value.toNat 53 = false →
        s.TurnsThen (.commit t core value) t fun v =>
          c.after (c.run { tick := v.now, path := .pcie, flags := 0, ticket := 0, dest := 0, source := 0, reserved := 0 } v).1) ∧
      (∀ (path : Path) (e : Entry), bit value.toNat 53 = true → s.slotEntry (bits value.toNat 54 10) = some (path, e) →
        let fill := if bits value.toNat 40 13 = 0x1FFF then none else some (bits value.toNat 40 13)
        s.TurnsThen (.commit t core value) t fun v =>
          let out := c.run e.hdr v
          c.after ((out.1.countPath path fun k => { k with executed := k.executed + 1 }).onSlot (bits value.toNat 54 10) fun x => match out.2 with
            | .done r => { x with fill := fill }.filled r.result
            | .held k => { x with fill := fill, phase := .held k v.engineState }))) ∧
    s.TurnsThen (.wdtKick t core) t (fun v => v.onCore core fun k => { k with kicked := v.now }) ∧
    (∀ value : BitVec 32, s.TurnsThen (.scOverrunClear t core value) t fun v => v.onCore core fun k => { k with overrun := k.overrun && !bit value.toNat 30 }) ∧
    (∀ pc addr : BitVec 64,
      ((s.fw.cores.get core).parked = false → (s.fw.cores.get core).kicked + s.fw.wdtPeriod * 20000000 ≤ max s.now t →
        s.TurnsThen (.watchdogExpiry t core pc) t fun v => v.restart 0 core pc.toNat 0) ∧
      s.TurnsThen (.firewallFault t core pc addr) t (fun v => v.restart 1 core pc.toNat addr.toNat) ∧
      s.TurnsThen (.doubleTrap t core pc) t (fun v => v.restart 2 core pc.toNat 0)) ∧
    (∀ r : Restart, s.fw.restart = some r → r.started = true → s.board.boot = .run → r.since + 20000000000 ≤ max s.now t →
      s.TurnsThen (.sapwoodReadyTimeout t) t fun v => v.fatal 0x0C07 0xF)) ∧
  ∀ (s : State) (t : Nat) (r : Restart), s.fw.restart = some r → r.started = false → s.board.boot = .run →
    s.TurnsThen (.restartVerifyDone t true) t (fun v => ((v.restoreSram true).startCores s.fw.restarts (r.cause + 1)).onFw fun w =>
      { w with restart := some { r with started := true, since := v.now } }) ∧
    s.TurnsThen (.restartVerifyDone t false) t (fun v => v.fatal 0x0C01 0xF)

/-- Reads and writes of the status window have their effect (R15, R18, R195, R199, R218, R219, R317, R330, R331, R490). -/
def Obligations.WindowAccessesTakeEffect : Prop :=
  ∀ (s : State) (t : Nat), s.board.boot ≠ .reset → s.board.boot ≠ .heartwood →
    (∀ value : BitVec 32, s.TurnsThen (.cmdTailDoorbell t value) t fun v => v.onHost fun h =>
      if tailOk h.cmdHead h.cmdTail (descSize h.ring) value.toNat then { h with cmdTail := value.toNat } else { h with doorbellErrors := h.doorbellErrors + 1 }) ∧
    (∀ (g : Fin 4) (value : BitVec 32), s.TurnsThen (.descTailDoorbell t g value) t fun v =>
      if tailOk (s.rings.get g).descHead (s.rings.get g).descTail (descSize (s.rings.get g).cfg) value.toNat then v.onRing g fun r => { r with descTail := value.toNat }
      else v.onHost fun h => { h with doorbellErrors := h.doorbellErrors + 1 }) ∧
    (∀ (g : Fin 4) (value : BitVec 32), s.TurnsThen (.cplHeadDoorbell t g.castSucc value) t fun v =>
      if headOk (s.rings.get g).cpl value.toNat then v.onRing g fun r => { r with cpl := { r.cpl with head := value.toNat } }
      else v.onHost fun h => { h with doorbellErrors := h.doorbellErrors + 1 }) ∧
    (∀ value : BitVec 32, s.TurnsThen (.cplHeadDoorbell t 4 value) t fun v =>
      if headOk s.ring4 value.toNat then v.onRing4 fun r => { r with head := value.toNat }
      else v.onHost fun h => { h with doorbellErrors := h.doorbellErrors + 1 }) ∧
    (∀ value : BitVec 32, s.ringOn = false → s.host.bootBusy = false → s.host.bootHeld = none →
      s.TurnsThen (.bootDoorbell t value) t fun v =>
        (v.onHost fun h => { h with bootValid := false, bootBusy := true }).receiveBytes .pcie (getSparseN s.host.mailbox 0 (min value.toNat 4117)) 0 0) ∧
    (∀ (req : Requester) (k x : Nat), k < 1920 → (s.advance t).value64 (0x1000 + 8 * k) = some x →
      s.TurnsThen (.lowHalfRead t req (0x1000 + 8 * k)) t (fun v =>
        ((v.onShadow req fun w => { w with value := x, offset := 0x1000 + 8 * k, latched := true }).clearValue (0x1000 + 8 * k)).returns req (x % 2 ^ 32)) ∧
      s.TurnsThen (.highHalfRead t req (0x1000 + 8 * k)) t (fun v =>
        (v.onShadow req fun w => if w.latched = true ∧ w.offset = 0x1000 + 8 * k then w else { w with halfOrder := true }).returns req
          ((s.shadows.get req.idx).value / 2 ^ 32)) ∧
      s.TurnsThen (.atomic64Read t req (0x1000 + 8 * k)) t (fun v => (v.clearValue (0x1000 + 8 * k)).returns req x)) ∧
    (∀ (req : Requester) (i : Fin 4), s.TurnsThen (.rcFieldRead t req (0x01D0 + 4 * i.val)) t fun v =>
      (v.onMem fun m => m.onStack i fun k => { k with maxDebt := 0 }).returns req (v.memStatus i % 2 ^ 32)) ∧
    (∀ (req : Requester) (value : BitVec 32), bit value.toNat 31 = true →
      s.TurnsThen (.halfOrderClear t req value) t (fun v => v.onShadow req fun w => { w with halfOrder := false }) ∧
      s.TurnsThen (.monCtrlConvert t req value) t (fun v => v.onMon fun m => { m with reqs := vmod m.reqs req.idx fun q =>
        if q.pending.isSome then { q with busyWrites := q.busyWrites + 1 } else { q with pending := some (value.toNat % 32) } })) ∧
    (∀ (req : Requester) (value : BitVec 64) (i : Nat), i < 1029 → s.TurnsThen (.registerWrite t (.window req (0xA000 + 4 * i)) false value) t fun v =>
      v.onHost fun h => { h with mailbox := putSparse h.mailbox (4 * i) (leBytes 4 (value.toNat % 2 ^ 32)) }) ∧
    (∀ (core : Fin 4) (value : BitVec 64) (a : Nat), s.sapwood = true → inSram a 8 = true →
      s.TurnsThen (.registerWrite t (.sapwood core a) true value) t fun v => v.putSram a (leBytes 8 value.toNat))

/-- COMMAND_RECEIVE and INTERIM_NOTICE have their effect (R330, R334, R343). -/
def Obligations.PacketsAreReceived : Prop :=
  ∀ (s : State) (t : Nat), s.board.boot ≠ .reset → s.board.boot ≠ .heartwood →
    (∀ (path : Path) (desc packet : Bytes), path ≠ .pcie →
      s.TurnsThen (.commandReceive t path desc packet) t fun v =>
        if 256 ≤ (s.path path).queue.length then v.countPath path fun c => { c with intakeFull := c.intakeFull + 1 } else v.receiveBytes path packet 0 0) ∧
    (∀ desc packet : Bytes, s.ringOn = true → s.host.cmdHead ≠ s.host.cmdTail →
      (256 ≤ (s.path .pcie).queue.length → s.TurnsThen (.commandReceive t .pcie desc packet) t fun v =>
        v.countPath .pcie fun c => { c with intakeFull := c.intakeFull + 1 }) ∧
      ((s.path .pcie).queue.length < 256 → descriptorBad desc = false → s.TurnsThen (.commandReceive t .pcie desc packet) t fun v =>
        (v.onHost fun h => { h with cmdHead := (h.cmdHead + 1) % 2 ^ 32 }).receiveBytes .pcie (packet.take (leAt desc 20 2)) (leAt desc 8 8) (leAt desc 16 4)) ∧
      ((s.path .pcie).queue.length < 256 → descriptorBad desc = true → s.TurnsThen (.commandReceive t .pcie desc packet) t fun v =>
        let u := v.onHost fun h => { h with cmdHead := (h.cmdHead + 1) % 2 ^ 32 }
        let e := newEntry (headerOf v.now .pcie []) 0x10000 [] v.now true 0 0
        State.flush 800 .pcie (u.onPath .pcie fun p => { p with queue := p.queue ++ [{ e with phase := .answered }] }))) ∧
    (∀ (path : Path) (index : Nat) (e : Entry), (s.path path).queue[index]? = some e → (s.path path).awaits e = true →
      e.received + 20000000 + 80000000 * e.notices ≤ max s.now t → (path = .pcie → s.ringOn = true) →
      let noted := fun v : State => v.onPath path fun p => { p with queue := modAt p.queue index fun x => { x with notices := x.notices + 1 } }
      (path = .pcie → s.ring4.full s.host.ring = true →
        s.TurnsThen (.interimNotice t path index) t fun v => (noted v).countPath path fun c => { c with noticeSkips := c.noticeSkips + 1 }) ∧
      ((path = .pcie → s.ring4.full s.host.ring = false) →
        s.TurnsThen (.interimNotice t path index) t fun v =>
          let n := v.notice path index e
          let u := ((noted v).countPath path fun c => { c with noticesSent := c.noticesSent + 1 }).onPath path fun p => { p with lastReply := n }
          match path with
          | .pcie => u.toRing4 (replyCompletion n false 0)
          | .bough => u.sendUp n
          | .mailbox => u))

/-- The events of the sample links have their effect (R45 to R52, R108, R178). -/
def Obligations.LinkEventsTakeEffect : Prop :=
  ∀ (s : State) (t : Nat) (b : Fin 16), let l := (s.banks.get b).link
    let onLink := fun (v : State) (f : SampleLink → SampleLink) => v.onBank b fun k => { k with link := f k.link }
    (∀ data : LinkData, data.wf = true → l.checking = none → l.up = true →
      let v := s.advance t
      let first := s.blockFirst l.expect
      first + 260 ≤ v.now → v.now ≤ first + 1220 → (∀ a, l.awaiting = some a → a ≤ v.now) →
      let r := v.received b data
      (∀ ws, r.2 = some ws → s.TurnsThen (.sampleLinkBlock t b data) t fun _ =>
        let m := (r.1.banks.get b).link
        let blk : Block := { first := r.1.blockFirst m.expect, words := ws }
        onLink r.1 fun k => { k with
          expect := m.expect + 1, txNext := max m.txNext (m.expect + 1), awaiting := none, resend := none, fifo := k.fifo ++ [blk]
          replay := if k.replay.any (fun x => x.first = blk.first) then k.replay else (blk :: k.replay).take 64
          cnt := { k.cnt with maxLateness := max k.cnt.maxLateness (r.1.now - (blk.first + 260)) } }) ∧
      (r.2 = none →
        let f := r.1.blockFirst (r.1.banks.get b).link.expect
        (r.1.now + 240 ≤ f + 1220 → s.TurnsThen (.sampleLinkBlock t b data) t fun _ => onLink r.1 fun k => { k with awaiting := some (r.1.now + 240) }) ∧
        (f + 1220 < r.1.now + 240 → s.TurnsThen (.sampleLinkBlock t b data) t fun _ => r.1.bankFault b f))) ∧
    (∀ (data : LinkData) (n : Nat), data.wf = true → l.checking = some n → n < 1024 →
      let r := (s.advance t).received b data
      (r.2.isSome = true → s.TurnsThen (.sampleLinkBlock t b data) t fun _ => onLink r.1 fun k =>
        { k with checking := some (n + 1), expect := (r.1.banks.get b).link.expect + 1
                 txNext := max (r.1.banks.get b).link.txNext ((r.1.banks.get b).link.expect + 1) }) ∧
      (r.2 = none → s.TurnsThen (.sampleLinkBlock t b data) t fun _ => r.1.retrainFailed b)) ∧
    (∀ data : LinkData, data.wf = false → exec (.sampleLinkBlock t b data) s = .refused .illFormed) ∧
    (∀ a : Nat, l.awaiting = some a → s.Turns (.nak t b) t fun v => onLink v fun k => { k with resend := some (k.expect, a - 130) }) ∧
    (∀ e a : Nat, l.resend = some (e, a) → a ≤ max s.now t →
      s.Turns (.linkResend t b) t fun v => onLink v fun k => { k with resend := none, cnt := { k.cnt with resends := k.cnt.resends + 1 } }) ∧
    (∀ (blk : Block) (rest : List Block) (overrun : Bool), l.fifo = blk :: rest → blk.first + 1240 ≤ max s.now t →
      s.Turns (.alignmentFifoRelease t b overrun) t fun v => (v.release b blk).ringWrite b overrun) ∧
    (l.faulted = true → l.abandoned = false → l.checking = none → s.clock.drive ≠ .stopped →
      s.TurnsThen (.linkRetrainDone t b true) t (fun v => onLink v fun k =>
        { k with checking := some 0, expect := v.nextBlock v.now, txNext := v.nextBlock v.now, replay := [], ovrHold := 0 }) ∧
      (l.retries < 3 → s.TurnsThen (.linkRetrainDone t b false) t fun v => onLink v fun k => { k with retries := k.retries + 1, checking := none }) ∧
      (3 ≤ l.retries → s.TurnsThen (.linkRetrainDone t b false) t fun v =>
        let u := onLink v fun k => { k with abandoned := true, checking := none }
        if s.board.boot = .init then u.bootFail 0x0206 (quadOf b).val else u)) ∧
    (l.checking = some 1024 → s.Turns (.bankReturned t b) t fun v =>
      let n := v.nextBlock v.now
      (onLink v fun k => { k with
        up := true, faulted := false, checking := none, retries := 0, expect := n, txNext := n, start := v.blockFirst n, fifo := [], replay := [] }).raise
          { code := 0x0284, obj := b.val })

/-- The events of banks and quads outside their links have their effect (R28, R31, R35, R39, R222 to R225, R366, R467). -/
def Obligations.QuadEventsTakeEffect : Prop :=
  ∀ (s : State) (t : Nat),
    (∀ (b : Fin 16) (pos : Fin 32) (n : Nat), s.converts b = true → (s.banks.get b).spare = some n →
      s.Turns (.sliceSubstitution t b pos) t fun v => v.onBank b fun k => { k with
        oldPositions := some (v.beatFrom v.now, k.positions), spare := some (k.positions.getD pos.val 0), positions := k.positions.set pos.val n }) ∧
    (∀ (b : Fin 16) (e : SliceEstimate) (n : Nat), s.converts b = true → (s.banks.get b).link.up = true → (s.banks.get b).spare = some n →
      let old := (s.banks.get b).live.getD n {}
      let moved := fun (live : Int) (est : Option Int) => match est with
        | some x => live + roundDiv (65536 * x - live) 4
        | none => live
      let new : SliceCoef := { offset := moved old.offset e.offset, gain := moved old.gain e.gain, skew := moved old.skew e.skew }
      let counted := fun (v : State) => v.onBank b fun k => { k with
        bgEstimates := k.bgEstimates + 1, bgSkips := k.bgSkips + (if e.gain = none ∧ e.skew = none then 1 else 0)
        bg := modAt k.bg n fun g => { offsets := (e.offset.toList ++ g.offsets).take 2, gains := (e.gain.toList ++ g.gains).take 2, skews := (e.skew.toList ++ g.skews).take 2 } }
      (sliceOk (liveUnits new) = true → s.Turns (.backgroundEstimate t b e) t fun v =>
        (((counted v).onBank b fun k => { k with live := k.live.set n new }).onBank b fun k => { k with converged := k.converges }).judgeBg (quadOf b)) ∧
      (sliceOk (liveUnits new) = false → s.Turns (.backgroundEstimate t b e) t fun v => (counted v).sliceOut b n)) ∧
    (∀ q : Fin 4, let k := s.quads.get q
      (k.state = .powering → k.since + 40000000 ≤ max s.now t → s.Turns (.quadPoweringDone t q) t fun v =>
        v.onQuad q fun x => { x with state := .training, since := v.now }) ∧
      (k.state = .training → k.since + 400000 ≤ max s.now t → s.Turns (.quadTrainingDone t q) t fun v =>
        (v.onQuad q fun x => { x with state := .converging, since := v.now }).trainLinks q) ∧
      (k.state = .converging → k.since + 1320000000 ≤ max s.now t → s.Turns (.quadConverged t q) t fun v =>
        let u := ((v.onQuad q fun x => { x with state := .ready, since := v.now }).raise { code := 0x0280, obj := q.val, ticket := k.ticket }).onQuad q fun x =>
          { x with ticket := 0 }
        if u.board.boot = .init ∧ four.all (fun r => (u.quads.get r).state = .ready) then (u.bootBit 26).noteReady else u) ∧
      (k.state = .retiming → k.since ≤ max s.now t → s.TurnsThen (.quadRetimingDone t q) t fun v =>
        ((v.onQuad q fun x => { x with state := .ready, since := v.now }).trainLinks q).finish (.fusion q.val) Reply.ok)) ∧
    ∀ i : Fin 16, s.TurnsThen (.inputSettled t i) t fun v => v.finish (.input i.val) Reply.ok

/-- The events of the trigger family have their effect (R55, R58, R77, R96, R97, R369, R530). -/
def Obligations.TriggerEventsTakeEffect : Prop :=
  ∀ (s : State) (t : Nat),
    s.Turns (.triggerUnitDecision t) t (fun v => v.decideTo v.now) ∧
    s.Turns (.taggedEventDelivery t) t (fun v => v.decideTo v.now) ∧
    (∀ (pin : Fin 4) (level was : Bool) (fell rose : Option Nat) (tick time : Nat) (fraction : BitVec 32), tick ≤ max s.now t → time = tick * 2 ^ 32 + fraction.toNat →
      s.board.trigin.getD pin.val (false, none, none) = (was, fell, rose) → was ≠ level →
      let noted := fun (v : State) => v.onBoard fun b =>
        { b with trigin := b.trigin.set pin.val (level, if level then fell else some time, if level then some time else rose) }
      ((∀ y, (if level then rose else fell) = some y → y + 40 * 2 ^ 32 ≤ time) →
        s.Turns (.triginEdge t pin level tick fraction) t fun v => (noted v).tag { source := 0x10 + pin.val, rising := level, time := time, unit := 0 }) ∧
      (∀ y, (if level then rose else fell) = some y → time < y + 40 * 2 ^ 32 → s.Turns (.triginEdge t pin level tick fraction) t noted)) ∧
    (∀ (u : Fin 8) (x : Nat), (s.units.get u).atTick = some x → x + 1280 ≤ max s.now t →
      s.Turns (.swTriggerDue t u) t fun v =>
        (v.onUnit u fun k => { k with atTick := none }).tag { source := 0x40, rising := true, time := x * 2 ^ 32, unit := u.val }) ∧
    (∀ (o : Fin 4) (x : Nat), x ∈ (s.trigouts.get o).starts → (∀ y ∈ (s.trigouts.get o).starts, x ≤ y) → x ≤ max s.now t →
      s.Turns (.trigoutPulseStart t o) t fun v => v.onOut o fun k => { k with
        high := true, starts := k.starts.erase x, endAt := if k.high then max k.endAt (x + outWidth k.cfg) else x + outWidth k.cfg }) ∧
    (∀ o : Fin 4, (s.trigouts.get o).high = true → (s.trigouts.get o).endAt ≤ max s.now t → outSource (s.trigouts.get o).cfg ≠ 3 →
      (∀ y ∈ (s.trigouts.get o).starts, (s.trigouts.get o).endAt < y) →
      s.Turns (.trigoutPulseEnd t o) t fun v => v.onOut o fun k => { k with high := false }) ∧
    ∀ (o : Fin 4) (x : Nat) (level : Bool) (rest : List (Nat × Bool)), (s.trigouts.get o).levels = (x, level) :: rest → x ≤ max s.now t →
      s.Turns (.trigoutLevelChange t o) t fun v => v.onOut o fun k => { k with high := level, levels := rest }

/-- The events of capture and accumulation have their effect (R84, R86, R103, R110 to R159). -/
def Obligations.CaptureEventsTakeEffect : Prop :=
  ∀ (s : State) (t : Nat) (g : Fin 4), let v := s.advance t
    let w := v.decideTo v.now
    let x := w.groups.get g
    (∀ e, x.state = .filling → x.ending = none → x.postEnd = some e → e ≤ atCapture x.f w.now →
      s.Turns (.fillComplete t g) t fun _ =>
        if x.closeAtFill = 0 then w.setGroupState g (x.stateAt w.now)
        else ((w.setGroupState g (x.stateAt w.now)).closeGroup g x.closeAtFill w.now).onGroup g fun y => { y with closeAtFill := 0 }) ∧
    (∀ e, x.state = .holdoff → x.ending = none → x.rearm = some e → e ≤ atCapture x.f w.now →
      s.Turns (.holdoffExpiry t g) t fun _ => w.setGroupState g .armed) ∧
    (∀ (r : Record) (stop : Nat) (taint : Option (Nat × Nat)), (s.groups.get g).current = some r →
      ((s.groups.get g).streaming = false → r.stop = some stop → ∀ j, r.nextBlock stop = some j → r.needs stop j ≤ atCapture r.f v.now →
        s.Turns (.recordBlockWritten t g taint) t fun _ =>
          ((v.onMem fun m => m.put ((s.groups.get g).segBase (s.groups.get g).f r.segment + 2048 * j)
            (blockOf (((v.payload r stop).drop (2044 * j)).take 2044) taint.isSome)).onGroup g fun y =>
              y.onCurrent fun z => { z with written := z.written ++ [j] }).taintRecord g taint) ∧
      ((s.groups.get g).streaming = true → r.stop.getD (2 ^ 80) = stop →
        let done := r.places.length - 1
        let n := done / max 1 r.inputs.length * (2044 / decSize r.decim)
        n < r.count stop → r.upTo stop (n + 2044 / decSize r.decim) ≤ atCapture r.f v.now →
        ((s.groups.get g).streamFree = 0 → s.Turns (.recordBlockWritten t g taint) t fun _ =>
          (((v.streamOverflow g r.seq).onGroup g fun y => y.onCurrent fun z => z.cut (z.endOf n) 8 (v.streamOverflow g r.seq).events.seq)).taintRecord g taint) ∧
        ((s.groups.get g).streamFree ≠ 0 → s.Turns (.recordBlockWritten t g taint) t fun _ =>
          let p := v.span r (r.inputs.getD (done % max 1 r.inputs.length) 0) stop
          let ws := (List.range (min (2044 / decSize r.decim) (r.count stop - n))).map fun i : Nat => p.stored r.decim (jLow r.decim r.trig r.first + n + i)
          (v.putStream g (blockOf (ws.flatten.map (leBytes 2)).flatten taint.isSome)).taintRecord g taint))) ∧
    (∀ (r : Record) (stop : Nat), x.current = some r → r.stop = some stop → stop ≤ atCapture r.f w.now → r.allWritten x.streaming stop = true →
      (w.accs.get g).committed r (w.finalFlags r stop) = true →
      s.Turns (.recordComplete t g) t (fun _ => w.completeRecord g r stop)) ∧
    (∀ (r : Record) (stop : Nat), x.current = some r → r.stop = some stop → stop ≤ atCapture r.f w.now → (w.accs.get g).active = true →
      (w.accs.get g).stopped = false → (w.accs.get g).nextSeq = r.seq → (w.accs.get g).excludes (w.finalFlags r stop) = false →
      let sum := w.added g r stop
      let u := (w.putAcc g sum.1).onAcc g fun a =>
        { a with nextSeq := r.seq + 1, cycle := a.cycle.add r (w.finalFlags r stop) sum.2, cnt := { a.cnt with saturations := a.cnt.saturations + sum.2 } }
      s.Turns (.accumulationCommit t g) t fun _ =>
        if (u.accs.get g).count ≠ 0 ∧ (u.accs.get g).cycle.records = (u.accs.get g).count then u.countBoundary g r.seq else u) ∧
    (∀ (k : Snap) (rest : List Snap), (s.accs.get g).snaps = k :: rest →
      (leAt k.header 24 4 ≠ 0 → ∀ r ∈ (s.groups.get g).records, k.lastSeq < r.seq) →
      let a := v.onMem fun m => m.putBlocks (slotBase (s.groups.get g) (s.accs.get g) k.slot) (snapBlocks k)
      let u := (a.addItem g (a.snapItem g k)).onAcc g fun y => { y with snaps := rest }
      s.Turns (.snapshotComplete t g) t fun _ => if (u.groups.get g).state = .done ∧ rest = [] then u.onAcc g Acc.release else u)

/-- The events of the memory system have their effect (R166, R167, R170, R173, R179 to R194, R468). -/
def Obligations.MemoryEventsTakeEffect : Prop :=
  ∀ (s : State) (t : Nat) (port : Fin 23) (k : Fin 4) (pc : Fin 128),
    (∀ (unit level : Nat) (a : MemAccess), (∀ d mask, a = .write d mask → d.length = 32) → s.memRuns = true →
      let heard := fun v : State => if portRt port.val then v.onMem fun m => m.onPort port fun p => p.setLevel level else v
      let i := (s.mem.place (32 * unit)).pc
      (s.memBytes ≤ 32 * unit → s.Turns (.memRequest t port unit a level) t fun v =>
        let u := (heard v).onMem fun m => { m with unmapped := m.unmapped + 1 }
        if a = .read then u.onMem fun m => m.onPort port fun p => { p with data := List.replicate 32 0xFF, poisoned := false } else u) ∧
      (32 * unit < s.memBytes → a = .read → s.Turns (.memRequest t port unit a level) t fun v =>
        ((heard v).onMem fun m => ((m.onPc i fun p => { p with reads := p.reads ++ [MemReq.mk port.val unit false v.now] }).onPort port
          fun p => { p with reads := p.reads ++ [unit] }).onStack (stackOf i) fun c => { c with cnt := { c.cnt with
            forwardHits := c.cnt.forwardHits + (if (m.pcs.get i).writes.any fun w => w.addr = unit then 1 else 0) } }).schedule i) ∧
      ∀ d mask, 32 * unit < s.memBytes → a = .write d mask → s.Turns (.memRequest t port unit a level) t fun v =>
        ((heard v).onMem fun m =>
          { m with cells := putCells m.cells (32 * unit) (mergeUnit (m.get (32 * unit) 32) d mask), open_ := subSpan m.open_ (32 * unit) (32 * unit + 32),
                   poison := if mask = BitVec.allOnes 32 then m.poison.filter (· ≠ unit) else m.poison }.onPc i fun p =>
            if p.writes.any fun w => w.addr = unit then p
            else { p with writes := p.writes ++ [MemReq.mk port.val unit true v.now], draining := p.draining || 48 ≤ p.writes.length + 1 }).schedule i) ∧
    (∀ unit level d mask, d.length ≠ 32 → exec (.memRequest t port unit (.write d mask) level) s = .refused .illFormed) ∧
    (∀ (unit : Nat) (rest : List Nat) (ecc : Ecc), (s.mem.ports.get port).reads = unit :: rest →
      s.Turns (.memReadReturn t port ecc) t fun v =>
        let r := (v.eccReport unit ecc).arrayRead (32 * unit) 32
        let u := r.1.onMem fun m => m.onPort port fun p => { p with reads := rest, data := r.2, poisoned := r.1.mem.bad (32 * unit) 32 }
        if r.1.mem.bad (32 * unit) 32 = true ∧ port.val = 0x10 then u.accPoison unit else u) ∧
    (s.memRuns = true → (s.mem.pcs.get pc).nextDue ≤ max s.now t →
      let c := s.mem.hbm.get (stackOf pc)
      let p := s.mem.pcs.get pc
      let owed := fun (v : State) => v.onMem fun m => (m.onPc pc fun p => { p with debt := p.debt + 1, nextDue := p.nextDue + c.interval }).onStack (stackOf pc)
        fun c => { c with maxDebt := max c.maxDebt (p.debt + 1) }
      let postponed := fun (v : State) => (owed v).onMem fun m => m.onStack (stackOf pc) fun c => { c with cnt := { c.cnt with postponed := c.cnt.postponed + 1 } }
      let panic := (p.reads ++ p.writes).any s.mem.panicked
      s.Turns (.refreshDue t pc) t fun v =>
        if v.now < p.lastRefresh then (owed v).onMem fun m => m.issueRefresh pc v.now
        else if panic = true ∧ p.debt + 1 ≤ c.limit then postponed v
        else if panic = true then (postponed v).onMem fun m =>
          (m.onStack (stackOf pc) fun c => { c with cnt := { c.cnt with forced := c.cnt.forced + 1 } }).issueRefresh pc v.now
        else (List.range (min (p.debt + 1) 8)).foldl (fun u _ => u.onMem fun m => m.issueRefresh pc u.now) (owed v)) ∧
    (∀ temp : Int, s.board.boot ≠ .reset → (temp < 1050 ∨ s.board.thermWatch = false) →
      let was := (s.mem.hbm.get k).hot
      let seen := fun (v : State) (hot : Bool) => v.onMem fun m => m.onStack k fun c => { c with temp := temp, wasRead := true, hot := hot }
      (was = false → 850 ≤ temp → s.TurnsThen (.stackTempReading t k temp) t fun v =>
        ((seen v true).onMem fun m => (m.restartCadence k v.now).pullIn k v.now).raise { code := 0x0682, obj := k.val, vals := [1, unsigned 64 (temp / 10)] }) ∧
      (was = true → temp < 820 → s.TurnsThen (.stackTempReading t k temp) t fun v =>
        ((seen v false).onMem fun m => m.restartCadence k v.now).raise { code := 0x0682, obj := k.val, vals := [0, unsigned 64 (temp / 10)] }) ∧
      ((was = false ∧ temp < 850 ∨ was = true ∧ 820 ≤ temp) → s.TurnsThen (.stackTempReading t k temp) t fun v => seen v was)) ∧
    (∀ n : Neighbour, s.memRuns = true → s.mem.forcedNeighbour (s.mem.pcs.get pc) (max s.now t) = some n →
      s.Turns (.neighbourRefreshForced t pc) t fun v => v.onMem fun m => m.issueNeighbour pc n true) ∧
    (∀ (g : Fin 5) (i : Fin 4), i.val = g.val → s.board.boot = .run → (s.groups.get i).armWait.isSome = true → s.TurnsThen (.stripeReinitDone t g) t fun v =>
      let r := (v.regrain (v.holds i) (v.groups.get i).grain).armNow i
      r.1.finish (.arm i.val) (Reply.ok r.2)) ∧
    (s.stim.enabled = true → s.seqRegrains ≠ [] → s.TurnsThen (.stripeReinitDone t 4) t fun v =>
      (v.regrain [(seqBase v.stim.cfg, seqBytes v.stim.cfg)] (seqGrain v.stim.cfg)).seqEnabled) ∧
    (s.mem.clock.phase = .relock → s.mem.clock.since + 20 * us ≤ max s.now t →
      s.TurnsThen (.memClockRelocked t) t fun v => match s.mem.clock.queued with
        | some (rate, ticket) => v.makeQueued rate ticket
        | none => v.startTraining false) ∧
    (∀ (p : Nat) (failed : BitVec 4), s.mem.clock.phase = .training p → s.mem.clock.since + passTicks s.mem.clock.rate p ≤ max s.now t →
      (failed ≠ 0 → s.TurnsThen (.trainingPassDone t failed) t fun v => v.trainFailed (four.filter fun i => flag failed i.val) p) ∧
      (failed = 0 → ∀ rate ticket, s.mem.clock.queued = some (rate, ticket) → s.TurnsThen (.trainingPassDone t failed) t fun v => v.makeQueued rate ticket) ∧
      (failed = 0 → s.mem.clock.queued = none → s.TurnsThen (.trainingPassDone t failed) t fun v =>
        if p < 3 then v.onMem fun m => { m with clock := { m.clock with phase := .training (p + 1), since := v.now, lastPass := p + 1 } } else v.trained)) ∧
    (∀ failed : Option (Fin 4), s.mem.initRunning = true → s.board.boot = .init → s.mem.clock.phase = .idle →
      s.TurnsThen (.memInitDone t failed) t fun v => match failed with
        | some i => v.bootFail 0x0607 i.val
        | none => ((v.onMem fun m => { m with
            cells := [], poison := [], open_ := [], grains := [], initDone := true, initRunning := false }).bootBit 28).noteReady) ∧
    s.Turns (.pageTimerExpiry t pc) t (fun v => v.onMem fun m => m.onPc pc fun p => { p with
      openRows := p.openRows.filter fun (_, _, last, auto) => !auto || v.now < last + cycleTicks m.clock.rate (fld m.cfg 8 8) }) ∧
    ∀ (offset : Nat) (a : Bar2Op),
      (a.wf offset = false → exec (.bar2Access t offset a) s = .refused .illFormed) ∧
      (a.wf offset = true → s.board.boot ≠ .reset → s.Turns (.bar2Access t offset a) t fun v => match a with
        | .read n => (v.fwpRead (v.mem.bar2 + offset) n).1.bar2Returns (v.fwpRead (v.mem.bar2 + offset) n).2
        | .write d => v.bar2Write (v.mem.bar2 + offset) d)

/-- The events of readout have their effect (R193, R201 to R217). -/
def Obligations.ReadoutEventsTakeEffect : Prop :=
  ∀ (s : State) (t : Nat) (g : Fin 4), let r := s.rings.get g
    (∀ desc, desc.length ≠ 32 → exec (.descriptorTake t g desc) s = .refused .illFormed) ∧
    (∀ desc, desc.length = 32 → r.on = true → r.descHead ≠ r.descTail → r.desc = none → r.cpl.full r.cfg = false → s.memBusy = false →
      let d := descOf desc
      let took := fun v : State => v.onRing g fun x => { x with descHead := (x.descHead + 1) % 2 ^ 32 }
      (d.invalid r.follows = true → s.Turns (.descriptorTake t g desc) t fun v =>
        ((took v).onRing g fun x => { x with descErrors := x.descErrors + 1 }).toGroup g (descErrorCompletion r.descHead 1 d.irqNow)) ∧
      (d.invalid r.follows = false → d.kind ≠ 1 → s.Turns (.descriptorTake t g desc) t fun v => (took v).takeFetch g d r.descHead) ∧
      (d.invalid r.follows = false → d.kind = 1 → (s.groups.get g).streamWaits = true ∨ r.nextItem ≠ none →
        s.Turns (.descriptorTake t g desc) t fun v => (took v).takeBuffer g d r.descHead)) ∧
    (∀ b : Bytes, b.length ≠ 2048 → exec (.readoutBlockRead t g (some b)) s = .refused .illFormed) ∧
    (∀ (d : Desc) (a : Nat) (damaged : Option Bytes), (∀ b, damaged = some b → b.length = 2048) → r.desc = some d → s.nextRead g d = some a → s.memBusy = false →
      let read := fun v : State => (v.arrayRead a 2048).1
      let b := damaged.getD ((s.advance t).arrayRead a 2048).2
      let bad := !crcOk b || s.mem.bad a 2048
      (bad = true → r.rereads < 3 → s.Turns (.readoutBlockRead t g damaged) t fun v =>
        ((read v).onMem fun m => { m with rereads := m.rereads + 1 }).onRing g fun x => { x with rereads := x.rereads + 1 }) ∧
      ((bad = false ∨ 3 ≤ r.rereads) → s.Turns (.readoutBlockRead t g damaged) t fun v =>
        let d1 := { d with filled := d.filled + 1, firstBad := if bad = true ∧ d.badCount = 0 then d.filled else d.firstBad
                           badCount := d.badCount + (if bad then 1 else 0) }
        let u := (((read v).onMem fun m => { m with blockBad := m.blockBad + (if bad then 1 else 0) }).linkOut
          [.data (d.addr + 2048 * d.filled) (deliverBlock b bad)]).onRing g fun x => { x with rereads := 0, blocks := x.blocks + 1, desc := some d1 }
        match d.use with
        | .stream => u.streamBlock g d1 bad
        | .item => u.itemBlock g bad
        | .fetchRecord => u.fetchBlock g d1
        | .fetchSnapshot => u.fetchBlock g d1)) ∧
    (r.on = true → s.events.pending = [] →
      (∀ (i : Item) (c : Completion), r.items.head? = some i → i.afterEvent ≤ s.events.written → i.waitsSlew = false → s.itemReady g i = some c →
        s.TurnsThen (.completionPost t g.castSucc .item) t fun v => v.postGroup g c fun u => u.dropItem g c) ∧
      (∀ c, (r.cpl.waiting.find? fun c => c.kind = .stream) = some c →
        s.TurnsThen (.completionPost t g.castSucc .stream) t fun v => v.postGroup g c fun u => u.dropWaiting g c) ∧
      ∀ c, (r.cpl.waiting.find? fun c => c.kind = .fetch || c.kind = .descError) = some c →
        s.TurnsThen (.completionPost t g.castSucc .fetch) t fun v => v.postGroup g c fun u => u.dropWaiting g c) ∧
    (s.ringOn = true →
      (∀ e rest, s.events.queue = e :: rest →
        s.TurnsThen (.completionPost t 4 .event) t fun v => (v.post4 (eventCompletion e) fun u => u.dropEvent e).applyReset) ∧
      ∀ c lane, lane ≠ .event → c.afterEvent ≤ s.events.written →
        (s.events.pending = [] ∧ s.ring4.waiting.head? = some c ∨ s.events.pending ≠ [] ∧ s.ring4.waiting.find? Completion.isNotice = some c) →
        s.TurnsThen (.completionPost t 4 lane) t fun v =>
          (v.post4 c fun u => (u.onRing4 fun x => { x with waiting := x.waiting.erase c }).applySetup).applyReset) ∧
    (∀ d : Desc, r.desc = some d → d.use = .stream → 0 < d.filled → (s.groups.get g).streamWaits = false →
      r.lastBlock + flushTimer r.cfg * us ≤ max s.now t → s.Turns (.streamFlushTimeout t g) t fun v => v.closeStream g d) ∧
    (r.on = true → r.cpl.timerDue r.cfg (max s.now t) = true → s.Turns (.irqTimerExpiry t g.castSucc) t fun v =>
      (v.onRing g fun x => { x with cpl := { x.cpl with unsignalled := 0 } }).linkOut [.msix (ringVector r.cfg)]) ∧
    (s.ringOn = true → s.ring4.timerDue s.host.ring (max s.now t) = true → s.Turns (.irqTimerExpiry t 4) t fun v =>
      (v.onRing4 fun x => { x with unsignalled := 0 }).linkOut [.msix (ringVector s.host.ring)])

/-- The events of the monitor have their effect (R311 to R321, R399, R460, R483). -/
def Obligations.MonitorEventsTakeEffect : Prop :=
  ∀ (s : State) (t : Nat), s.board.pwrOk = true →
    (∀ (code : BitVec 12) (ovr : Bool), s.mon.rotation < 10 →
      let c := s.mon.rotation
      let read := fun v : State => (v.convert c code.toNat ovr).code
      let turned := fun v : State => v.countConversion.onMon fun m =>
        { m with rotation := if c = 9 then 0 else c + 1, temps := m.temps.set c (read v, true), hot := m.hot.set c (decide (c < 6 ∧ 2540 ≤ read v)) }
      let trip := c < 6 ∧ 2540 ≤ code.toNat ∧ s.mon.hot.getD c false = true ∧ s.board.thermWatch = true
      (trip → s.TurnsThen (.monConversion t 8 code ovr) t fun v => (turned v).fatal 0x0025 c true) ∧
      (¬ trip → s.TurnsThen (.monConversion t 8 code ovr) t turned)) ∧
    (∀ (slot : Fin 16) (n : Fin 8) (code : BitVec 12) (ovr : Bool), slot.val = n.val → winOn (s.mon.windows.get n).cfg = true →
      s.TurnsThen (.monConversion t slot code ovr) t fun v => v.countConversion.windowResult n (v.convert (winChannel (s.mon.windows.get n).cfg) code.toNat ovr)) ∧
    (∀ (slot : Fin 16) (code : BitVec 12) (ovr : Bool), slot.val ≠ 8 → (∀ n : Fin 8, slot.val = n.val → winOn (s.mon.windows.get n).cfg = false) →
      (s.mon.nextReq = none → s.TurnsThen (.monConversion t slot code ovr) t id) ∧
      ∀ (r : Fin 3) (channel : Nat), s.mon.nextReq = some r → (s.mon.reqs.get r).pending = some channel →
        s.TurnsThen (.monConversion t slot code ovr) t fun v => v.countConversion.softwareResult r (v.convert channel code.toNat ovr)) ∧
    (s.mon.settled = false → s.Turns (.monRefSettled t) t fun v => v.onMon fun m => { m with settled := true, roseAt := max s.now t }) ∧
    ∀ rail : Fin 12, s.TurnsThen (.railFault t rail) t fun v => v.fatal 0x0026 rail.val

/-- The events of a calibration run have their effect (R228 to R235). -/
def Obligations.CalibrationRunEventsTakeEffect : Prop :=
  ∀ (s : State) (t : Nat) (q : Fin 4),
    (∀ squares : List Nat, squares.length ≠ 4 → exec (.calLeakageEnd t q squares) s = .refused .illFormed) ∧
    (∀ point : Bytes, point.length ≠ pointBytes → exec (.calCompareEnd t q point) s = .refused .illFormed) ∧
    ∀ r : CalRun, s.cal.run = some r → let now := max s.now t
      let go := fun (v : State) (x : CalRun) (p : CalPhase) (from' : Nat) => v.onCal fun c => { c with run := some { x with cur := some (q.val, p, from') } }
      let ends := fun (v : State) (x : CalRun) => (v.onCal fun c => { c with run := some x }).nextQuad
      (∀ x, r.drain = some x → r.ended = none →
        (s.draining r.mask = false → s.Turns (.calDrainDone t) t fun v => ends v { r with drain := none }) ∧
        (s.draining r.mask = true → x + 100 * ms ≤ now → s.Turns (.calDrainTimeout t) t fun v => v.endDrain r)) ∧
      (∀ start : Nat, r.cur = some (q.val, .leakage, start) → start + ms ≤ now → ∀ squares : List Nat, squares.length = 4 →
        let active := (ofQuad q).zipIdx.any fun (i, j) => feeds (s.quads.get q).fusion i ≠ [] && 19531250000000 < squares.getD j 0
        (active = true → r.proceed = false → s.Turns (.calLeakageEnd t q squares) t fun v => ends v (r.outcome q.val 0x0803)) ∧
        (active = true → r.proceed = true → s.Turns (.calLeakageEnd t q squares) t fun v =>
          go (v.leaveConnect q .isolate) { r with leaky := r.leaky ||| 2 ^ q.val } .isolating start) ∧
        (active = false → s.Turns (.calLeakageEnd t q squares) t fun v => go (v.leaveConnect q .isolate) r .isolating start)) ∧
      (∀ start : Nat, r.cur = some (q.val, .isolating, start) → start + (ms + ms / 2) ≤ now →
        s.Turns (.calIsolateEnd t q) t fun v => go (v.onQuad q fun k => { k with switch := .source }) r .sourcing start) ∧
      (∀ start : Nat, r.cur = some (q.val, .sourcing, start) → start + 2 * ms ≤ now → s.Turns (.calSourceSettled t q) t fun v => go v r .runA start) ∧
      (∀ start : Nat, r.cur = some (q.val, .runA, start) →
        (∀ caldc : Int, start + 7 * ms ≤ now →
          let off := calDc s.cal.cfg ≠ 0 ∧ 1000 * calDc s.cal.cfg < 50 * (caldc - 1000 * calDc s.cal.cfg).natAbs
          (off → s.Turns (.calRefTransferEnd t q caldc) t fun v => go v (r.outcome q.val 0x0804) .stopping now) ∧
          (¬ off → s.Turns (.calRefTransferEnd t q caldc) t id)) ∧
        (start + 59 * ms ≤ now → s.Turns (.calRunAEnd t q) t fun v => go v r .runB start)) ∧
      (∀ (start : Nat) (agree : Bool), r.cur = some (q.val, .runB, start) → start + 116 * ms ≤ now →
        s.Turns (.calRunBEnd t q agree) t fun v => go v (if agree then r else r.outcome q.val 0x0806) .compare start) ∧
      (∀ (start : Nat) (point : Bytes), r.cur = some (q.val, .compare, start) → start + 118 * ms ≤ now → point.length = pointBytes →
        let back := fun v : State => v.returnSwitch q (start + 120 * ms - v.now)
        (r.outcomes.getD q.val 0xFFFF ≠ 0xFFFF → s.Turns (.calCompareEnd t q point) t fun v => go (back v) r .restore start) ∧
        (r.outcomes.getD q.val 0xFFFF = 0xFFFF → pointOk point = true →
          s.Turns (.calCompareEnd t q point) t fun v => go (back v) { r with points := r.points ++ [(q.val, point)] } .restore start) ∧
        (r.outcomes.getD q.val 0xFFFF = 0xFFFF → pointOk point = false →
          s.Turns (.calCompareEnd t q point) t fun v => go (back v) (r.outcome q.val 0x0807) .restore start)) ∧
      (∀ start : Nat, r.cur = some (q.val, .restore, start) → start + 120 * ms ≤ now → s.Turns (.calRestoreEnd t q) t fun v =>
        ends v (if r.outcomes.getD q.val 0xFFFF = 0xFFFF then r.outcome q.val 0 else r)) ∧
      (∀ start : Nat, r.cur = some (q.val, .stopping, start) → start ≤ now → s.Turns (.calStopDone t q) t fun v =>
        let u := v.returnSwitch q (2 * ms)
        if (u.quads.get q).held.any fun (_, e) => e.all (u.now < ·) then go u r .stopHeld u.now else u.nextQuad) ∧
      (∀ start : Nat, r.cur = some (q.val, .stopHeld, start) → start ≤ now → ((s.quads.get q).held.all fun (_, e) => e.any (· ≤ now)) = true →
        s.Turns (.calHeldWordsEnd t q) t State.nextQuad) ∧
      (∀ x, r.ended = some x → s.TurnsThen (.calResultsFormed t) t fun v => v.formResults r)

/-- Changeovers and the events that lead to them have their effect (R228, R234 to R244, R249, R412). -/
def Obligations.ChangeoverEventsTakeEffect : Prop :=
  ∀ (s : State) (t : Nat) (q : Fin 4), let v := s.advance t
    let w := v.decideTo v.now
    (w.atBeat = true →
      (w.setReady = true → s.Turns (.changeover t q) t fun _ => w.enterSet w.now) ∧
      (w.setReady = false → w.bgReady q = true → s.Turns (.changeover t q) t fun _ => w.enterBg q w.now)) ∧
    (∀ (g : Fin 4) (x : Nat), (w.groups.get g).reopen = some x → x ≤ atCapture (w.groups.get g).f w.now →
      s.Turns (.gatherReopen t g) t fun _ => w.onGroup g fun k => { k with closed := 0, reopen := none }) ∧
    (bgGathers s.cal.cfg = true → (s.quads.get q).bgPending = true → s.runHolds q = false →
      (s.quads.get q).lastChangeover + bgPeriod s.cal.cfg * ms ≤ max s.now t → s.Turns (.bgGatherDue t q) t fun u => u.openGather q) ∧
    (∀ temp : Int, (s.quads.get q).control = true →
      s.Turns (.quadTempReading t q temp) t fun u => (u.onQuad q fun k => { k with temp := temp }).judgeBg q) ∧
    ((s.quads.get q).switch ≠ .connect → 125 * ms ≤ (s.quads.get q).outTicks + (max s.now t - (s.quads.get q).outSince) →
      s.Turns (.switchTimeout t q) t fun u => (u.returnSwitch q (2 * ms)).abortRun) ∧
    (∀ a e : Nat, (s.quads.get q).held = some (a, some e) → e + 64 ≤ max s.now t →
      s.Turns (.heldTriggerResume t q) t fun u => u.onQuad q fun k => { k with held := none, heldPast := k.heldPast ++ [(a, e)] })

/-- The events of the stimulus sequencer have their effect (R291 to R306). -/
def Obligations.StimulusEventsTakeEffect : Prop :=
  ∀ (s : State) (t : Nat) (c : Fin 2), let k := s.stim.chs.get c
    let p := seqPeriod s.stim.cfg c.val
    let v := s.advance t
    (k.state = .waiting → v.reached k.startAt = true →
      let d := (k.decided.head?).getD (s.stim.iteration 0 k.startAt k.startStep 0 false)
      s.Turns (.stimStartInstant t c) t fun u => (u.onCh c fun x => { x with
        state := .playing, underrun := false, lastEnd := .none, fresh := true, acc := 0, accAt := k.startAt, freq := 0, phase := 0, ampl := 0, decided := []
        lastDp := k.startAt - 64 * p, requests := [], jumpSeq := none, stopSeq := none, stopRamp := none, ramping := false
        muteRamp := none, begun := k.startAt, updates := 0 }).beginIteration c d) ∧
    (k.state = .waiting → k.decided = [] → k.judgeAt ≤ v.grove64 →
      s.Turns (.stimDecisionPoint t c) t fun u => u.onCh c fun x => { x with decided := [s.stim.iteration 0 k.startAt k.startStep 0 false] }) ∧
    (k.state = .playing → k.tail.ends = false → v.reached (k.tail.nextDp p) = true →
      s.Turns (.stimDecisionPoint t c) t fun u => u.decideBoundary c) ∧
    (k.state = .playing → v.reached (k.begun + k.updates * p) = true →
      ∀ (u : State) (d : Decision) (rest : List Decision), u = (if k.decided = [] then v.decideBoundary c else v) → (u.stim.chs.get c).decided = d :: rest →
      let past := (u.endIteration c d.at_).onCh c fun x => { x with jumps := x.jumps + (if d.jump then 1 else 0) }
      (d.ends = true → s.Turns (.stimBoundary t c) t fun _ =>
        past.endChannel c (if d.stopped = true ∨ k.stopRamp ≠ none then .stopped else .program) d.at_) ∧
      (d.ends = false → s.Turns (.stimBoundary t c) t fun _ => (past.beginIteration c d).onCh c fun x => { x with decided := rest })) ∧
    (k.state = .playing → k.underrun = false → k.entry < segEntries (s.stim.seg k.seg) → v.reached k.entryAt = true → ∀ starved : Bool,
      let d := s.stim.seg k.seg
      let a := s.stim.entryAddr d k.entry
      let poison := segKind d = 2 ∧ s.mem.bad a 16 = true
      (segKind d = 2 ∧ starved = true ∨ poison → s.Turns (.stimEntryEffect t c starved) t fun u =>
        ((if poison then u.raiseAt { code := 0x0681, obj := 0x15, vals := [a] } (dacTick k.entryAt) else u).onStim fun q =>
          { q with starved := q.starved + 1 }).underrunFrom c k.entryAt) ∧
      (¬ (segKind d = 2 ∧ starved = true ∨ poison) → s.Turns (.stimEntryEffect t c starved) t fun u =>
        let e := u.segEntry k.seg k.entry
        (u.onCh c fun x => { x with
          acc := if entClear e then 0 else u.accumAt c k.entryAt, accAt := k.entryAt, freq := entFreq e, phase := entPhase e, ampl := entAmpl e, fresh := false
          muteRamp := none, entry := k.entry + 1, entryAt := k.entryAt + entDuration e * p }).setMarkers c (if k.ramping then 0 else entMarkers e) k.entryAt)) ∧
    (∀ n a, k.stopRamp = some (n, a) → k.state = .playing →
      (k.ramping = false → v.reached n = true → s.Turns (.stimStopRampStart t c) t fun u =>
        (u.setMarkers c 0 n).onCh c fun x => { x with ramping := true, stopRamp := some (n, u.amplAt c n) }) ∧
      (k.ramping = true → v.reached (n + 64 * p) = true → s.Turns (.stimStopRampEnd t c) t fun u => u.endChannel c .stopped (n + 64 * p))) ∧
    (∀ n a, k.muteRamp = some (n, a) → v.reached (n + 64 * p) = true →
      s.Turns (.stimMuteRampEnd t c) t fun u => u.onCh c fun x => { x with ampl := 0, muteRamp := none }) ∧
    ∀ i crc rest, s.stim.readback = (i, crc) :: rest →
      let d := s.stim.seg i
      let r := v.fwpRead (s.stim.entryAddr d 0) (16 * segEntries d)
      let sum := ((List.range (segEntries d)).map fun e => bits (leAt r.2 (16 * e) 16) 8 24 + 1).foldl (· + ·) 0
      let ok := segKind d = 2 && crc32c r.2 = crc && sum = segUpdates d
      (ok = true → s.TurnsThen (.segmentReadbackDone t) t fun _ =>
        (r.1.onStim fun q => { q with readback := rest, ready := (q.ready.filter (· ≠ i)) ++ [i], stirred := q.stirred.filter (· ≠ i) }).finish (.readback i) Reply.ok) ∧
      (ok = false → s.TurnsThen (.segmentReadbackDone t) t fun _ =>
        (r.1.onStim fun q => { q with readback := rest }).finish (.readback i) (Reply.refused 0x090A))

/-- The events of the bough ports have their effect (R426 to R432, R442, R450). -/
def Obligations.BoughPortEventsTakeEffect : Prop :=
  ∀ (s : State) (t : Nat) (p : Fin 5), s.boughOn = true → let b := s.port p
    (∀ lane : Fin 4,
      let lost := fun v : State => v.onPort p fun x => { x with lanes := x.lanes - at' (bits x.lanes lane.val 1) lane.val }
      (b.link = .up → s.TurnsThen (.laneLockLost t p lane) t fun v =>
        (((lost v).onPort p fun x => x.goDown (v.now - 20000)).endRange p).raise { code := 0x0B81, obj := p.val }) ∧
      (b.link ≠ .up → s.TurnsThen (.laneLockLost t p lane) t lost)) ∧
    (∀ lane : Fin 4, let lanes := b.lanes ||| 2 ^ lane.val
      (b.link = .up ∨ b.link = .retraining → s.TurnsThen (.blockLock t p lane) t fun v => v.onPort p fun x => { x with lanes := lanes }) ∧
      (b.link ≠ .up → b.link ≠ .retraining →
        let trains := fun v : State => v.onPort p fun x =>
          { x with lanes := lanes, link := .training, credits := if x.hello = none ∧ x.lanes ≠ 15 then 64 else x.credits }
        (lanes ≠ 15 → s.TurnsThen (.blockLock t p lane) t trains) ∧
        (lanes = 15 → s.TurnsThen (.blockLock t p lane) t fun v => ((trains v).onPort p fun x => { x with hello := none }).sayHello))) ∧
    (b.link = .retraining → s.TurnsThen (.fastRetrainDone t p) t fun v =>
      (((v.onPort p fun x => { x with lanes := 15, hello := none }).portUp p).onPort p fun x =>
        let y := (x.resendBlocks v.now).pump v.now
        { y with
          frames := y.frames.map fun f => { f with departed := v.now, resends := f.resends + 1 }
          pframeResends := y.pframeResends + y.frames.length, wire := (y.frames.map fun f => frameBytes f.frame).reverse ++ y.wire }).sayHello) ∧
    (∀ block : Bytes, b.sends = true →
      (block.length ≠ 1024 ∨ crcOk block = false → s.TurnsThen (.boughBlockReceive t p block) t fun v =>
        v.onPort p fun x => BoughPort.pump { x with nak := true } v.now) ∧
      (block.length = 1024 → crcOk block = true →
        let heard := fun v : State =>
          let u := v.onPort p fun x => x.acked (leAt block 4 2) (leAt block 6 1) v.now
          if leAt block 0 1 = 6 then u
          else if leAt block 2 2 = b.rxSeq then u.onPort p fun x => x.accept (leAt block 0 1) ((block.drop 10).take (min 1010 (leAt block 8 2))) v.now
          else u.onPort p fun x => { x with ackDue := true }
        (bit (leAt block 1 1) 0 = false → s.TurnsThen (.boughBlockReceive t p block) t fun v => (heard v).onPort p fun x => x.pump v.now) ∧
        (bit (leAt block 1 1) 0 = true → s.TurnsThen (.boughBlockReceive t p block) t fun v => ((heard v).replayBlocks p).onPort p fun x => x.pump v.now))) ∧
    (b.sends = true → b.ackAt + 400000 ≤ max s.now t → b.replay ≠ [] →
      ((∀ x ∈ b.replay, x.resends < 8) → s.TurnsThen (.blockReplayTimeout t p) t fun v => v.onPort p fun x => x.resendBlocks v.now) ∧
      (∀ x ∈ b.replay, 8 ≤ x.resends → s.TurnsThen (.blockReplayTimeout t p) t fun v => v.portDown p v.now)) ∧
    (let old := fun (x : OutBlock) => x.btype ≠ 5 && 100000 ≤ ageNow x.age x.since (max s.now t)
     let cut := b.replay.filter fun x => old x && !x.dropped
     let count := (((b.out.filter old ++ cut).map OutBlock.msg).eraseDups.filter fun m => !(b.replay.any fun x => x.dropped && x.msg = m)).length
     s.TurnsThen (.messageAgeExpiry t p) t fun v => (v.onPort p fun x => { x with
       out := x.out.filter fun y => !old y, replay := x.replay.map fun y => { y with dropped := y.dropped || old y } }).onGrove
         fun g => { g with ageDrops := g.ageDrops + count }) ∧
    (∀ since : Nat, (s.port 0).downSince = some since → since + ms ≤ max s.now t →
      (s.grove.role = .worker ∨ s.grove.role = .orphanMember → s.TurnsThen (.orphanTimeout t) t fun v =>
        let u := ((v.each dn fun w k => w.onPort k fun x =>
          if x.downSince.any (fun y => y + ms ≤ w.now) && (x.partner.map LinkMsg.role) = some 1 then x.discard else x).onPort 0 BoughPort.discard).enterOrphan .orphanRoot
        (u.sendDown (u.linkMsg 4 .orphanRoot)).sayHello) ∧
      (s.grove.role = .sapling → s.TurnsThen (.saplingTimeout t) t fun v => (v.onGrove fun g => { g with
        role := .manager, devaddr := 0, epoch := 0, depth := 0, manager := 0, hasManager := true, bound := 2256, maxDepth := 0, mcast := Grove.reset.mcast
        aligned := true, routes := [], gtn := 1, lastBroadcast := none, requests := [], forwards := [] }).rejudge.sayHello))

/-- Messages that arrived on a bough port are passed on (R386, R430, R432, R438 to R442, R450). -/
def Obligations.BoughMessagesArePassedOn : Prop :=
  ∀ (s : State) (t : Nat) (p : Fin 5) (m : Msg) (n : Nat) (rest : List Arrived), s.boughOn = true → (s.port p).arrived = .msg m n :: rest →
    let g := s.grove
    let past := fun v : State => v.onPort p fun b => BoughPort.pump { b with arrived := b.arrived.drop 1, held := b.held - n, freed := b.freed + n } v.now
    let old := 100000 ≤ m.age + ceilDiv (max s.now t - m.since) 2000
    let dropped := fun v : State => (past v).onGrove fun x => { x with ageDrops := x.ageDrops + 1 }
    let taken := fun (i : Instr) (f : State → State) =>
      ((s.path .bough).queue.length < 256 → s.TurnsThen i t f) ∧ (256 ≤ (s.path .bough).queue.length → s.TurnsThen i t id)
    (m.rkind = 1 →
      (old → s.TurnsThen (.unicast t p) t dropped) ∧
      (¬ old → g.role = .sapling → s.TurnsThen (.unicast t p) t fun v => (past v).saplingDrop) ∧
      (¬ old → g.role.orphan = true → s.TurnsThen (.unicast t p) t past) ∧
      (¬ old → g.role = .manager ∨ g.role = .worker →
        (m.target = g.devaddr → taken (.unicast t p) fun v => (past v).takePacket m) ∧
        (m.target ≠ g.devaddr →
          (∀ k, g.route m.target = some k → s.TurnsThen (.unicast t p) t fun v => (past v).sendOn (Fin.ofNat 5 k) m) ∧
          (g.route m.target = none → s.TurnsThen (.unicast t p) t fun v => (past v).onGrove fun x => { x with routeMisses := x.routeMisses + 1 })))) ∧
    (m.rkind = 3 →
      (old → s.TurnsThen (.flood t p) t dropped) ∧
      (¬ old → g.role = .sapling → s.TurnsThen (.flood t p) t fun v => (past v).saplingDrop) ∧
      (¬ old → g.role.orphan = true → s.TurnsThen (.flood t p) t past) ∧
      (¬ old → g.role = .manager ∨ g.role = .worker →
        (s.member m.target = true → taken (.flood t p) fun v => ((past v).flood m).takePacket m) ∧
        (s.member m.target = false → s.TurnsThen (.flood t p) t fun v => (past v).flood m))) ∧
    (m.rkind = 4 →
      (old → s.TurnsThen (.path t p) t dropped) ∧
      (¬ old → g.role.orphan = true → s.TurnsThen (.path t p) t past) ∧
      (¬ old → g.role.orphan = false →
        (m.hops = pathDepth m.path → taken (.path t p) fun v => (past v).takePacket m) ∧
        (m.hops ≠ pathDepth m.path → s.TurnsThen (.path t p) t fun v => (past v).sendOn (pathPort m.path (m.hops + 1)) { m with hops := m.hops + 1 }))) ∧
    (m.rkind = 2 →
      let learns := fun v : State => (past v).onGrove fun x =>
        if leAt m.packet 8 2 = 0 then x else { x with routes := putAssoc x.routes (leAt m.packet 8 2) p.val }
      (old → s.TurnsThen (.up t p) t dropped) ∧
      (¬ old → g.role.orphan = true → s.TurnsThen (.up t p) t fun v => (learns v).onGrove fun x => { x with upDrops := x.upDrops + 1 }) ∧
      (¬ old → g.role = .manager → s.TurnsThen (.up t p) t fun v => (learns v).writeRemote m.packet) ∧
      (¬ old → g.role = .worker ∨ g.role = .sapling → s.TurnsThen (.up t p) t fun v => (learns v).onPort 0 fun b => b.push m v.now))

/-- Link messages that arrived on a bough port have their effect (R426, R431, R442, R447, R450 to R455). -/
def Obligations.LinkMessagesTakeEffect : Prop :=
  ∀ (s : State) (t : Nat) (p : Fin 5) (l : LinkMsg) (rest : List Arrived), s.boughOn = true → (s.port p).arrived = .link l :: rest →
    let g := s.grove
    let past := fun v : State => v.onPort p fun b => BoughPort.pump { b with arrived := b.arrived.drop 1, held := b.held - 0, freed := b.freed + 0 } v.now
    (l.kind = 1 →
      let knows := fun v : State => (past v).onPort p fun b => { b with partner := some l }
      let rises := fun v : State => if ((knows v).port p).link = .training then (knows v).portUp p else knows v
      let clear := fun v : State => v.onPort p fun b => { b with joinHeld := false, conflict := false }
      let send := fun (v : State) (kind : Nat) => v.onPort p fun b => b.pushLink (v.linkMsg kind g.role) v.now
      let ends := fun (f : State → State) (v : State) => (f (rises v)).onPort p fun b => b.pump v.now
      let known := l.role = 2 ∨ l.role = 4 ∨ l.role = 1 ∧ l.epoch = g.epoch ∧ l.manager = g.manager
      (p = 0 → s.TurnsThen (.hello t p) t (ends id)) ∧
      (p ≠ 0 → known → s.TurnsThen (.hello t p) t (ends clear)) ∧
      (p ≠ 0 → ¬ known → g.role = .sapling ∨ g.role.orphan = true →
        s.TurnsThen (.hello t p) t (ends fun v => v.onPort p fun b => { b with joinHeld := true, conflict := false })) ∧
      (p ≠ 0 → ¬ known → g.role = .manager ∨ g.role = .worker →
        (g.epoch < l.epoch → s.TurnsThen (.hello t p) t (ends fun v => send (v.conflict p l.epoch) 3)) ∧
        (l.epoch ≤ g.epoch → l.role = 0 → s.TurnsThen (.hello t p) t (ends fun v => send (clear v) 6)) ∧
        (l.epoch ≤ g.epoch → l.role ≠ 0 → s.TurnsThen (.hello t p) t (ends fun v => (send (clear v) 2).startRange p [])))) ∧
    (l.kind = 2 →
      (p = 0 → g.role = .orphanRoot ∨ g.role = .worker → s.TurnsThen (.joinAccept t p) t fun v =>
        let u := (((past v).onPort 0 fun b => { b with conflict := false }).onGrove fun x =>
          { x with rejoin := if x.role = .orphanRoot then some (v.grove64, x.epoch) else x.rejoin }).leaveOrphan .worker l.epoch l.manager
        ((u.sendDown (u.linkMsg 5 .worker)).rejudge).sayHello) ∧
      (p ≠ 0 ∨ g.role ≠ .orphanRoot ∧ g.role ≠ .worker → s.TurnsThen (.joinAccept t p) t past)) ∧
    (l.kind = 3 → s.TurnsThen (.joinRefuse t p) t fun v => (past v).conflict p l.epoch) ∧
    (l.kind = 4 →
      (p = 0 → g.role = .worker ∨ g.role.orphan = true → s.TurnsThen (.orphanNotice t p) t fun v =>
        let u := (past v).enterOrphan .orphanMember
        (u.sendDown (u.linkMsg 4 .orphanMember)).sayHello) ∧
      (p ≠ 0 ∨ g.role = .manager ∨ g.role = .sapling → s.TurnsThen (.orphanNotice t p) t past)) ∧
    (l.kind = 5 →
      (p = 0 → g.role ≠ .manager → g.role ≠ .sapling → s.TurnsThen (.epochSet t p) t fun v =>
        let u := if l.role = 1 then (past v).leaveOrphan .worker l.epoch l.manager
          else ((past v).onGrove fun x => { x with epoch := l.epoch, manager := l.manager }).enterOrphan (Role.ofCode l.role)
        ((u.sendDown { l with devaddr := g.devaddr }).rejudge).sayHello) ∧
      (p ≠ 0 ∨ g.role = .manager ∨ g.role = .sapling → s.TurnsThen (.epochSet t p) t past)) ∧
    (l.kind = 6 →
      (p = 0 → s.TurnsThen (.saplingSet t p) t fun v =>
        (((past v).onGrove fun x => { x with
          role := .sapling, devaddr := 0, epoch := 0, routes := [], hasManager := false, aligned := false, depth := 0, rejoin := none }).sendDown
          { l with devaddr := 0 }).sayHello) ∧
      (p ≠ 0 → s.TurnsThen (.saplingSet t p) t past))

/-- The events of grove triggers, priority frames and ranging have their effect (R88, R89, R433 to R437, R445, R447, R449, R451, R454). -/
def Obligations.GroveTriggersAndRangingTakeEffect : Prop :=
  ∀ (s : State) (t : Nat), s.boughOn = true → let g := s.grove
    let taken := fun (v : State) (p : Fin 5) (pseq : Nat) => v.onPort p fun b => { (b.sendPack pseq g.devaddr) with rxP := (b.rxP + 1) % 256 }
    let request := fun (x : Grove) (q : TrigReq) =>
      if x.role = .manager then (if 16 ≤ x.requests.length then { x with queueDrops := x.queueDrops + 1 } else { x with requests := x.requests ++ [q] })
      else if x.role = .orphanRoot then { x with orphanRequestDrops := x.orphanRequestDrops + 1 }
      else if 8 ≤ x.forwards.length then { x with requestDrops := x.requestDrops + 1 }
      else { x with forwards := x.forwards ++ [q] }
    (∀ (p : Fin 5) (pseq : Nat) (i : Instr), (s.port p).link = .up → (∀ k : Fin 4, p = k.succ → ∃ o tick fr, i = .triggerRequest t k pseq o tick fr) →
      (p = 0 → ∃ o tick fr gtn, i = .groveTrigger t pseq o tick fr gtn) → pseq % 256 ≠ (s.port p).rxP → ((s.port p).rxP + 256 - pseq % 256) % 256 ≤ 128 →
      s.TurnsThen i t fun v => v.onPort p fun b => b.sendPack pseq g.devaddr) ∧
    (∀ (pseq origin : Nat) (tick : BitVec 64) (fr gtn : BitVec 32), (s.port 0).link = .up → pseq % 256 = (s.port 0).rxP →
      (g.role.orphan = true → s.TurnsThen (.groveTrigger t pseq origin tick fr gtn) t fun v => taken v 0 pseq) ∧
      (g.role.orphan = false → s.TurnsThen (.groveTrigger t pseq origin tick fr gtn) t fun v =>
        ((taken v 0 pseq).broadcastDown (origin % 65536) tick.toNat fr.toNat gtn.toNat).groveTrigger (origin % 65536) tick.toNat fr.toNat gtn.toNat)) ∧
    (∀ (p : Fin 4) (pseq origin : Nat) (tick : BitVec 64) (fr : BitVec 32), (s.port p.succ).link = .up → pseq % 256 = (s.port p.succ).rxP →
      s.TurnsThen (.triggerRequest t p pseq origin tick fr) t fun v =>
        (taken v p.succ pseq).onGrove fun x => request x { origin := origin % 65536, tick := tick.toNat, fraction := fr.toNat, arrived := v.now }) ∧
    (∀ (q : TrigReq) (rest : List TrigReq), g.requests = q :: rest → g.role = .manager → q.arrived ≤ max s.now t → (∀ x, g.lastSent = some x → x + 256 ≤ max s.now t) →
      let time := q.tick * 2 ^ 32 + q.fraction
      let off := fun v : State => v.onGrove fun x => { x with requests := rest }
      (∀ x, g.lastBroadcast = some x → time ≤ x → s.TurnsThen (.groveBroadcast t) t fun v => (off v).onGrove fun x => { x with orderDrops := x.orderDrops + 1 }) ∧
      ((∀ x, g.lastBroadcast = some x → x < time) → s.TurnsThen (.groveBroadcast t) t fun v =>
        (((off v).onGrove fun x => { x with gtn := (x.gtn + 1) % 2 ^ 32, lastBroadcast := some time, lastSent := some v.now }).broadcastDown
          q.origin q.tick q.fraction g.gtn).groveTrigger q.origin q.tick q.fraction g.gtn)) ∧
    (∀ (q : TrigReq) (rest : List TrigReq), g.forwards = q :: rest → q.arrived ≤ max s.now t → (∀ x, g.lastForward = some x → x + 256 ≤ max s.now t) →
      s.TurnsThen (.requestForward t) t fun v => (v.onGrove fun x => { x with forwards := rest, lastForward := some v.now }).frameOut 0
        { kind := 2, pseq := 0, origin := q.origin, tick := q.tick, fraction := q.fraction, value := 0 }) ∧
    (∀ (p : Fin 5) (pseq : Nat), s.TurnsThen (.pack t p pseq) t fun v => v.onPort p fun b => { b with frames := b.frames.filter fun f => f.frame.pseq ≠ pseq % 256 }) ∧
    (∀ (p : Fin 5) (f : OutFrame) (rest : List OutFrame), (s.port p).frames = f :: rest → (s.port p).link = .up → f.departed + 6000 ≤ max s.now t →
      (7 ≤ f.resends → s.TurnsThen (.pframeResend t p) t fun v => v.portDown p v.now) ∧
      (f.resends < 7 → s.TurnsThen (.pframeResend t p) t fun v => v.onPort p fun b => { b with
        frames := { f with departed := f.departed + 6000, resends := f.resends + 1 } :: rest, pframeResends := b.pframeResends + 1, wire := frameBytes f.frame :: b.wire })) ∧
    (∀ (pseq : Nat) (t1 : BitVec 64) (t1frac number arrival turnaround : BitVec 32), (s.port 0).link = .up → pseq % 256 = (s.port 0).rxP →
      s.TurnsThen (.rangeReq t pseq t1 t1frac number arrival turnaround) t fun v =>
        let d : Int := ((v.grove64 * 2 ^ 32 + arrival.toNat : Nat) : Int) - (t1.toNat * 2 ^ 32 + t1frac.toNat : Nat)
        ((taken v 0 pseq).onGrove fun x => { x with upSum := (if number = 0 then 0 else x.upSum) + d, upCount := if number = 0 then 1 else x.upCount + 1 }).frameOut 0
          { kind := 4, pseq := 0, origin := g.devaddr, tick := v.grove64, fraction := arrival.toNat, value := turnaround.toNat }) ∧
    (∀ (p : Fin 4) (pseq : Nat) (turnaround arrival : BitVec 32), (s.port p.succ).link = .up → pseq % 256 = (s.port p.succ).rxP →
      s.TurnsThen (.rangeReply t p pseq turnaround arrival) t fun v => (taken v p.succ pseq).onPort p.succ fun b => { b with run := b.run.map fun k =>
        { k with done := k.done + 1, sum := k.sum + 50000 * (((v.grove64 * 2 ^ 32 + arrival.toNat : Nat) : Int) - k.t1) - (turnaround.toNat * 2 ^ 32 : Nat) } }) ∧
    (∀ (p : Fin 4) (r : RangeRun), (s.port p.succ).run = some r →
      ((s.port p.succ).link = .up → r.done < 1024 → s.TurnsThen (.rangeExchange t p) t fun v =>
        (v.onPort p.succ fun b => { b with run := some { r with t1 := v.grove64 * 2 ^ 32 } }).frameOut p.succ
          { kind := 3, pseq := 0, origin := g.devaddr, tick := v.grove64, fraction := 0, value := r.done }) ∧
      (1024 ≤ r.done → s.TurnsThen (.rangeComplete t p) t fun v =>
        let d := roundDiv r.sum (2 * 2 ^ 32 * r.done)
        ((v.onPort p.succ fun b => { b with run := none, delay := d, ranged := true, longCable := 100000000 < d }).frameOut p.succ
          { kind := 5, pseq := 0, origin := g.devaddr, tick := 0, fraction := 0, value := unsigned 32 d }).each r.tickets fun u k =>
            u.raise { code := 0x0B87, obj := p.succ.val, ticket := k, vals := [unsigned 64 d] })) ∧
    (∀ p : Fin 4, (s.port p.succ).link = .up → (s.port p.succ).run = none → (s.port p.succ).partner.map LinkMsg.role = some 1 →
      s.TurnsThen (.trackingRange t p) t fun v => v.startRange p.succ []) ∧
    ∀ (pseq : Nat) (mean : BitVec 32), (s.port 0).link = .up → pseq % 256 = (s.port 0).rxP → g.upCount ≠ 0 →
      let u := roundDiv (50000 * g.upSum) (2 ^ 32 * g.upCount) - signed 32 mean.toNat
      let noted := fun v : State => (taken v 0 pseq).onGrove fun x => { x with upOffset := u, upSum := 0, upCount := 0, rejoin := none }
      (g.rejoin = none → s.TurnsThen (.rangeResult t pseq mean) t fun v => if s.tracking then (noted v).track else noted v) ∧
      ∀ tick epoch, g.rejoin = some (tick, epoch) → s.TurnsThen (.rangeResult t pseq mean) t fun v =>
        (if g.aligned then (noted v).track else noted v).raise
          { code := 0x0B85, vals := [g.orphanTick, tick, epoch, unsigned 64 u, if 50000 < u.natAbs then 1 else 0] }

/-- Query twins answer what is configured (R352, R353). -/
def Obligations.QueriesAnswerConfiguration : Prop :=
  ∀ (s : State) (h : Hdr) (select : BitVec 32), let k := select.toNat
    let one := fun (i : Instr) (op n : Nat) (answer : Bytes) =>
      s.Hears h op → s.engineState ∈ setQ → k < n → s.Does i h op (leBytes 4 k) (Reply.ok answer) id
    let all := fun (i : Instr) (op : Nat) (answer : Bytes) => s.Hears h op → s.engineState ∈ setQ → s.Does i h op [] (Reply.ok answer) id
    (h.path = .pcie → h.group = false → all (.cmdRingSetupQuery h) 0x0083 (structBytes s.host.ring)) ∧
    all (.clockPlanQuery h) 0x0181 (structBytes s.clock.plan) ∧
    one (.inputConfigQuery h select) 0x0281 16 (structBytes (vnat s.inputs k).cfg) ∧
    one (.quadFusionQuery h select) 0x0282 4 (leBytes 4 (vnat s.quads k).fusion) ∧
    one (.quadPowerQuery h select) 0x0283 4 (leBytes 4 (if (vnat s.quads k).state = .off then 0 else 1)) ∧
    one (.tuConfigQuery h select) 0x0381 8 (structBytes (vnat s.units k).cfg) ∧
    one (.cmpConfigQuery h select) 0x0382 16 (structBytes (vnat s.inputs k).cmp) ∧
    one (.combinerConfigQuery h select) 0x0383 4 (structBytes (vnat s.groups k).comb) ∧
    one (.trigoutConfigQuery h select) 0x0385 4 (structBytes (vnat s.trigouts k).cfg) ∧
    one (.captureConfigQuery h select) 0x0481 4 (structBytes (vnat s.groups k).cap) ∧
    one (.decimConfigQuery h select) 0x0482 4 (structBytes (vnat s.groups k).dec) ∧
    one (.accConfigQuery h select) 0x0581 4 (structBytes (vnat s.accs k).cfg) ∧
    one (.memPortConfigQuery h select) 0x0681 23 (structBytes (vnat s.mem.ports k).cfg) ∧
    all (.memConfigQuery h) 0x0682 (structBytes s.mem.cfg) ∧
    all (.bar2SetQuery h) 0x0684 (leBytes 8 s.mem.bar2) ∧
    one (.readoutRingsQuery h select) 0x0781 4 (structBytes (vnat s.rings k).cfg) ∧
    all (.calConfigQuery h) 0x0881 (structBytes s.cal.cfg) ∧
    all (.seqConfigQuery h) 0x0981 (structBytes s.stim.cfg) ∧
    one (.seqSegmentDefineQuery h select) 0x0982 4096 (structBytes (s.stim.seg k)) ∧
    one (.seqStepWriteQuery h select) 0x0985 1024 (structBytes (s.stim.step k)) ∧
    all (.monConfigQuery h) 0x0A81 (structBytes s.mon.cfg) ∧
    one (.monWindowSetQuery h select) 0x0A82 8 (structBytes (vnat s.mon.windows k).cfg) ∧
    all (.groveConfigQuery h) 0x0B82 (structBytes s.grove.mcast)

/-- Clock, link, quad and input rows change only the parts named, once time has moved to their tick (R43, R47, R51, R258, R263, R264, R271). -/
def Obligations.ClockAndInputRowsLeaveTheRest : Prop :=
  ∀ (s : State) (t : Nat),
    (∀ (loop : WhichLoop) (count : Nat) (word : Nat), s.ChangesThen t [.clock, .rings, .ring4, .paths, .host, .events, .fw, .grove, .link] (exec (.lockWindowEnd t loop count word) s)) ∧
    (∀ (loop : WhichLoop), s.ChangesThen t [.clock, .rings, .events, .grove, .link] (exec (.lockLost t loop) s)) ∧
    (∀ (band : Nat) (fine : Nat) (gain : Nat), s.Changes t [.clock] (exec (.bandSearchDone t band fine gain) s)) ∧
    (s.Changes t [.clock] (exec (.acquisitionDone t) s)) ∧
    (s.Changes t [.board, .clock, .quads, .events, .grove, .link] (exec (.commonStart t) s)) ∧
    (∀ (high : Bool) (fraction : BitVec 32), s.Changes t [.clock, .events, .grove, .link] (exec (.syncEdge t high fraction) s)) ∧
    (s.Changes t [.clock, .events, .grove, .link] (exec (.syncTimeout t) s)) ∧
    (s.ChangesThen t [.clock, .ring4, .paths, .host, .fw, .grove, .link] (exec (.planHopTimeout t) s)) ∧
    (s.Changes t [.clock, .cal, .rings, .events, .grove, .link] (exec (.refLost t) s)) ∧
    (∀ (phase : Int) (offset : Int), s.Changes t [.clock, .events, .grove, .link] (exec (.refReturned t phase offset) s)) ∧
    (∀ (phase : Int), s.Changes t [.clock, .rings, .events, .grove, .link] (exec (.slewEnd t phase) s)) ∧
    (s.Changes t [.clock, .cal, .events, .grove, .link] (exec (.fallbackSwitch t) s)) ∧
    (s.Changes t [.clock, .events, .grove, .link] (exec (.clockRestore t) s)) ∧
    (s.Changes t [.clock] (exec (.fallbackStandby t) s)) ∧
    (s.Changes t [.clock, .inputs, .quads, .cal, .units, .tagged, .decided, .evaluated, .groups, .accs, .trigouts, .mem, .rings, .events, .stim, .grove, .link, .freeCount] (exec (.sampleClockStop t) s)) ∧
    (∀ (uncertainty : Nat), s.Changes t [.clock, .banks, .events, .grove, .link] (exec (.sampleClockRestart t uncertainty) s)) ∧
    (s.ChangesThen t [.board, .clock, .quads, .cal, .mem, .ring4, .paths, .host, .events, .fw, .grove, .link] (exec (.xoLost t) s)) ∧
    (∀ (step : Nat), s.Changes t [.clock] (exec (.keeperTrim t step) s)) ∧
    (s.ChangesThen t [.clock, .ring4, .paths, .host, .fw, .stim, .grove, .link] (exec (.sqRephaseDone t) s)) ∧
    (∀ (bank : Fin 16) (data : LinkData), s.ChangesThen t [.board, .clock, .inputs, .quads, .banks, .cal, .units, .tagged, .decided, .evaluated, .groups, .accs, .trigouts, .mem, .rings, .ring4, .paths, .host, .events, .fw, .stim, .grove, .link, .freeCount] (exec (.sampleLinkBlock t bank data) s)) ∧
    (∀ (bank : Fin 16), s.Changes t [.banks] (exec (.nak t bank) s)) ∧
    (∀ (bank : Fin 16), s.Changes t [.banks] (exec (.linkResend t bank) s)) ∧
    (∀ (bank : Fin 16) (overrun : Bool), s.Changes t [.banks, .groups, .accs, .trigouts, .mem, .events, .grove, .link, .freeCount] (exec (.alignmentFifoRelease t bank overrun) s)) ∧
    (∀ (bank : Fin 16) (ok : Bool), s.ChangesThen t [.board, .clock, .quads, .banks, .cal, .mem, .ring4, .paths, .host, .fw, .grove, .link] (exec (.linkRetrainDone t bank ok) s)) ∧
    (∀ (bank : Fin 16), s.Changes t [.banks, .events, .grove, .link] (exec (.bankReturned t bank) s)) ∧
    (∀ (bank : Fin 16) (pos : Fin 32), s.Changes t [.banks] (exec (.sliceSubstitution t bank pos) s)) ∧
    (∀ (bank : Fin 16) (est : SliceEstimate), s.Changes t [.quads, .banks, .events, .grove, .link] (exec (.backgroundEstimate t bank est) s)) ∧
    (∀ (q : Fin 4), s.Changes t [.quads] (exec (.quadPoweringDone t q) s)) ∧
    (∀ (q : Fin 4), s.Changes t [.quads, .banks] (exec (.quadTrainingDone t q) s)) ∧
    (∀ (q : Fin 4), s.Changes t [.board, .quads, .events, .grove, .link] (exec (.quadConverged t q) s)) ∧
    (∀ (q : Fin 4), s.ChangesThen t [.quads, .banks, .ring4, .paths, .host, .fw, .grove, .link] (exec (.quadRetimingDone t q) s)) ∧
    (∀ (input : Fin 16), s.ChangesThen t [.ring4, .paths, .host, .fw, .grove, .link] (exec (.inputSettled t input) s))

/-- Trigger, capture and accumulation rows change only the parts named, once time has moved to their tick (R55, R77, R86, R97, R110, R116, R143, R153). -/
def Obligations.AcquisitionRowsLeaveTheRest : Prop :=
  ∀ (s : State) (t : Nat),
    (s.Changes t [.inputs, .units, .tagged, .decided, .evaluated, .groups, .accs, .trigouts, .mem, .rings, .events, .stim, .grove, .link, .freeCount] (exec (.triggerUnitDecision t) s)) ∧
    (s.Changes t [.inputs, .units, .tagged, .decided, .evaluated, .groups, .accs, .trigouts, .mem, .rings, .events, .stim, .grove, .link, .freeCount] (exec (.taggedEventDelivery t) s)) ∧
    (∀ (pin : Fin 4) (level : Bool) (tick : Nat) (fraction : BitVec 32), s.Changes t [.board, .units, .tagged] (exec (.triginEdge t pin level tick fraction) s)) ∧
    (∀ (unit : Fin 8), s.Changes t [.units, .tagged] (exec (.swTriggerDue t unit) s)) ∧
    (∀ (out : Fin 4), s.Changes t [.trigouts] (exec (.trigoutPulseStart t out) s)) ∧
    (∀ (out : Fin 4), s.Changes t [.trigouts] (exec (.trigoutPulseEnd t out) s)) ∧
    (∀ (out : Fin 4), s.Changes t [.trigouts] (exec (.trigoutLevelChange t out) s)) ∧
    (∀ (g : Fin 4), s.Changes t [.inputs, .units, .tagged, .decided, .evaluated, .groups, .accs, .trigouts, .mem, .rings, .events, .stim, .grove, .link, .freeCount] (exec (.fillComplete t g) s)) ∧
    (∀ (g : Fin 4), s.Changes t [.inputs, .units, .tagged, .decided, .evaluated, .groups, .accs, .trigouts, .mem, .rings, .events, .stim, .grove, .link, .freeCount] (exec (.holdoffExpiry t g) s)) ∧
    (∀ (g : Fin 4) (taint : Option (Nat × Nat)), s.Changes t [.groups, .mem, .events, .grove, .link] (exec (.recordBlockWritten t g taint) s)) ∧
    (∀ (g : Fin 4), s.Changes t [.inputs, .units, .tagged, .decided, .evaluated, .groups, .accs, .trigouts, .mem, .rings, .events, .stim, .grove, .link, .freeCount] (exec (.recordComplete t g) s)) ∧
    (∀ (g : Fin 4), s.Changes t [.inputs, .units, .tagged, .decided, .evaluated, .groups, .accs, .trigouts, .mem, .rings, .events, .stim, .grove, .link, .freeCount] (exec (.accumulationCommit t g) s)) ∧
    (∀ (g : Fin 4), s.Changes t [.accs, .mem, .rings] (exec (.snapshotComplete t g) s))

/-- Memory and readout rows change only the parts named, once time has moved to their tick (R166, R173, R181, R182, R186, R202, R211, R212, R217). -/
def Obligations.MemoryAndReadoutRowsLeaveTheRest : Prop :=
  ∀ (s : State) (t : Nat),
    (∀ (port : Fin 23) (unit : Nat) (access : MemAccess) (level : Nat), s.Changes t [.mem, .freeCount] (exec (.memRequest t port unit access level) s)) ∧
    (∀ (port : Fin 23) (ecc : Ecc), s.Changes t [.accs, .mem, .events, .grove, .link, .freeCount] (exec (.memReadReturn t port ecc) s)) ∧
    (∀ (pc : Fin 128), s.Changes t [.mem] (exec (.refreshDue t pc) s)) ∧
    (∀ (stack : Fin 4) (temp : Int), s.ChangesThen t [.board, .clock, .quads, .cal, .mem, .ring4, .paths, .host, .events, .fw, .grove, .link] (exec (.stackTempReading t stack temp) s)) ∧
    (∀ (pc : Fin 128), s.Changes t [.mem] (exec (.neighbourRefreshForced t pc) s)) ∧
    (∀ (g : Fin 5), s.ChangesThen t [.inputs, .quads, .banks, .cal, .units, .tagged, .decided, .evaluated, .groups, .accs, .trigouts, .mem, .rings, .ring4, .paths, .host, .events, .fw, .stim, .grove, .link, .freeCount] (exec (.stripeReinitDone t g) s)) ∧
    (s.ChangesThen t [.mem, .ring4, .paths, .host, .events, .fw, .grove, .link] (exec (.memClockRelocked t) s)) ∧
    (∀ (failed : BitVec 4), s.ChangesThen t [.board, .clock, .quads, .cal, .mem, .ring4, .paths, .host, .events, .fw, .grove, .link] (exec (.trainingPassDone t failed) s)) ∧
    (∀ (failed : Option (Fin 4)), s.ChangesThen t [.board, .clock, .quads, .cal, .mem, .ring4, .paths, .host, .fw, .grove, .link] (exec (.memInitDone t failed) s)) ∧
    (∀ (pc : Fin 128), s.Changes t [.mem] (exec (.pageTimerExpiry t pc) s)) ∧
    (∀ (offset : Nat) (access : Bar2Op), s.Changes t [.mem, .stim, .bar2Out, .freeCount] (exec (.bar2Access t offset access) s)) ∧
    (∀ (g : Fin 4) (desc : Bytes), s.Changes t [.rings] (exec (.descriptorTake t g desc) s)) ∧
    (∀ (g : Fin 4) (damaged : Option Bytes), s.Changes t [.groups, .accs, .mem, .rings, .link, .freeCount] (exec (.readoutBlockRead t g damaged) s)) ∧
    (∀ (ring : Fin 5) (lane : CplLane), s.ChangesThen t [.board, .clock, .inputs, .quads, .banks, .cal, .units, .tagged, .decided, .evaluated, .groups, .accs, .trigouts, .mem, .rings, .ring4, .paths, .host, .events, .fw, .shadows, .stim, .mon, .grove, .link] (exec (.completionPost t ring lane) s)) ∧
    (∀ (g : Fin 4), s.Changes t [.rings] (exec (.streamFlushTimeout t g) s)) ∧
    (∀ (ring : Fin 5), s.Changes t [.rings, .ring4, .link] (exec (.irqTimerExpiry t ring) s))

/-- Calibration, stimulus and monitor rows change only the parts named, once time has moved to their tick (R229, R234, R240, R244, R294, R299, R300, R306, R316). -/
def Obligations.CalibrationStimulusMonitorRowsLeaveTheRest : Prop :=
  ∀ (s : State) (t : Nat),
    (s.Changes t [.cal] (exec (.calDrainDone t) s)) ∧
    (s.Changes t [.cal, .groups] (exec (.calDrainTimeout t) s)) ∧
    (∀ (q : Fin 4) (squares : List Nat), s.Changes t [.quads, .cal, .events, .grove, .link] (exec (.calLeakageEnd t q squares) s)) ∧
    (∀ (q : Fin 4), s.Changes t [.quads, .cal] (exec (.calIsolateEnd t q) s)) ∧
    (∀ (q : Fin 4), s.Changes t [.cal] (exec (.calSourceSettled t q) s)) ∧
    (∀ (q : Fin 4) (caldc : Int), s.Changes t [.cal] (exec (.calRefTransferEnd t q caldc) s)) ∧
    (∀ (q : Fin 4), s.Changes t [.cal] (exec (.calRunAEnd t q) s)) ∧
    (∀ (q : Fin 4) (agree : Bool), s.Changes t [.cal] (exec (.calRunBEnd t q agree) s)) ∧
    (∀ (q : Fin 4) (point : Bytes), s.Changes t [.quads, .cal] (exec (.calCompareEnd t q point) s)) ∧
    (∀ (q : Fin 4), s.Changes t [.cal] (exec (.calRestoreEnd t q) s)) ∧
    (∀ (q : Fin 4), s.Changes t [.quads, .cal] (exec (.calStopDone t q) s)) ∧
    (∀ (q : Fin 4), s.Changes t [.cal] (exec (.calHeldWordsEnd t q) s)) ∧
    (s.ChangesThen t [.inputs, .quads, .banks, .cal, .units, .tagged, .decided, .evaluated, .groups, .accs, .trigouts, .mem, .rings, .events, .stim, .grove, .link, .freeCount] (exec (.calResultsFormed t) s)) ∧
    (∀ (q : Fin 4), s.Changes t [.quads] (exec (.heldTriggerResume t q) s)) ∧
    (∀ (q : Fin 4), s.Changes t [.quads, .cal] (exec (.switchTimeout t q) s)) ∧
    (∀ (q : Fin 4), s.Changes t [.inputs, .quads, .banks, .cal, .units, .tagged, .decided, .evaluated, .groups, .accs, .trigouts, .mem, .rings, .events, .stim, .grove, .link, .freeCount] (exec (.changeover t q) s)) ∧
    (∀ (g : Fin 4), s.Changes t [.inputs, .units, .tagged, .decided, .evaluated, .groups, .accs, .trigouts, .mem, .rings, .events, .stim, .grove, .link, .freeCount] (exec (.gatherReopen t g) s)) ∧
    (∀ (q : Fin 4), s.Changes t [.inputs, .quads, .units, .tagged, .decided, .evaluated, .groups, .accs, .trigouts, .mem, .rings, .events, .stim, .grove, .link, .freeCount] (exec (.bgGatherDue t q) s)) ∧
    (∀ (q : Fin 4) (temp : Int), s.Changes t [.quads] (exec (.quadTempReading t q temp) s)) ∧
    (∀ (ch : Fin 2), s.Changes t [.events, .stim, .grove, .link] (exec (.stimStartInstant t ch) s)) ∧
    (∀ (ch : Fin 2), s.Changes t [.stim] (exec (.stimDecisionPoint t ch) s)) ∧
    (∀ (ch : Fin 2), s.Changes t [.events, .stim, .grove, .link] (exec (.stimBoundary t ch) s)) ∧
    (∀ (ch : Fin 2) (starved : Bool), s.Changes t [.events, .stim, .grove, .link] (exec (.stimEntryEffect t ch starved) s)) ∧
    (∀ (ch : Fin 2), s.Changes t [.stim] (exec (.stimStopRampStart t ch) s)) ∧
    (∀ (ch : Fin 2), s.Changes t [.events, .stim, .grove, .link] (exec (.stimStopRampEnd t ch) s)) ∧
    (∀ (ch : Fin 2), s.Changes t [.stim] (exec (.stimMuteRampEnd t ch) s)) ∧
    (s.ChangesThen t [.mem, .ring4, .paths, .host, .fw, .stim, .grove, .link, .freeCount] (exec (.segmentReadbackDone t) s)) ∧
    (∀ (slot : Fin 16) (code : BitVec 12) (ovr : Bool), s.ChangesThen t [.board, .clock, .quads, .cal, .units, .tagged, .mem, .ring4, .paths, .host, .events, .fw, .mon, .grove, .link] (exec (.monConversion t slot code ovr) s)) ∧
    (s.Changes t [.mon] (exec (.monRefSettled t) s)) ∧
    (∀ (rail : Fin 12), s.ChangesThen t [.board, .clock, .quads, .cal, .mem, .ring4, .paths, .host, .events, .fw, .grove, .link] (exec (.railFault t rail) s))

/-- Grove rows change only the parts named, once time has moved to their tick (R426, R428, R435, R437, R439, R445, R447, R450). -/
def Obligations.GroveRowsLeaveTheRest : Prop :=
  ∀ (s : State) (t : Nat),
    (∀ (port : Fin 5) (lane : Fin 4), s.ChangesThen t [.events, .grove, .link] (exec (.laneLockLost t port lane) s)) ∧
    (∀ (port : Fin 5), s.ChangesThen t [.events, .grove, .link] (exec (.fastRetrainDone t port) s)) ∧
    (∀ (port : Fin 5) (lane : Fin 4), s.ChangesThen t [.grove] (exec (.blockLock t port lane) s)) ∧
    (∀ (port : Fin 5) (block : Bytes), s.ChangesThen t [.events, .grove, .link] (exec (.boughBlockReceive t port block) s)) ∧
    (∀ (port : Fin 5), s.ChangesThen t [.events, .grove, .link] (exec (.blockReplayTimeout t port) s)) ∧
    (∀ (port : Fin 5), s.ChangesThen t [.grove] (exec (.messageAgeExpiry t port) s)) ∧
    (∀ (port : Fin 5), s.ChangesThen t [.ring4, .paths, .host, .fw, .grove, .link] (exec (.unicast t port) s)) ∧
    (∀ (port : Fin 5), s.ChangesThen t [.ring4, .events, .grove] (exec (.up t port) s)) ∧
    (∀ (port : Fin 5), s.ChangesThen t [.ring4, .paths, .host, .fw, .grove, .link] (exec (.flood t port) s)) ∧
    (∀ (port : Fin 5), s.ChangesThen t [.ring4, .paths, .host, .fw, .grove, .link] (exec (.path t port) s)) ∧
    (∀ (port : Fin 5), s.ChangesThen t [.events, .grove, .link] (exec (.hello t port) s)) ∧
    (∀ (port : Fin 5), s.ChangesThen t [.paths, .events, .grove, .link] (exec (.joinAccept t port) s)) ∧
    (∀ (port : Fin 5), s.ChangesThen t [.events, .grove, .link] (exec (.joinRefuse t port) s)) ∧
    (∀ (port : Fin 5), s.ChangesThen t [.events, .grove, .link] (exec (.orphanNotice t port) s)) ∧
    (∀ (port : Fin 5), s.ChangesThen t [.paths, .events, .grove, .link] (exec (.epochSet t port) s)) ∧
    (∀ (port : Fin 5), s.ChangesThen t [.grove] (exec (.saplingSet t port) s)) ∧
    (∀ (pseq origin : Nat) (tick : BitVec 64) (fraction gtn : BitVec 32), s.ChangesThen t [.inputs, .units, .tagged, .decided, .evaluated, .groups, .accs, .trigouts, .mem, .rings, .events, .stim, .grove, .link, .freeCount] (exec (.groveTrigger t pseq origin tick fraction gtn) s)) ∧
    (∀ (port : Fin 4) (pseq origin : Nat) (tick : BitVec 64) (fraction : BitVec 32), s.ChangesThen t [.grove] (exec (.triggerRequest t port pseq origin tick fraction) s)) ∧
    (s.ChangesThen t [.inputs, .units, .tagged, .decided, .evaluated, .groups, .accs, .trigouts, .mem, .rings, .events, .stim, .grove, .link, .freeCount] (exec (.groveBroadcast t) s)) ∧
    (s.ChangesThen t [.grove] (exec (.requestForward t) s)) ∧
    (∀ (pseq : Nat) (t1 : BitVec 64) (t1frac number arrival turnaround : BitVec 32), s.ChangesThen t [.grove] (exec (.rangeReq t pseq t1 t1frac number arrival turnaround) s)) ∧
    (∀ (port : Fin 4) (pseq : Nat) (turnaround arrival : BitVec 32), s.ChangesThen t [.grove] (exec (.rangeReply t port pseq turnaround arrival) s)) ∧
    (∀ (pseq : Nat) (mean : BitVec 32), s.ChangesThen t [.clock, .events, .grove, .link] (exec (.rangeResult t pseq mean) s)) ∧
    (∀ (port : Fin 5) (pseq : Nat), s.ChangesThen t [.grove] (exec (.pack t port pseq) s)) ∧
    (∀ (port : Fin 5), s.ChangesThen t [.events, .grove, .link] (exec (.pframeResend t port) s)) ∧
    (∀ (port : Fin 4), s.ChangesThen t [.grove] (exec (.rangeExchange t port) s)) ∧
    (∀ (port : Fin 4), s.ChangesThen t [.events, .grove, .link] (exec (.rangeComplete t port) s)) ∧
    (∀ (port : Fin 4), s.ChangesThen t [.grove] (exec (.trackingRange t port) s)) ∧
    (s.ChangesThen t [.events, .grove, .link] (exec (.orphanTimeout t) s)) ∧
    (s.ChangesThen t [.events, .grove, .link] (exec (.saplingTimeout t) s))

/-- Board, window and firmware rows change only the parts named, once time has moved to their tick (R218, R411, R414, R460, R462, R509, R512). -/
def Obligations.BoardAndFirmwareRowsLeaveTheRest : Prop :=
  ∀ (s : State) (t : Nat),
    (∀ (straps : BitVec 2), s.Changes t [.board] (exec (.pwrOkRise t straps) s)) ∧
    (s.Changes t [.board, .clock, .inputs, .quads, .banks, .cal, .units, .tagged, .decided, .evaluated, .groups, .accs, .trigouts, .mem, .rings, .ring4, .paths, .host, .events, .fw, .shadows, .stim, .mon, .grove] (exec (.pwrOkFall t) s)) ∧
    (s.Changes t [.board, .clock, .inputs, .quads, .banks, .cal, .units, .tagged, .decided, .evaluated, .groups, .accs, .trigouts, .mem, .rings, .ring4, .paths, .host, .events, .fw, .shadows, .stim, .mon, .grove] (exec (.perstNAssert t) s)) ∧
    (s.Changes t [.board] (exec (.perstNRelease t) s)) ∧
    (∀ (result : SelfTest), s.ChangesThen t [.board, .clock, .quads, .cal, .mem, .ring4, .paths, .host, .events, .fw, .grove, .link] (exec (.selftestDone t result) s)) ∧
    (s.ChangesThen t [.board, .clock, .quads, .cal, .mem, .ring4, .paths, .host, .fw, .grove, .link] (exec (.lockTimeout t) s)) ∧
    (∀ (q : Fin 4), s.ChangesThen t [.board, .clock, .quads, .cal, .mem, .ring4, .paths, .host, .fw, .grove, .link] (exec (.quadStartTimeout t q) s)) ∧
    (s.Changes t [.cal] (exec (.selfCalStart t) s)) ∧
    (∀ (res : SelfPhaseEnd), s.ChangesThen t [.board, .clock, .inputs, .quads, .banks, .cal, .units, .tagged, .decided, .evaluated, .groups, .accs, .trigouts, .mem, .rings, .ring4, .paths, .host, .events, .fw, .stim, .grove, .link, .freeCount] (exec (.selfCalPhaseEnd t res) s)) ∧
    (s.ChangesThen t [.board, .clock, .quads, .cal, .mem, .ring4, .paths, .host, .fw, .grove, .link] (exec (.readyCallTimeout t) s)) ∧
    (s.Changes t [.board] (exec (.smbIdent t) s)) ∧
    (s.Changes t [.board] (exec (.smbEngine t) s)) ∧
    (s.Changes t [.board] (exec (.smbBoot t) s)) ∧
    (s.Changes t [.board] (exec (.smbPins t) s)) ∧
    (s.Changes t [.board] (exec (.smbTemps t) s)) ∧
    (s.Changes t [.board] (exec (.smbUniqueId t) s)) ∧
    (s.Changes t [.board] (exec (.smbEvents t) s)) ∧
    (s.Changes t [.board] (exec (.smbWriteReject t) s)) ∧
    (s.Changes t [.board] (exec (.smbAlertResponse t) s)) ∧
    (s.Changes t [.board] (exec (.smbusTimeout t) s)) ∧
    (s.Changes t [.board] (exec (.tapReset t) s)) ∧
    (∀ (cells : BitVec 151), s.Changes t [.board] (exec (.extest t cells) s)) ∧
    (s.Changes t [.board] (exec (.idcode t) s)) ∧
    (∀ (pins : BitVec 151), s.Changes t [.board] (exec (.samplePreload t pins) s)) ∧
    (s.Changes t [.board] (exec (.clamp t) s)) ∧
    (s.Changes t [.board] (exec (.highz t) s)) ∧
    (∀ (cells : BitVec 151), s.Changes t [.board] (exec (.extestPulse t cells) s)) ∧
    (∀ (cells : BitVec 151), s.Changes t [.board] (exec (.extestTrain t cells) s)) ∧
    (s.Changes t [.board] (exec (.bypass t) s)) ∧
    (∀ (ok : Bool), s.ChangesThen t [.board, .clock, .mem, .ring4, .paths, .host, .fw, .grove, .link] (exec (.imageAuthDone t ok) s)) ∧
    (∀ (path : Path) (desc packet : Bytes), s.ChangesThen t [.ring4, .paths, .host, .fw, .grove, .link] (exec (.commandReceive t path desc packet) s)) ∧
    (∀ (path : Path) (index : Nat), s.ChangesThen t [.ring4, .paths, .grove] (exec (.interimNotice t path index) s)) ∧
    (∀ (value : BitVec 32), s.ChangesThen t [.rings, .ring4, .paths, .host, .fw, .shadows, .mon, .grove, .link] (exec (.cmdTailDoorbell t value) s)) ∧
    (∀ (value : BitVec 32), s.ChangesThen t [.rings, .ring4, .paths, .host, .fw, .shadows, .mon, .grove, .link] (exec (.bootDoorbell t value) s)) ∧
    (∀ (g : Fin 4) (value : BitVec 32), s.ChangesThen t [.rings, .ring4, .paths, .host, .fw, .shadows, .mon, .grove, .link] (exec (.descTailDoorbell t g value) s)) ∧
    (∀ (ring : Fin 5) (value : BitVec 32), s.ChangesThen t [.rings, .ring4, .paths, .host, .fw, .shadows, .mon, .grove, .link] (exec (.cplHeadDoorbell t ring value) s)) ∧
    (∀ (req : Requester) (offset : Nat), s.ChangesThen t [.banks, .mem, .shadows, .readValues] (exec (.lowHalfRead t req offset) s)) ∧
    (∀ (req : Requester) (offset : Nat), s.ChangesThen t [.banks, .mem, .shadows, .readValues] (exec (.highHalfRead t req offset) s)) ∧
    (∀ (req : Requester) (offset : Nat), s.ChangesThen t [.banks, .mem, .readValues] (exec (.atomic64Read t req offset) s)) ∧
    (∀ (req : Requester) (offset : Nat), s.ChangesThen t [.banks, .mem, .shadows, .readValues] (exec (.rcFieldRead t req offset) s)) ∧
    (∀ (req : Requester) (value : BitVec 32), s.ChangesThen t [.rings, .ring4, .paths, .host, .fw, .shadows, .mon, .grove, .link] (exec (.halfOrderClear t req value) s)) ∧
    (∀ (req : Requester) (value : BitVec 32), s.ChangesThen t [.rings, .ring4, .paths, .host, .fw, .shadows, .mon, .grove, .link] (exec (.monCtrlConvert t req value) s)) ∧
    (∀ (core : Fin 4), s.ChangesThen t [.paths, .fw, .readValues] (exec (.take t core) s)) ∧
    (∀ (core : Fin 4) (value : BitVec 64), s.ChangesThen t [.ring4, .paths, .host, .fw, .grove, .link] (exec (.post t core value) s)) ∧
    (∀ (core : Fin 4) (addr : BitVec 64), s.ChangesThen t [.events, .grove] (exec (.eventPost t core addr) s)) ∧
    (∀ (core : Fin 4), s.ChangesThen t [.fw] (exec (.wdtKick t core) s)) ∧
    (∀ (core : Fin 4) (pc : BitVec 64), s.ChangesThen t [.board, .clock, .quads, .cal, .groups, .accs, .mem, .ring4, .paths, .host, .events, .fw, .stim, .grove, .link] (exec (.watchdogExpiry t core pc) s)) ∧
    (∀ (core : Fin 4) (pc addr : BitVec 64), s.ChangesThen t [.board, .clock, .quads, .cal, .groups, .accs, .mem, .ring4, .paths, .host, .events, .fw, .stim, .grove, .link] (exec (.firewallFault t core pc addr) s)) ∧
    (∀ (core : Fin 4) (pc : BitVec 64), s.ChangesThen t [.board, .clock, .quads, .cal, .groups, .accs, .mem, .ring4, .paths, .host, .events, .fw, .stim, .grove, .link] (exec (.doubleTrap t core pc) s)) ∧
    (∀ (ok : Bool), s.ChangesThen t [.board, .clock, .quads, .cal, .mem, .ring4, .paths, .host, .events, .fw, .grove, .link] (exec (.restartVerifyDone t ok) s)) ∧
    (s.ChangesThen t [.board, .clock, .quads, .cal, .mem, .ring4, .paths, .host, .events, .fw, .grove, .link] (exec (.sapwoodReadyTimeout t) s))

/-- Time, the taking of a command and its answer leave the rest alone (R284, R325, R334, R335, R342, R346, R493). -/
def Obligations.CommandsLeaveTheRest : Prop :=
  ∀ (s : State),
    (∀ t : Nat, let u := s.advance t
      Frame [.now, .clock, .events] s u ∧ u.now = max s.now t ∧ s.now ≤ u.now ∧
      ({ u.clock with cnt := { u.clock.cnt with holdoverTicks := s.clock.cnt.holdoverTicks } } : Clock) = s.clock ∧
      u.clock.cnt.holdoverTicks = s.clock.cnt.holdoverTicks + (if s.clock.loop = .coasting then u.now - s.now else 0) ∧
      ({ u.events with holdTicks := s.events.holdTicks } : Events) = s.events ∧
      u.events.holdTicks = s.events.holdTicks + (if s.events.pending = [] then 0 else u.now - s.now)) ∧
    (∀ (h : Hdr) (opcode : Nat) (payload : Bytes), let u := s.heard h opcode payload
      Frame [.paths, .fw] (s.advance h.tick) u ∧ (∀ q, q ≠ h.path → u.path q = s.path q) ∧ u.fw = { s.fw with turn := h.path.idx.val } ∧
      (u.path h.path).cnt = (s.path h.path).cnt ∧ (u.path h.path).lastGen h.tag = some h.gen) ∧
    (∀ (h : Hdr) (opcode eng : Nat) (r : Reply), let u := s.answered h opcode eng r
      Frame [.ring4, .paths, .host, .fw, .grove, .link] s u ∧
      (r.status = 0 → h.quiet = true → Frame [.paths, .host] s u ∧ (h.path ≠ .pcie ∨ s.ringOn = true → Frame [.paths] s u)) ∧
      (h.path = .bough → Frame [.paths, .grove] s u)) ∧
    ∀ (h : Hdr) (eng : Nat) (k : HeldKind), let u := s.holding h eng k
      Frame [.paths] s u ∧ (∀ q, q ≠ h.path → u.path q = s.path q)

/-- What is written reads back, and the rest of memory stays (R110, R166 to R168, R180, R181, R191, R192). -/
def Obligations.MemoryReadsBack : Prop :=
  ∀ (s : State) (t : Nat),
    (∀ (offset : Nat) (d : Bytes), d ≠ [] → offset + d.length ≤ 2 ^ 28 → s.board.boot ≠ .reset →
      let a := s.mem.bar2 + offset
      (s.memBusy = false → a < s.memBytes → ∃ u, exec (.bar2Access t offset (.write d)) s = .next u ∧ Frame [.mem, .stim] (s.advance t) u ∧
        (∀ i (b : Byte), d[i]? = some b → cellAt u.mem.cells (a + i) = b) ∧
        (∀ x, (x < a ∨ a + d.length ≤ x) → cellAt u.mem.cells x = cellAt s.mem.cells x) ∧
        (∀ k : Nat, k ∈ u.mem.poison ↔ k ∈ s.mem.poison ∧ ¬ (a ≤ 32 * k ∧ 32 * k + 32 ≤ a + d.length)) ∧
        ({ u.mem with cells := s.mem.cells, poison := s.mem.poison, open_ := s.mem.open_, spoiled := s.mem.spoiled } : Memory) = s.mem ∧
        u.mem.spoiled = s.mem.spoiled ||| (s.advance t).spoilMask a d.length ∧
        u.stim = { s.stim with stirred := s.stim.stirred ++ (s.advance t).stirs a d.length } ∧
        (s.mem.open_ = [] → (u.fwpRead a d.length).2 = d)) ∧
      ((s.memBusy = true ∨ s.memBytes ≤ a) → ∃ u, exec (.bar2Access t offset (.write d)) s = .next u ∧
        (∀ x, cellAt u.mem.cells x = cellAt s.mem.cells x) ∧ u.mem.poison = s.mem.poison)) ∧
    (∀ (port : Fin 23) (unit level : Nat) (d : Bytes) (mask : BitVec 32), d.length = 32 → s.memRuns = true →
      ∃ u, exec (.memRequest t port unit (.write d mask) level) s = .next u ∧
        ∀ x, cellAt u.mem.cells x =
          if 32 * unit < s.memBytes ∧ x / 32 = unit ∧ flag mask (x % 32) = true then d.getD (x % 32) 0 else cellAt s.mem.cells x) ∧
    ∀ (g : Fin 4) (r : Record) (stop j : Nat) (taint : Option (Nat × Nat)), (s.groups.get g).current = some r → (s.groups.get g).streaming = false →
      r.stop = some stop → r.nextBlock stop = some j → r.needs stop j ≤ atCapture r.f (s.advance t).now →
      let a := (s.groups.get g).segBase (s.groups.get g).f r.segment + 2048 * j
      let b := blockOf ((((s.advance t).payload r stop).drop (2044 * j)).take 2044) taint.isSome
      ∃ u, exec (.recordBlockWritten t g taint) s = .next u ∧ b.length ≤ 2048 ∧
        (∀ i (y : Byte), b[i]? = some y → cellAt u.mem.cells (a + i) = y) ∧
        ∀ x, (x < a ∨ a + b.length ≤ x) → cellAt u.mem.cells x = cellAt s.mem.cells x

/-- Well-formed rows give a next state, ill-formed ones are refused (the shapes refused are the model's choice, log 28). -/
def Obligations.EveryRowAnswers : Prop :=
  ∀ (i : Instr) (s : State), (i.wf = true → ∃ u, exec i s = .next u) ∧ (i.wf = false → exec i s = .refused .illFormed)

/-- Rows leave the queue and the memory size alone, and time never runs back (R7, R10; the model's time is that of log 1). -/
def Obligations.TimeNeverRunsBack : Prop :=
  ∀ (i : Instr) (s u : State), exec i s = .next u → u.pending = s.pending ∧ u.is96 = s.is96 ∧ s.now ≤ u.now

/-- Every step keeps what holds of every reached state (R168, R316, R331, R403, R488). -/
def Obligations.StepKeepsTheInvariant : Prop :=
  ∀ s u : State, s.wf = true → step s = .next u → u.wf = true

/-- The invariant holds after power-up (R168, R316, R331, R403, R488). -/
def Obligations.ResetHoldsTheInvariant : Prop := State.reset.wf = true ∧ State.reset.pending = []

/-- A step runs the row at the front of the queue (log 2). -/
def Obligations.StepRunsTheFront : Prop :=
  ∀ (c : Instr) (s : State) (rest : List Instr), step { s with pending := c :: rest } = exec c { s with pending := rest }

/-- An empty queue idles (DESIGN CHOICE, log 2). -/
def Obligations.EmptyQueueIdles : Prop := ∀ s : State, s.pending = [] → step s = .next s

/-- The reset values that the tables give (R16, R59, R76, R100, R129, R140, R226, R260, R332, R421, R477, R491). -/
def Obligations.ResetLeavesTheTablesValues : Prop :=
  let s := State.reset
  (s.board.boot = .reset ∧ s.board.pwrOk = false ∧ s.board.ready = false ∧ s.engineState = 0 ∧ s.engineWord = 0x000F0000 ∧ s.board.bootStatus = 0x000F0000#32) ∧
  (fld s.clock.plan 88 40 = 100000000000 ∧ fld s.clock.plan 72 16 = 100 ∧ fld s.clock.plan 64 8 = 20 ∧ fld s.clock.plan 30 2 = 1 ∧ flag s.clock.plan 27 = true ∧
    s.clock.loop = .off ∧ s.clock.drive = .stopped) ∧
  (∀ u : Fin 8, fld (s.units.get u).cfg 84 12 = 16 ∧ flag (s.units.get u).cfg 23 = true ∧ fld (s.units.get u).cfg 96 16 = 0) ∧
  (∀ g : Fin 4, let x := s.groups.get g
    x.state = .off ∧ fld x.comb 14 2 = 1 ∧ fld x.cap 192 48 = 1 ∧ fld x.cap 128 32 = 256 ∧ fld x.cap 103 25 = 1 ∧ fld x.cap 44 4 = 4 ∧
    fld x.dec 96 32 = 0x01000000 ∧ fld x.dec 64 17 = 1 ∧
    fld (s.accs.get g).cfg 163 13 = 1024 ∧ fld (s.accs.get g).cfg 159 4 = 8 ∧ fld (s.accs.get g).cfg 96 32 = 1 ∧ fld (s.accs.get g).cfg 80 16 = 3 ∧
    fld (s.accs.get g).cfg 68 4 = 2) ∧
  (fld s.cal.cfg 16 16 = 1000 ∧ s.cal.active = none ∧ s.cal.pending = none) ∧
  (s.ringOn = false ∧ fld s.host.ring 124 4 = 8 ∧ fld s.host.ring 120 4 = 8) ∧
  (∀ q : Fin 4, (s.quads.get q).state = .off ∧ (s.quads.get q).fusion = 0 ∧ (s.quads.get q).switch = .connect) ∧
  (∀ c : Fin 2, (s.stim.chs.get c).state = .off) ∧
  (s.grove.role = .manager ∧ s.grove.devaddr = 0 ∧ s.grove.epoch = 0 ∧ s.grove.depth = 0 ∧ s.grove.mcast = BitVec.ofNat 256 (2 ^ 255)) ∧
  (s.events.queue = [] ∧ s.events.pending = [] ∧ s.eventStatus = 0) ∧
  (s.mem.cells = [] ∧ s.mem.poison = [] ∧ s.link = [])

/-- Commands turned away have no effect (R17, R335, R342, R350, R352 to R356). That an index out of range draws 0x0302 from TU_CONFIG and 0x0309 from SW_TRIGGER, and that AT_TICK is a reserved field where AT is 0, are readings of the model (log 67). -/
def Obligations.CommandsTurnedAwayHaveNoEffect : Prop :=
  ∀ (s : State) (h : Hdr) (k : BitVec 32),
    let out := fun (i : Instr) (op n reason : Nat) (states : List Nat) (rest : Bytes) (clean calm : Prop) => s.Hears h op →
      let b := leBytes 4 k.toNat ++ rest
      (65536 ≤ k.toNat → s.Refuses i h op b (Reply.bad 0x0004)) ∧
      (k.toNat < 65536 → clean → (n ≤ k.toNat ∨ calm) → s.engineState ∉ states → s.Refuses i h op b (Reply.state 0x0010 0)) ∧
      (k.toNat < 65536 → clean → n ≤ k.toNat → s.engineState ∈ states → s.Refuses i h op b (Reply.refused reason))
    (∀ (cfg : BitVec 32), out (.inputConfig h k cfg) 0x0201 16 0x0205 setC (leBytes 4 cfg.toNat) (fld cfg 16 12 = 0) True) ∧
    (∀ (w : BitVec 32), out (.quadFusion h k w) 0x0202 4 0x0205 setC (leBytes 4 w.toNat) (onlyBits w.toNat 3 = true) False) ∧
    (∀ (w : BitVec 32), out (.quadPower h k w) 0x0203 4 0x0205 setC (leBytes 4 w.toNat) (onlyBits w.toNat 1 = true) False) ∧
    (∀ (cfg : BitVec 256), out (.tuConfig h k cfg) 0x0301 8 0x0302 setC (leBytes 32 cfg.toNat) (fld cfg 40 44 = 0 ∧ fld cfg 1 21 = 0) True) ∧
    (∀ (cfg : BitVec 32), out (.cmpConfig h k cfg) 0x0302 16 0x0308 setC (leBytes 4 cfg.toNat) (fld cfg 0 4 = 0) True) ∧
    (∀ (cfg : BitVec 128), out (.combinerConfig h k cfg) 0x0303 4 0x0304 setC (leBytes 16 cfg.toNat) (fld cfg 32 15 = 0 ∧ fld cfg 0 12 = 0) True) ∧
    (∀ (w : BitVec 32) (tick : BitVec 64), out (.swTrigger h k w tick) 0x0304 8 0x0309 setW (leBytes 4 w.toNat ++ leBytes 8 tick.toNat) (onlyBits w.toNat 1 = true ∧ (bit w.toNat 0 = true ∨ tick.toNat = 0)) False) ∧
    (∀ (cfg : BitVec 64), out (.trigoutConfig h k cfg) 0x0305 4 0x030B setC (leBytes 8 cfg.toNat) (fld cfg 11 17 = 0 ∧ fld cfg 2 6 = 0) True) ∧
    (∀ (cfg : BitVec 384), out (.captureConfig h k cfg) 0x0401 4 0x0409 setC (leBytes 48 cfg.toNat) (fld cfg 240 24 = 0 ∧ fld cfg 64 39 = 0 ∧ fld cfg 0 41 = 0) True) ∧
    (∀ (cfg : BitVec 128), out (.decimConfig h k cfg) 0x0402 4 0x040B setC (leBytes 16 cfg.toNat) (fld cfg 81 15 = 0 ∧ fld cfg 5 59 = 0) True) ∧
    (∀ (cfg : BitVec 256), out (.accConfig h k cfg) 0x0501 4 0x0505 setC (leBytes 32 cfg.toNat) (fld cfg 128 31 = 0 ∧ fld cfg 72 8 = 0 ∧ fld cfg 2 62 = 0) True) ∧
    out (.accSnapshot h k) 0x0502 4 0x0505 setW ([]) (True) False ∧
    (∀ (cfg : BitVec 64), out (.memPortConfig h k cfg) 0x0601 23 0x0604 setS (leBytes 8 cfg.toNat) (fld cfg 4 28 = 0 ∧ fld cfg 0 2 = 0) True) ∧
    (∀ (cfg : BitVec 256), out (.readoutRings h k cfg) 0x0701 4 0x0701 setC (leBytes 32 cfg.toNat) (fld cfg 96 13 = 0 ∧ fld cfg 3 45 = 0) True) ∧
    out (.calSliceQuery h k) 0x0807 16 0x0802 setS ([]) (True) True ∧
    (∀ (d : BitVec 128), out (.seqSegmentDefine h k d) 0x0902 4096 0x0902 setT (leBytes 16 d.toNat) (flag d 0 = false) True) ∧
    (∀ (cfg : BitVec 64), out (.monWindowSet h k cfg) 0x0A02 8 0x0A01 setS (leBytes 8 cfg.toNat) (fld cfg 48 11 = 0 ∧ fld cfg 1 11 = 0) True) ∧
    out (.inputConfigQuery h k) 0x0281 16 0x0205 setQ [] True True ∧
    out (.quadFusionQuery h k) 0x0282 4 0x0205 setQ [] True True ∧
    out (.quadPowerQuery h k) 0x0283 4 0x0205 setQ [] True True ∧
    out (.tuConfigQuery h k) 0x0381 8 0x0302 setQ [] True True ∧
    out (.cmpConfigQuery h k) 0x0382 16 0x0308 setQ [] True True ∧
    out (.combinerConfigQuery h k) 0x0383 4 0x0304 setQ [] True True ∧
    out (.trigoutConfigQuery h k) 0x0385 4 0x030B setQ [] True True ∧
    out (.captureConfigQuery h k) 0x0481 4 0x0409 setQ [] True True ∧
    out (.decimConfigQuery h k) 0x0482 4 0x040B setQ [] True True ∧
    out (.accConfigQuery h k) 0x0581 4 0x0505 setQ [] True True ∧
    out (.memPortConfigQuery h k) 0x0681 23 0x0604 setQ [] True True ∧
    out (.readoutRingsQuery h k) 0x0781 4 0x0701 setQ [] True True ∧
    out (.seqSegmentDefineQuery h k) 0x0982 4096 0x0902 setQ [] True True ∧
    out (.seqStepWriteQuery h k) 0x0985 1024 0x0903 setQ [] True True ∧
    out (.monWindowSetQuery h k) 0x0A82 8 0x0A01 setQ [] True True ∧
    (∀ (x y : BitVec 384) (setup : BitVec 256), h.path ≠ .pcie →
      (s.Hears h 0x0C01 → s.Refuses (.keyInstall h x y) h 0x0C01 (leBytes 48 x.toNat ++ leBytes 48 y.toNat) (Reply.bad 0x0005)) ∧
      (s.Hears h 0x0003 → fld setup 96 13 = 0 → fld setup 1 63 = 0 → s.Refuses (.cmdRingSetup h setup) h 0x0003 (leBytes 32 setup.toNat) (Reply.bad 0x0005))) ∧
    (∀ (i : Instr) (op : Nat) (b : Bytes) (g : Nat),
      i = .sysStatus h ∧ op = 0x0002 ∧ b = [] ∨ i = .calAbort h ∧ op = 0x0803 ∧ b = [] ∨ i = .groveStatus h ∧ op = 0x0B07 ∧ b = [] ∨
        (∃ w : BitVec 32, i = .memClock h w ∧ op = 0x0603 ∧ b = leBytes 4 w.toNat) →
      s.Reaches h op → (s.path h.path).lastGen h.tag = some g → newerGen h.gen g = false →
      exec i s = .next (let v := (s.advance h.tick).countPath h.path fun c => { c with staleTickets := c.staleTickets + 1 }
        if h.path = .pcie ∧ s.ringOn = false then v.onHost fun x => { x with bootBusy := false } else v)) ∧
    ∀ (op : Nat) (b : Bytes) (r : Reply), Frame [.ring4, .paths, .host, .fw, .grove, .link] (s.advance h.tick) (s.turned h op b r)

/-- EVENT_STATUS (R492). -/
def Obligations.EventStatusIsLaidOut : Prop :=
  (∀ (s : State) (t : Nat) (req : Requester), s.board.boot ≠ .reset → s.board.boot ≠ .heartwood →
    ∃ w : Nat, s.TurnsThen (.rcFieldRead t req 0x0018) t (fun v => { v with readValues := vmod v.readValues req.idx fun _ => w }) ∧
      (bit w 31 = true ↔ s.events.pending ≠ []) ∧
      (s.events.pending.length ≤ 2047 → bits w 16 11 = s.events.pending.length) ∧
      (s.events.queue.length ≤ 1024 → bits w 0 11 = s.events.queue.length) ∧
      bits w 27 4 = 0 ∧ bits w 11 5 = 0) ∧
  State.reset.eventStatus = 0

/-- GROVE_STATUS (R383). -/
def Obligations.GroveStatusReturnsItsLayout : Prop :=
  ∀ (s : State) (h : Hdr), s.Hears h 0x0B07 → s.engineState ∈ setQ → ∃ b : Bytes,
    s.Does (.groveStatus h) h 0x0B07 [] (Reply.ok b) id ∧ b.length = 32 ∧
    leAt b 0 2 = s.grove.devaddr % 2 ^ 16 ∧
    leAt b 2 1 = (match s.grove.role with
      | .manager => 0x00
      | .worker => 0x01
      | .sapling => 0x02
      | .orphanRoot => 0x03
      | .orphanMember => 0x04) ∧
    leAt b 3 1 = s.grove.depth % 2 ^ 8 ∧ leAt b 4 4 = s.grove.epoch % 2 ^ 32 ∧ leAt b 8 4 = s.grove.bound % 2 ^ 32 ∧
    (∀ p : Fin 5, bit (leAt b 12 1) p.val = true ↔ (s.port p).link = .up) ∧ leAt b 12 1 < 32 ∧ leAt b 13 3 = 0 ∧
    ∀ k : Fin 4, leAt b (16 + 4 * k.val) 4 = if (s.port k.succ).ranged = true then unsigned 32 (s.port k.succ).delay else 0

/-- CAL_SET_DOWNLOAD and CAL_SLICE_QUERY (R377). -/
def Obligations.SetDownloadReturnsTheSet : Prop :=
  ∀ (s : State) (h : Hdr), s.engineState ∈ setS →
    (∀ (w offset length : BitVec 32) (set : Bytes), s.Hears h 0x0806 → w.toNat ≤ 1 →
      (if w = 0 then s.cal.active else s.cal.pending) = some set → offset.toNat % 4 = 0 → offset.toNat < set.length →
      length.toNat % 4 = 0 → 4 ≤ length.toNat → length.toNat ≤ 4032 → ∃ d : Bytes,
      s.Does (.calSetDownload h w offset length) h 0x0806 (leBytes 4 w.toNat ++ leBytes 4 offset.toNat ++ leBytes 4 length.toNat) (Reply.ok d) id ∧
      leAt d 0 4 = set.length % 2 ^ 32 ∧
      (length.toNat ≤ set.length - offset.toNat → d.length = 4 + length.toNat) ∧
      (set.length - offset.toNat < length.toNat → d.length = 4 + (set.length - offset.toNat + 3) / 4 * 4) ∧
      (∀ i, i < length.toNat → offset.toNat + i < set.length → d[4 + i]? = set[offset.toNat + i]?) ∧
      ∀ i, set.length ≤ offset.toNat + i → 4 + i < d.length → d[4 + i]? = some 0) ∧
    ∀ (select : BitVec 32) (b : Fin 16), s.Hears h 0x0807 → select.toNat = b.val → ∃ d : Bytes,
      s.Does (.calSliceQuery h select) h 0x0807 (leBytes 4 select.toNat) (Reply.ok d) id ∧
      d.length = 8 * (s.banks.get b).live.length ∧
      ∀ (k : Nat) (c : SliceCoef), (s.banks.get b).live[k]? = some c →
        (d.drop (8 * k)).take 8 = leBytes 2 (unsigned 16 (liveUnits c).offset) ++ leBytes 2 (unsigned 16 (liveUnits c).gain) ++
          leBytes 2 (unsigned 16 (liveUnits c).skew) ++ zeros 2

/-- Events wait in order and none is dropped (R361, R486, R488). -/
def Obligations.EventsAreNeverDropped : Prop :=
  (∀ (s : State) (e : EventSpec) (tick : Nat), let u := s.raiseAt e tick; let q := s.events; let v := s.mkEvent e tick
    Frame [.events, .grove, .link] s u ∧ u.events.seq = q.seq + 1 ∧ v.seq = q.seq + 1 ∧ v.severity = severityOf e.code ∧ v.tick = tick ∧
    (q.pending = [] → q.queue.length < 1024 → u.events.queue = q.queue ++ [v] ∧ u.events.pending = [] ∧ u.events.coalesced = q.coalesced) ∧
    (q.pending ≠ [] ∨ 1024 ≤ q.queue.length → u.events.queue = q.queue ∧
      ((∀ p ∈ q.pending, p.register ≠ v.register) → u.events.pending = q.pending ++ [v] ∧ u.events.coalesced = q.coalesced) ∧
      ((∃ p ∈ q.pending, p.register = v.register) → u.events.coalesced = q.coalesced + 1 ∧ u.events.pending.length = q.pending.length ∧
        ∀ (i : Nat) (p : Event), q.pending[i]? = some p → u.events.pending[i]? =
          some (if p.register = v.register then { p with repeated := min 65535 (p.repeated + 1), coalesced := true } else p)))) ∧
  ∀ (q : Events) (n : Nat), let w := q.fetch n
    w.queue ++ w.pending = q.queue.drop n ++ q.pending ∧ (w.pending = [] ∨ 1024 ≤ w.queue.length) ∧ w.seq = q.seq

/-- PEAK (R136). -/
def Obligations.PeakIsJudgedByCode : Prop :=
  ∀ (p : Span) (d : BitVec 128) (j : Int), decMode d = 2 → p.interval (decN d) j ≠ [] →
    let ws := p.interval (decN d) j
    ∃ lo hi : Nat, p.stored d j = [lo, hi] ∧
      (∃ x ∈ ws, codeOf lo = codeOf x) ∧ (∀ y ∈ ws, codeOf lo ≤ codeOf y) ∧
      (∃ x ∈ ws, codeOf hi = codeOf x) ∧ (∀ y ∈ ws, codeOf y ≤ codeOf hi) ∧
      (ws.length = 1 → lo = hi)

/-- The time of a crossing (R11, R63, R72, R73, R74). -/
def Obligations.CrossingTimesAreInterpolated : Prop :=
  ∀ (cubic : Bool) (f k m : Nat) (level : Int) (prev : List Nat) (w : Nat) (next : Option Nat),
    (f = 1 ∧ k = 0 ∨ f = 2 ∧ k = 1 ∨ f = 4 ∧ k = 2) → 1 ≤ m →
    let c := crossing cubic f m level prev w next
    let t := (m - 1) / f
    let p := (m - 1) % f
    ∃ U : Nat, 1 ≤ U ∧ U ≤ 2 ^ 32 ∧
      (∃ V, V = (p * 2 ^ 32 + U + f / 2) >>> k ∧ c.time / 2 ^ 32 = t + V / 2 ^ 32 ∧ c.time % 2 ^ 32 = V % 2 ^ 32) ∧
      (m - 1) * 2 ^ 32 ≤ f * c.time ∧ (f ≤ 2 → (m - 1) * 2 ^ 32 < f * c.time) ∧ f * c.time ≤ m * 2 ^ 32 ∧
      (c.ovr = (ovrOf (prev.headD 0) || ovrOf w)) ∧ (c.ovr = true → c.linear = true) ∧
      (c.linear = true → ∀ a b : Int, a = valueOf (prev.headD 0) → b = valueOf w → a < level → level ≤ b →
        (U : Int) = max 1 (roundDiv ((level - a) * 2 ^ 32) (b - a).toNat))

/-- Fatal causes, the first and further ones (R483 to R485, R491). -/
def Obligations.FatalCausesAreRecorded : Prop :=
  (∀ (s : State) (reason obj : Nat) (therm call : Bool), s.board.boot = .run → reason < 65536 → obj < 16 →
    let u := s.fatal reason obj therm call
    Frame [.board, .clock, .quads, .cal, .mem, .ring4, .paths, .host, .events, .fw, .grove, .link] s u ∧
    u.engineState = 0x0A ∧ u.engineWord = at' 0x0A 24 + at' 1 23 + bAt therm 22 + at' obj 16 + reason ∧
    u.board.ready = false ∧ u.board.faultLow = true ∧ u.board.thermLow = (s.board.thermLow || therm) ∧
    u.fw.running = false ∧ (∀ q : Fin 4, (u.quads.get q).switch = .connect) ∧
    u.events.fatalCauses = s.events.fatalCauses + 1 ∧ u.events.seq = s.events.seq + 1) ∧
  ∀ (s : State) (reason obj : Nat) (therm call : Bool), s.board.boot = .fault → flag s.board.engineWord 23 = true →
    let u := s.fatal reason obj therm call
    Frame [.board, .events, .grove, .link] s u ∧ u.board.boot = .fault ∧
    (s.now ≠ s.board.faultFrom ∨ s.board.faultRow ≤ fatalRow reason call → u.board.engineWord = s.board.engineWord) ∧
    (s.now = s.board.faultFrom → fatalRow reason call < s.board.faultRow → reason < 65536 → obj < 16 →
      u.board.engineWord = BitVec.ofNat 24 (at' 1 23 + bAt therm 22 + at' obj 16 + reason)) ∧
    u.board.thermLow = (s.board.thermLow || therm) ∧
    u.events.fatalCauses = s.events.fatalCauses + 1 ∧ u.events.seq = s.events.seq + 1
end

