-- ==== Sys2Proof/Laws/Bytes.lean ====
section
/-!
SUPPORT. The operands of a command arrive whole: what the little-endian bytes of a number read as, at the place in a payload where they stand.
-/
namespace Sys2Proof
open Sys2Proof.Machine

@[simp] theorem leBytes_length (n v : Nat) : (leBytes n v).length = n := by
  induction n generalizing v with
  | zero => rfl
  | succ n ih => simp [leBytes, ih]

theorem ofLe_leBytes (n v : Nat) : ofLe (leBytes n v) = v % 256 ^ n := by
  induction n generalizing v with
  | zero => simp [leBytes, ofLe, Nat.mod_one]
  | succ n ih =>
    simp only [leBytes, ofLe, ih, BitVec.toNat_ofNat]
    show v % 256 + 256 * (v / 256 % 256 ^ n) = v % 256 ^ (n + 1)
    rw [Nat.pow_succ, Nat.mul_comm (256 ^ n) 256, Nat.mod_mul]

theorem leAt_here (n v : Nat) (r : Bytes) : leAt (leBytes n v ++ r) 0 n = v % 256 ^ n := by
  simp only [leAt, List.drop_zero]
  rw [List.take_left' (leBytes_length n v), ofLe_leBytes]

theorem leAt_only (n v : Nat) : leAt (leBytes n v) 0 n = v % 256 ^ n := by
  have := leAt_here n v []
  simpa using this

theorem leAt_past (a r : Bytes) (off n k : Nat) (h : a.length = k) : leAt (a ++ r) (k + off) n = leAt r off n := by
  subst h
  simp only [leAt]
  rw [List.drop_append, List.drop_eq_nil_of_le (by omega), List.nil_append, show a.length + off - a.length = off by omega]

theorem word_here (x : BitVec 32) (r : Bytes) : word (leBytes 4 x.toNat ++ r) 0 = x.toNat := by
  have := leAt_here 4 x.toNat r
  simp only [word, Nat.mul_zero, this]
  exact Nat.mod_eq_of_lt x.isLt

theorem word_only (x : BitVec 32) : word (leBytes 4 x.toNat) 0 = x.toNat := by
  have := word_here x []
  simpa using this

theorem word_next (x : BitVec 32) (r : Bytes) (i : Nat) : word (leBytes 4 x.toNat ++ r) (i + 1) = word r i := by
  have := leAt_past (leBytes 4 x.toNat) r (4 * i) 4 4 (leBytes_length _ _)
  simp only [word]
  rw [show 4 * (i + 1) = 4 + 4 * i by omega, this]

theorem word_second (x y : BitVec 32) : word (leBytes 4 x.toNat ++ leBytes 4 y.toNat) 1 = y.toNat := by
  rw [word_next, word_only]

theorem structAt_here (k : Nat) (c : BitVec (8 * k)) (r : Bytes) : structAt (8 * k) (leBytes k c.toNat ++ r) 0 = c := by
  have hk : 8 * k / 8 = k := by omega
  simp only [structAt, hk, leAt_here]
  apply BitVec.eq_of_toNat_eq
  have h : c.toNat < 256 ^ k := by
    have := c.isLt
    rwa [Nat.pow_mul] at this
  rw [BitVec.toNat_ofNat, Nat.mod_eq_of_lt h, Nat.mod_eq_of_lt c.isLt]

theorem structAt_only (k : Nat) (c : BitVec (8 * k)) : structAt (8 * k) (leBytes k c.toNat) 0 = c := by
  have := structAt_here k c []
  simpa using this

theorem structAt_past (k : Nat) (x : BitVec 32) (c : BitVec (8 * k)) : structAt (8 * k) (leBytes 4 x.toNat ++ leBytes k c.toNat) 4 = c := by
  have h : ∀ n, leAt (leBytes 4 x.toNat ++ leBytes k c.toNat) 4 n = leAt (leBytes k c.toNat) 0 n := fun n =>
    leAt_past _ _ 0 n 4 (leBytes_length _ _)
  have := structAt_only k c
  simp only [structAt] at this ⊢
  rw [h]; exact this

theorem selIndex_here (x : BitVec 32) (r : Bytes) (h : x.toNat < 65536) : selIndex (leBytes 4 x.toNat ++ r) = x.toNat := by
  rw [selIndex, word_here]
  simp [bits, Nat.mod_eq_of_lt h]

theorem selIndex_only (x : BitVec 32) (h : x.toNat < 65536) : selIndex (leBytes 4 x.toNat) = x.toNat := by
  have := selIndex_here x [] h
  simpa using this

theorem selOk_here (x : BitVec 32) (r : Bytes) (h : x.toNat < 65536) : selOk (leBytes 4 x.toNat ++ r) = true := by
  rw [selOk, word_here]
  simp [bits, Nat.shiftRight_eq_div_pow, Nat.div_eq_of_lt h]

theorem selOk_only (x : BitVec 32) (h : x.toNat < 65536) : selOk (leBytes 4 x.toNat) = true := by
  have := selOk_here x [] h
  simpa using this

theorem ofLe_drop (n v off : Nat) : (leBytes n v).drop off = leBytes (n - off) (v / 256 ^ off) := by
  induction n generalizing v off with
  | zero => simp [leBytes]
  | succ n ih =>
    cases off with
    | zero => simp
    | succ off => simp [leBytes, ih, Nat.div_div_eq_div_mul, Nat.pow_succ, Nat.mul_comm]

theorem leBytes_take (n v k : Nat) (h : k ≤ n) : (leBytes n v).take k = leBytes k v := by
  induction n generalizing v k with
  | zero => have : k = 0 := by omega
            subst this; rfl
  | succ n ih =>
    cases k with
    | zero => simp [leBytes]
    | succ k => simp [leBytes, ih (v / 256) k (by omega)]

/-- Bytes off to off + k of a number are its bits from 8 × off on. -/
theorem leAt_field (n v off k : Nat) (h : off + k ≤ n) : leAt (leBytes n v) off k = bits v (8 * off) (8 * k) := by
  rw [leAt, ofLe_drop, leBytes_take _ _ _ (by omega), ofLe_leBytes, bits, Nat.shiftRight_eq_div_pow, Nat.pow_mul, Nat.pow_mul]

theorem leAt_field_here (n v off k : Nat) (r : Bytes) (h : off + k ≤ n) : leAt (leBytes n v ++ r) off k = bits v (8 * off) (8 * k) := by
  rw [← leAt_field n v off k h]
  simp only [leAt]
  rw [List.drop_append_of_le_length (by simp; omega), List.take_append_of_le_length (by simp; omega)]

theorem bit_testBit (n k : Nat) : bit n k = n.testBit k := by
  simp [bit, Nat.testBit, Nat.one_and_eq_mod_two]

end Sys2Proof
end

