-- ==== Sys2Proof/Laws/Frame.lean ====
section
/-!
SUPPORT. What a shared operation can do, said once for each: the parts of the state it may change, and what every operation keeps (the queue of commands, the part's size, the forward run of time, what holds of every reached state).
-/
namespace Sys2Proof.Machine

variable {ps qs : List Part} {s t u : State}

theorem Part.same_refl (p : Part) (s : State) : p.same s s := by cases p <;> rfl

theorem Part.same_trans {p : Part} (h : p.same s t) (k : p.same t u) : p.same s u := by
  cases p <;> exact Eq.trans k h

theorem Frame.refl (ps : List Part) (s : State) : Frame ps s s :=
  ⟨rfl, rfl, Nat.le_refl _, id, fun p _ => p.same_refl s⟩

/-- Every part that may change under the first list is on the second. -/
def partsIn (ps qs : List Part) : Bool := ps.all qs.contains

theorem contains_of_partsIn (h : partsIn ps qs = true) (p : Part) (k : qs.contains p = false) : ps.contains p = false := by
  cases e : ps.contains p with
  | false => rfl
  | true =>
    have := List.all_eq_true.mp h p (List.contains_iff_mem.mp e)
    rw [k] at this; exact absurd this (by decide)

theorem Frame.step (h : Frame qs t u) (w : partsIn qs ps = true) (k : Frame ps s t) : Frame ps s u :=
  ⟨h.pending.trans k.pending, h.is96.trans k.is96, Nat.le_trans k.time h.time, fun m => h.kept (k.kept m),
    fun p n => Part.same_trans (k.rest p n) (h.rest p (contains_of_partsIn w p n))⟩

theorem Frame.widen (h : Frame qs s t) (w : partsIn qs ps = true) : Frame ps s t := h.step w (Frame.refl ps s)

theorem Frame.foldl {α : Type} (g : State → α → State) (h : ∀ s a, Frame ps s (g s a)) (l : List α) (s : State) : Frame ps s (l.foldl g s) := by
  induction l generalizing s with
  | nil => exact Frame.refl ps s
  | cons a l ih => exact Frame.step (ih (g s a)) (by unfold partsIn; simp) (h s a)

theorem partsIn_self (ps : List Part) : partsIn ps ps = true := by unfold partsIn; simp

theorem Frame.each {α : Type} (l : List α) (g : State → α → State) (h : ∀ s a, Frame ps s (g s a)) (k : Frame ps s t) :
    Frame ps s (t.each l g) := Frame.step (Frame.foldl g h l t) (partsIn_self ps) k

theorem Frame.fold {α : Type} (l : List α) (g : State → α → State) (h : ∀ s a, Frame ps s (g s a)) (k : Frame ps s t) :
    Frame ps s (l.foldl g t) := Frame.step (Frame.foldl g h l t) (partsIn_self ps) k

theorem Frame.foldPair {α β : Type} (l : List α) (g : State × β → α → State × β) (acc : State × β) (h : ∀ acc a, Frame ps acc.1 (g acc a).1)
    (k : Frame ps s acc.1) : Frame ps s (l.foldl g acc).1 := by
  induction l generalizing acc with
  | nil => exact k
  | cons a l ih => exact ih (g acc a) (Frame.step (h acc a) (partsIn_self ps) k)

/-- What holds of a card: its effect, what follows its reply and what a refusal counts keep what every operation keeps. -/
structure CardOk (c : Card) : Prop where
  run : ∀ h s, Frame Part.all s (c.run h s).1
  after : ∀ s, Frame Part.all s (c.after s)
  refused : ∀ r s, Frame Part.all s (c.onRefused r s)

end Sys2Proof.Machine
end

