-- ==== Sys2Proof/Laws/Memory.lean ====
section
/-!
SUPPORT. The laws of the addressed memories: a read after a write, and that every memory operation keeps the canonical form.
-/
namespace Sys2Proof.Laws
open Sys2Proof.Machine

variable {d : Nat → Byte}

/-- The entries of a write lie within it. -/
theorem packOf_range (a : Nat) (bs : Bytes) : ∀ c ∈ packOf d a bs, a ≤ c.1 ∧ c.1 < a + bs.length := by
  induction bs generalizing a with
  | nil => intro c h; simp [packOf] at h
  | cons b bs ih =>
    intro c h
    unfold packOf at h
    split at h
    · have := ih (a + 1) c h; simp only [List.length_cons]; omega
    · rcases List.mem_cons.mp h with rfl | h
      · simp
      · have := ih (a + 1) c h; simp only [List.length_cons]; omega

/-- No entry of a write is what its address reads as when unlisted. -/
theorem packOf_listed (a : Nat) (bs : Bytes) : ∀ c ∈ packOf d a bs, c.2 ≠ d c.1 := by
  induction bs generalizing a with
  | nil => intro c h; simp [packOf] at h
  | cons b bs ih =>
    intro c h
    unfold packOf at h
    split at h
    · exact ih (a + 1) c h
    · rcases List.mem_cons.mp h with rfl | h
      · assumption
      · exact ih (a + 1) c h

/-- The entries of a write rise. -/
theorem packOf_rises (a : Nat) (bs : Bytes) : (packOf d a bs).Pairwise fun x y => x.1 < y.1 := by
  induction bs generalizing a with
  | nil => exact List.Pairwise.nil
  | cons b bs ih =>
    unfold packOf
    split
    · exact ih (a + 1)
    · refine List.Pairwise.cons (fun c h => ?_) (ih (a + 1))
      have := packOf_range (a + 1) bs c h
      simp only; omega

theorem packWf_iff (m : List Host.Cell) : packWf d m = true ↔ (m.Pairwise fun x y => x.1 < y.1) ∧ ∀ c ∈ m, c.2 ≠ d c.1 := by
  simp [packWf]

/-- A write keeps the canonical form. -/
theorem packPut_wf (m : List Host.Cell) (a : Nat) (bs : Bytes) (h : packWf d m = true) : packWf d (packPut d m a bs) = true := by
  rw [packWf_iff] at h ⊢
  refine ⟨?_, ?_⟩
  · unfold packPut
    refine List.pairwise_append.mpr ⟨List.pairwise_append.mpr ⟨h.1.filter _, packOf_rises a bs, ?_⟩, h.1.filter _, ?_⟩
    · intro x hx y hy
      have h1 := packOf_range a bs y hy
      have h2 := (List.mem_filter.mp hx).2
      simp only [decide_eq_true_eq] at h2; omega
    · intro x hx y hy
      have h2 := (List.mem_filter.mp hy).2
      simp only [decide_eq_true_eq] at h2
      rcases List.mem_append.mp hx with hx | hx
      · have h1 := (List.mem_filter.mp hx).2
        simp only [decide_eq_true_eq] at h1; omega
      · have h1 := packOf_range a bs x hx
        omega
  · intro c hc
    unfold packPut at hc
    simp only [List.mem_append] at hc
    rcases hc with (hc | hc) | hc
    · exact h.2 c (List.mem_filter.mp hc).1
    · exact packOf_listed a bs c hc
    · exact h.2 c (List.mem_filter.mp hc).1

/-- Entries removed from a memory leave the canonical form. -/
theorem packWf_filter (m : List Host.Cell) (p : Host.Cell → Bool) (h : packWf d m = true) : packWf d (m.filter p) = true := by
  rw [packWf_iff] at h ⊢
  exact ⟨h.1.filter _, fun c hc => h.2 c (List.mem_filter.mp hc).1⟩

theorem packWf_nil : packWf d [] = true := by simp [packWf]

theorem packOf_find (a x : Nat) (bs : Bytes) :
    ((packOf d a bs).find? fun c => c.1 = x).map Prod.snd =
      if a ≤ x ∧ x < a + bs.length then (if bs.getD (x - a) 0 = d x then none else some (bs.getD (x - a) 0)) else none := by
  induction bs generalizing a with
  | nil => simp [packOf] <;> omega
  | cons b bs ih =>
    unfold packOf
    by_cases hx : x = a
    · subst hx
      have none_of : ((packOf d (x + 1) bs).find? fun c => c.1 = x) = none := by
        rw [List.find?_eq_none]; intro c hc
        have := packOf_range (x + 1) bs c hc
        simp only [decide_eq_true_eq]; omega
      by_cases hb : b = d x
      · simp [hb, none_of]
      · simp [hb]
    · have key : ((packOf d (a + 1) bs).find? fun c => c.1 = x).map Prod.snd =
          if a ≤ x ∧ x < a + (b :: bs).length then (if (b :: bs).getD (x - a) 0 = d x then none else some ((b :: bs).getD (x - a) 0)) else none := by
        rw [ih (a + 1)]
        by_cases hr : a + 1 ≤ x ∧ x < a + 1 + bs.length
        · have e : x - a = (x - (a + 1)) + 1 := by omega
          have hr' : a ≤ x ∧ x < a + (b :: bs).length := by simp only [List.length_cons]; omega
          rw [if_pos hr, if_pos hr', e]; simp
        · have hr' : ¬ (a ≤ x ∧ x < a + (b :: bs).length) := by simp only [List.length_cons]; omega
          rw [if_neg hr, if_neg hr']
      split
      · exact key
      · rw [List.find?_cons_of_neg (by simp; omega)]; exact key

theorem find_filter_pos (m : List Host.Cell) (p : Host.Cell → Bool) (x : Nat) (h : ∀ c : Host.Cell, c.1 = x → p c = true) :
    ((m.filter p).find? fun c => c.1 = x) = m.find? fun c => c.1 = x := by
  induction m with
  | nil => rfl
  | cons c m ih =>
    by_cases hc : c.1 = x
    · rw [List.filter_cons_of_pos (h c hc), List.find?_cons_of_pos (by simpa), List.find?_cons_of_pos (by simpa)]
    · rw [List.find?_cons_of_neg (by simpa)]
      by_cases hp : p c = true
      · rw [List.filter_cons_of_pos hp, List.find?_cons_of_neg (by simpa)]; exact ih
      · rw [List.filter_cons_of_neg hp]; exact ih

theorem find_filter_neg (m : List Host.Cell) (p : Host.Cell → Bool) (x : Nat) (h : ∀ c : Host.Cell, c.1 = x → p c = false) :
    ((m.filter p).find? fun c => c.1 = x) = none := by
  rw [List.find?_eq_none]
  intro c hc e
  have := (List.mem_filter.mp hc).2
  simp only [decide_eq_true_eq] at e
  rw [h c e] at this; exact absurd this (by decide)

/-- A read after a write: the bytes written where they were written, and what was there before elsewhere. -/
theorem packAt_put (m : List Host.Cell) (a : Nat) (bs : Bytes) (x : Nat) :
    packAt d (packPut d m a bs) x = if a ≤ x ∧ x < a + bs.length then bs.getD (x - a) 0 else packAt d m x := by
  unfold packAt packPut
  rw [List.find?_append, List.find?_append, Option.map_or, Option.map_or, packOf_find]
  by_cases hr : a ≤ x ∧ x < a + bs.length
  · rw [if_pos hr, if_pos hr, find_filter_neg m _ x (fun c e => by simp; omega), find_filter_neg m _ x (fun c e => by simp; omega)]
    split
    · next e => rw [e]; rfl
    · simp
  · rw [if_neg hr, if_neg hr]
    by_cases hl : x < a
    · rw [find_filter_pos m _ x (fun c e => by simp; omega), find_filter_neg m _ x (fun c e => by simp; omega)]
      simp
    · rw [find_filter_neg m _ x (fun c e => by simp; omega), find_filter_pos m _ x (fun c e => by simp; omega)]
      simp

/-- A read of the array after a write (R168, R181). -/
theorem cellAt_put (m : Memory) (a : Nat) (bs : Bytes) (x : Nat) :
    cellAt (m.put a bs).cells x = if a ≤ x ∧ x < a + bs.length then bs.getD (x - a) 0 else cellAt m.cells x :=
  packAt_put m.cells a bs x

theorem put_wf (m : Memory) (a : Nat) (bs : Bytes) (h : m.wf = true) : (m.put a bs).wf = true := packPut_wf m.cells a bs h

theorem clearStripe_wf (m : Memory) (k : Nat) (h : m.wf = true) : (m.clearStripe k).wf = true := packWf_filter m.cells _ h

theorem putBlocks_wf (bs : List Bytes) (m : Memory) (a : Nat) (h : m.wf = true) : (m.putBlocks a bs).wf = true := by
  induction bs generalizing m a with
  | nil => exact h
  | cons b bs ih => exact ih (m.put a b) (a + 2048) (put_wf m a b h)

theorem memFold_wf {α : Type} (l : List α) (f : Memory → α → Memory) (hf : ∀ m x, m.wf = true → (f m x).wf = true) (m : Memory) (h : m.wf = true) :
    (l.foldl f m).wf = true := by
  induction l generalizing m with
  | nil => exact h
  | cons x l ih => exact ih (f m x) (hf m x h)

theorem onPc_wf (m : Memory) (i : Fin 128) (f : Pc → Pc) (h : m.wf = true) : (m.onPc i f).wf = true := h
theorem onPort_wf (m : Memory) (i : Fin 23) (f : Port → Port) (h : m.wf = true) : (m.onPort i f).wf = true := h
theorem onStack_wf (m : Memory) (i : Fin 4) (f : Stack → Stack) (h : m.wf = true) : (m.onStack i f).wf = true := h
theorem setGrain_wf (m : Memory) (k g : Nat) (h : m.wf = true) : (m.setGrain k g).wf = true := h
theorem issueNeighbour_wf (m : Memory) (i : Fin 128) (n : Neighbour) (b : Bool) (h : m.wf = true) : (m.issueNeighbour i n b).wf = true := h
theorem issueRefresh_wf (m : Memory) (i : Fin 128) (now : Nat) (h : m.wf = true) : (m.issueRefresh i now).wf = true := h

theorem scheduleNeighbours_wf (m : Memory) (i : Fin 128) (bank : Nat) (rows : List Nat) (now : Nat) (h : m.wf = true) :
    (m.scheduleNeighbours i bank rows now).wf = true := by
  unfold Memory.scheduleNeighbours
  refine memFold_wf _ _ (fun m row hm => ?_) m h
  refine onPc_wf _ _ _ ?_
  split
  · split
    · exact hm
    · exact hm
  · exact hm

theorem restartCadence_wf (m : Memory) (k : Fin 4) (now : Nat) (h : m.wf = true) : (m.restartCadence k now).wf = true := by
  unfold Memory.restartCadence
  exact memFold_wf _ _ (fun m i hm => onPc_wf m i _ hm) m h

theorem pullIn_wf (m : Memory) (k : Fin 4) (now : Nat) (h : m.wf = true) : (m.pullIn k now).wf = true := by
  unfold Memory.pullIn
  refine memFold_wf _ _ (fun m i hm => ?_) m h
  split
  · exact hm
  · exact onStack_wf _ _ _ (memFold_wf _ _ (fun m _ h => issueRefresh_wf m _ _ h) m hm)

end Sys2Proof.Laws
end

