-- ==== Sys2Proof/Laws/Queue.lean ====
section
/-!
SUPPORT. The event queue keeps its rule (R488): an event that enters, and events that leave and let pending ones in.
-/
namespace Sys2Proof.Laws
open Sys2Proof.Machine

theorem Events.wf_iff (ev : Events) :
    ev.wf = true ↔ ev.queue.length ≤ 1024 ∧ (ev.pending = [] ∨ ev.queue.length = 1024) ∧ (ev.pending.map Event.register).Nodup := by
  simp [Events.wf, and_assoc]

theorem enter_wf (ev : Events) (e : Event) (h : ev.wf = true) : (ev.enter e).wf = true := by
  rw [Events.wf_iff] at h ⊢
  obtain ⟨h1, h2, h3⟩ := h
  unfold Events.enter
  split
  · next k =>
    have k1 := List.isEmpty_iff.mp k.1
    have k2 := k.2
    refine ⟨?_, .inl k1, h3⟩
    simp only [List.length_append, List.length_singleton]
    omega
  · next k =>
    have full : ev.queue.length = 1024 := by
      rcases h2 with h2 | h2
      · have : ¬ ev.queue.length < 1024 := fun q => k ⟨by rw [h2]; rfl, q⟩
        omega
      · exact h2
    split
    · refine ⟨h1, .inr full, ?_⟩
      have : (ev.pending.map fun p => if (p.code = e.code && p.obj = e.obj && p.devaddr = e.devaddr) = true then
          { p with repeated := min 65535 (p.repeated + 1), coalesced := true } else p).map Event.register = ev.pending.map Event.register := by
        rw [List.map_map]
        apply List.map_congr_left
        intro p _
        simp only [Function.comp]
        split <;> rfl
      show (List.map Event.register (ev.pending.map _)).Nodup
      rw [this]
      exact h3
    · next n =>
      refine ⟨h1, .inr full, ?_⟩
      show (List.map Event.register (ev.pending ++ [e])).Nodup
      rw [List.map_append, List.nodup_append]
      refine ⟨h3, by simp, ?_⟩
      intro a ha b hb q
      subst q
      simp only [List.map_cons, List.map_nil, List.mem_singleton] at hb
      subst hb
      obtain ⟨p, hp, hq⟩ := List.mem_map.mp ha
      refine n (List.any_eq_true.mpr ⟨p, hp, ?_⟩)
      simp only [Event.register, Prod.mk.injEq] at hq
      simp [hq.1, hq.2.1, hq.2.2]

theorem drop_wf (ev : Events) (n w : Nat) (h : ev.wf = true) : (Events.refill { ev with queue := ev.queue.drop n, written := w }).wf = true := by
  rw [Events.wf_iff] at h ⊢
  obtain ⟨h1, h2, h3⟩ := h
  unfold Events.refill
  dsimp only
  have l : (ev.queue.drop n).length ≤ 1024 := by rw [List.length_drop]; omega
  refine ⟨?_, ?_, ?_⟩
  · rw [List.length_append, List.length_take]
    omega
  · rw [List.length_append, List.length_take]
    by_cases k : ev.pending.length ≤ 1024 - (ev.queue.drop n).length
    · exact .inl (List.drop_eq_nil_of_le k)
    · exact .inr (by omega)
  · exact h3.sublist ((List.drop_sublist _ _).map _)

end Sys2Proof.Laws
end

