-- ==== Sys2Proof/Laws/FrameShared.lean ====
section
/-!
SUPPORT. What each shared operation can change, one lemma each: the operations every family shares: replies, intake, time, the clock system and the memory system.
-/
set_option maxRecDepth 2000
namespace Sys2Proof.Laws
open Sys2Proof.Machine

theorem onQuad_frame (s : State) (q : Fin 4) (f : Quad → Quad) : Frame [.quads] s (State.onQuad s q f) :=
  ⟨rfl, rfl, Nat.le_refl _, fun h => h, by intro p h; cases p <;> first | exact absurd h (by decide) | exact rfl⟩

theorem onBank_frame (s : State) (b : Fin 16) (f : Bank → Bank) : Frame [.banks] s (State.onBank s b f) :=
  ⟨rfl, rfl, Nat.le_refl _, fun h => h, by intro p h; cases p <;> first | exact absurd h (by decide) | exact rfl⟩

theorem onInput_frame (s : State) (i : Fin 16) (f : Input → Input) : Frame [.inputs] s (State.onInput s i f) :=
  ⟨rfl, rfl, Nat.le_refl _, fun h => h, by intro p h; cases p <;> first | exact absurd h (by decide) | exact rfl⟩

theorem onUnit_frame (s : State) (u : Fin 8) (f : TUnit → TUnit) : Frame [.units] s (State.onUnit s u f) :=
  ⟨rfl, rfl, Nat.le_refl _, fun h => h, by intro p h; cases p <;> first | exact absurd h (by decide) | exact rfl⟩

theorem onGroup_frame (s : State) (g : Fin 4) (f : Group → Group) : Frame [.groups] s (State.onGroup s g f) :=
  ⟨rfl, rfl, Nat.le_refl _, fun h => h, by intro p h; cases p <;> first | exact absurd h (by decide) | exact rfl⟩

theorem onAcc_frame (s : State) (g : Fin 4) (f : Acc → Acc) : Frame [.accs] s (State.onAcc s g f) :=
  ⟨rfl, rfl, Nat.le_refl _, fun h => h, by intro p h; cases p <;> first | exact absurd h (by decide) | exact rfl⟩

theorem onOut_frame (s : State) (o : Fin 4) (f : Trigout → Trigout) : Frame [.trigouts] s (State.onOut s o f) :=
  ⟨rfl, rfl, Nat.le_refl _, fun h => h, by intro p h; cases p <;> first | exact absurd h (by decide) | exact rfl⟩

theorem onRing_frame (s : State) (g : Fin 4) (f : Ring → Ring) : Frame [.rings] s (State.onRing s g f) :=
  ⟨rfl, rfl, Nat.le_refl _, fun h => h, by intro p h; cases p <;> first | exact absurd h (by decide) | exact rfl⟩

theorem onPath_frame (s : State) (p : Path) (f : PathState → PathState) : Frame [.paths] s (State.onPath s p f) :=
  ⟨rfl, rfl, Nat.le_refl _, fun h => h, by intro p h; cases p <;> first | exact absurd h (by decide) | exact rfl⟩

theorem onClock_frame (s : State) (f : Clock → Clock) : Frame [.clock] s (State.onClock s f) :=
  ⟨rfl, rfl, Nat.le_refl _, fun h => h, by intro p h; cases p <;> first | exact absurd h (by decide) | exact rfl⟩

theorem onMem_frame (s : State) (f : Memory → Memory) (h : ∀ m, m.wf = true → (f m).wf = true) : Frame [.mem] s (State.onMem s f) := by
  refine ⟨rfl, rfl, Nat.le_refl _, fun m => ?_, by intro p h; cases p <;> first | exact absurd h (by decide) | exact rfl⟩
  simp only [State.wf, State.memoriesWf, Bool.and_eq_true] at m ⊢; exact ⟨⟨⟨⟨⟨h _ m.1.1.1.1.1, m.1.1.1.1.2⟩, m.1.1.1.2⟩, m.1.1.2⟩, m.1.2⟩, m.2⟩

theorem onGrove_frame (s : State) (f : Grove → Grove) : Frame [.grove] s (State.onGrove s f) :=
  ⟨rfl, rfl, Nat.le_refl _, fun h => h, by intro p h; cases p <;> first | exact absurd h (by decide) | exact rfl⟩

theorem onBoard_frame (s : State) (f : Board → Board) : Frame [.board] s (State.onBoard s f) :=
  ⟨rfl, rfl, Nat.le_refl _, fun h => h, by intro p h; cases p <;> first | exact absurd h (by decide) | exact rfl⟩

theorem onStim_frame (s : State) (f : Stim → Stim) : Frame [.stim] s (State.onStim s f) :=
  ⟨rfl, rfl, Nat.le_refl _, fun h => h, by intro p h; cases p <;> first | exact absurd h (by decide) | exact rfl⟩

theorem onCh_frame (s : State) (c : Fin 2) (f : StimCh → StimCh) : Frame [.stim] s (State.onCh s c f) := by
  unfold State.onCh
  repeat' first
    | exact rfl
    | with_reducible apply Frame.refl
    | with_reducible apply Frame.step (onStim_frame _ _)
    | split
    | dsimp only

theorem onMon_frame (s : State) (f : Monitor → Monitor) (h : decide (s.mon.rotation < 10) = true → decide ((f s.mon).rotation < 10) = true) : Frame [.mon] s (State.onMon s f) := by
  refine ⟨rfl, rfl, Nat.le_refl _, fun m => ?_, by intro p h; cases p <;> first | exact absurd h (by decide) | exact rfl⟩
  simp only [State.wf, State.memoriesWf, Bool.and_eq_true] at m ⊢; exact ⟨⟨⟨⟨⟨m.1.1.1.1.1, m.1.1.1.1.2⟩, m.1.1.1.2⟩, m.1.1.2⟩, m.1.2⟩, h m.2⟩

theorem onCal_frame (s : State) (f : Cal → Cal) (h : ∀ c, sparseWf c.staging = true → sparseWf (f c).staging = true) : Frame [.cal] s (State.onCal s f) := by
  refine ⟨rfl, rfl, Nat.le_refl _, fun m => ?_, by intro p h; cases p <;> first | exact absurd h (by decide) | exact rfl⟩
  simp only [State.wf, State.memoriesWf, Bool.and_eq_true] at m ⊢; exact ⟨⟨⟨⟨⟨m.1.1.1.1.1, m.1.1.1.1.2⟩, m.1.1.1.2⟩, h _ m.1.1.2⟩, m.1.2⟩, m.2⟩

theorem onFw_frame (s : State) (f : Firmware → Firmware) (h : ∀ w, w.wf = true → (f w).wf = true) : Frame [.fw] s (State.onFw s f) := by
  refine ⟨rfl, rfl, Nat.le_refl _, fun m => ?_, by intro p h; cases p <;> first | exact absurd h (by decide) | exact rfl⟩
  simp only [State.wf, State.memoriesWf, Bool.and_eq_true] at m ⊢; exact ⟨⟨⟨⟨⟨m.1.1.1.1.1, h _ m.1.1.1.1.2⟩, m.1.1.1.2⟩, m.1.1.2⟩, m.1.2⟩, m.2⟩

theorem onCore_frame (s : State) (c : Fin 4) (f : Core → Core) : Frame [.fw] s (State.onCore s c f) := by
  unfold State.onCore
  repeat' first
    | exact rfl
    | with_reducible apply Frame.refl
    | with_reducible apply Frame.step (onFw_frame _ _ ?_)
    | split
    | (intro _ h; exact h)
    | (intro h; exact h)
    | dsimp only

theorem onPort_frame (s : State) (p : Fin 5) (f : BoughPort → BoughPort) : Frame [.grove] s (State.onPort s p f) := by
  unfold State.onPort
  repeat' first
    | exact rfl
    | with_reducible apply Frame.refl
    | with_reducible apply Frame.step (onGrove_frame _ _)
    | split
    | dsimp only

theorem onHost_frame (s : State) (f : HostPort → HostPort) (h : ∀ p, sparseWf p.mailbox = true → sparseWf (f p).mailbox = true) : Frame [.host] s (State.onHost s f) := by
  refine ⟨rfl, rfl, Nat.le_refl _, fun m => ?_, by intro p h; cases p <;> first | exact absurd h (by decide) | exact rfl⟩
  simp only [State.wf, State.memoriesWf, Bool.and_eq_true] at m ⊢; exact ⟨⟨⟨⟨⟨m.1.1.1.1.1, m.1.1.1.1.2⟩, h _ m.1.1.1.2⟩, m.1.1.2⟩, m.1.2⟩, m.2⟩

theorem onEvents_frame (s : State) (f : Events → Events) (h : s.events.wf = true → (f s.events).wf = true) : Frame [.events] s (State.onEvents s f) := by
  refine ⟨rfl, rfl, Nat.le_refl _, fun m => ?_, by intro p h; cases p <;> first | exact absurd h (by decide) | exact rfl⟩
  simp only [State.wf, State.memoriesWf, Bool.and_eq_true] at m ⊢; exact ⟨⟨⟨⟨⟨m.1.1.1.1.1, m.1.1.1.1.2⟩, m.1.1.1.2⟩, m.1.1.2⟩, h m.1.2⟩, m.2⟩

theorem onRing4_frame (s : State) (f : CplRing → CplRing) : Frame [.ring4] s (State.onRing4 s f) :=
  ⟨rfl, rfl, Nat.le_refl _, fun h => h, by intro p h; cases p <;> first | exact absurd h (by decide) | exact rfl⟩

theorem linkOut_frame (s : State) (l : List HostWrite) : Frame [.link] s (State.linkOut s l) :=
  ⟨rfl, rfl, Nat.le_refl _, fun h => h, by intro p h; cases p <;> first | exact absurd h (by decide) | exact rfl⟩

theorem allQuads_frame (s : State) (f : Quad → Quad) : Frame [.quads] s (State.allQuads s f) :=
  ⟨rfl, rfl, Nat.le_refl _, fun h => h, by intro p h; cases p <;> first | exact absurd h (by decide) | exact rfl⟩

theorem allBanks_frame (s : State) (f : Bank → Bank) : Frame [.banks] s (State.allBanks s f) :=
  ⟨rfl, rfl, Nat.le_refl _, fun h => h, by intro p h; cases p <;> first | exact absurd h (by decide) | exact rfl⟩

theorem allUnits_frame (s : State) (f : TUnit → TUnit) : Frame [.units] s (State.allUnits s f) :=
  ⟨rfl, rfl, Nat.le_refl _, fun h => h, by intro p h; cases p <;> first | exact absurd h (by decide) | exact rfl⟩

theorem allRings_frame (s : State) (f : Ring → Ring) : Frame [.rings] s (State.allRings s f) :=
  ⟨rfl, rfl, Nat.le_refl _, fun h => h, by intro p h; cases p <;> first | exact absurd h (by decide) | exact rfl⟩

theorem onTagged_frame (s : State) (f : List Tagged → List Tagged) : Frame [.tagged] s (State.onTagged s f) :=
  ⟨rfl, rfl, Nat.le_refl _, fun h => h, by intro p h; cases p <;> first | exact absurd h (by decide) | exact rfl⟩

theorem noteDecided_frame (s : State) (c : Nat) : Frame [.decided] s (State.noteDecided s c) :=
  ⟨rfl, rfl, Nat.le_refl _, fun h => h, by intro p h; cases p <;> first | exact absurd h (by decide) | exact rfl⟩

theorem noteEvaluated_frame (s : State) (c : Nat) : Frame [.evaluated] s (State.noteEvaluated s c) :=
  ⟨rfl, rfl, Nat.le_refl _, fun h => h, by intro p h; cases p <;> first | exact absurd h (by decide) | exact rfl⟩

theorem noteTime_frame (s : State) (t : Nat) : Frame [.now] s (State.noteTime s t) :=
  ⟨rfl, rfl, Nat.le_max_left _ _, fun h => h, by intro p h; cases p <;> first | exact absurd h (by decide) | exact rfl⟩

theorem bar2Returns_frame (s : State) (b : Bytes) : Frame [.bar2Out] s (State.bar2Returns s b) :=
  ⟨rfl, rfl, Nat.le_refl _, fun h => h, by intro p h; cases p <;> first | exact absurd h (by decide) | exact rfl⟩

theorem advance_frame (s : State) (t : Nat) : Frame [.now, .clock, .events] s (State.advance s t) := by
  unfold State.advance
  repeat' first
    | exact rfl
    | with_reducible apply Frame.refl
    | with_reducible apply Frame.step (noteTime_frame _ _)
    | with_reducible apply Frame.step (onEvents_frame _ _ ?_)
    | with_reducible apply Frame.step (onClock_frame _ _)
    | split
    | (intro _ h; exact h)
    | (intro h; exact h)
    | dsimp only

theorem drawn_frame (s : State) (n : Nat) : Frame [.freeCount] s (State.drawn s n) :=
  ⟨rfl, rfl, Nat.le_refl _, fun h => h, by intro p h; cases p <;> first | exact absurd h (by decide) | exact rfl⟩

theorem draw_frame (s : State) : Frame [.freeCount] s (State.draw s) := by
  unfold State.draw
  repeat' first
    | exact rfl
    | with_reducible apply Frame.refl
    | with_reducible apply Frame.step (drawn_frame _ _)
    | split
    | dsimp only

theorem sendUp_frame (s : State) (pkt : Bytes) : Frame [.grove] s (State.sendUp s pkt) := by
  unfold State.sendUp
  repeat' first
    | exact rfl
    | with_reducible apply Frame.refl
    | with_reducible apply Frame.step (onPort_frame _ _ _)
    | with_reducible apply Frame.step (onGrove_frame _ _)
    | split
    | dsimp only

theorem eventUp_frame (s : State) (e : Event) : Frame [.grove] s (State.eventUp s e) := by
  unfold State.eventUp
  repeat' first
    | exact rfl
    | with_reducible apply Frame.refl
    | with_reducible apply Frame.step (sendUp_frame _ _)
    | split
    | dsimp only

theorem raiseAt_frame (s : State) (e : EventSpec) (tick : Nat) : Frame [.events, .grove, .link] s (State.raiseAt s e tick) := by
  unfold State.raiseAt
  repeat' first
    | exact rfl
    | with_reducible apply Frame.refl
    | (intro h; exact enter_wf _ _ h)
    | with_reducible apply Frame.step (eventUp_frame _ _)
    | with_reducible apply Frame.step (linkOut_frame _ _)
    | with_reducible apply Frame.step (onEvents_frame _ _ ?_)
    | split
    | (intro _ h; exact h)
    | (intro h; exact h)
    | dsimp only

theorem raise_frame (s : State) (e : EventSpec) : Frame [.events, .grove, .link] s (State.raise s e) := by
  unfold State.raise
  repeat' first
    | exact rfl
    | with_reducible apply Frame.refl
    | with_reducible apply Frame.step (raiseAt_frame _ _ _)
    | split
    | dsimp only

theorem toRing4_frame (s : State) (c : Completion) : Frame [.ring4] s (State.toRing4 s c) := by
  unfold State.toRing4
  repeat' first
    | exact rfl
    | with_reducible apply Frame.refl
    | with_reducible apply Frame.step (onRing4_frame _ _)
    | split
    | dsimp only

theorem putSram_frame (s : State) (addr : Nat) (bs : Bytes) : Frame [.fw] s (State.putSram s addr bs) :=
  onFw_frame _ _ fun w h => by
    simp only [Firmware.wf, Bool.and_eq_true] at h ⊢; exact ⟨⟨h.1.1, packPut_wf _ _ _ h.1.2⟩, h.2⟩

theorem submitReply_frame (s : State) (ticket : Nat) (pkt : Bytes) : Frame [.fw] s (State.submitReply s ticket pkt) := by
  unfold State.submitReply
  repeat' first
    | exact rfl
    | with_reducible apply Frame.refl
    | with_reducible apply Frame.step (putSram_frame _ _ _)
    | with_reducible apply Frame.step (onCore_frame _ _ _)
    | split
    | dsimp only

theorem handReply_frame (s0 : State) (path : Path) (pkt : Bytes) (ticket addr size afterEvent : Nat) : Frame [.ring4, .paths, .host, .fw, .grove, .link] s0 (State.handReply s0 path pkt ticket addr size afterEvent) := by
  unfold State.handReply
  repeat' first
    | exact rfl
    | with_reducible apply Frame.refl
    | with_reducible apply Frame.step (submitReply_frame _ _ _)
    | with_reducible apply Frame.step (toRing4_frame _ _)
    | with_reducible apply Frame.step (sendUp_frame _ _)
    | with_reducible apply Frame.step (linkOut_frame _ _)
    | with_reducible apply Frame.step (onHost_frame _ _ ?_)
    | with_reducible apply Frame.step (onPath_frame _ _ _)
    | split
    | (intro _ h; exact h)
    | (intro h; exact h)
    | dsimp only

theorem flush_frame (n : Nat) (path : Path) (s : State) : Frame [.ring4, .paths, .host, .fw, .grove, .link] s (State.flush n path s) := by
  induction n generalizing s with
  | zero => exact Frame.refl _ _
  | succ n ih =>
    unfold State.flush
    split
    · exact Frame.refl _ _
    · split
      · refine Frame.step (ih _) (partsIn_self _) ?_
        repeat' first
          | exact rfl
          | with_reducible apply Frame.refl
          | with_reducible apply Frame.step (handReply_frame _ _ _ _ _ _ _)
          | with_reducible apply Frame.step (toRing4_frame _ _)
          | with_reducible apply Frame.step (onHost_frame _ _ ?_)
          | with_reducible apply Frame.step (onPath_frame _ _ _)
          | split
          | (intro _ h; exact h)
          | dsimp only
      · exact Frame.refl _ _

theorem countPath_frame (s : State) (path : Path) (f : PathCounters → PathCounters) : Frame [.paths] s (State.countPath s path f) := by
  unfold State.countPath
  repeat' first
    | exact rfl
    | with_reducible apply Frame.refl
    | with_reducible apply Frame.step (onPath_frame _ _ _)
    | split
    | dsimp only

theorem flushAll_frame (s : State) : Frame [.ring4, .paths, .host, .fw, .grove, .link] s (State.flushAll s) := by
  unfold State.flushAll
  repeat' first
    | exact rfl
    | with_reducible apply Frame.refl
    | with_reducible apply Frame.step (flush_frame _ _ _)
    | split
    | dsimp only

theorem finish_frame (s : State) (k : HeldKind) (r : Reply) : Frame [.ring4, .paths, .host, .fw, .grove, .link] s (State.finish s k r) := by
  unfold State.finish
  repeat' first
    | exact rfl
    | with_reducible apply Frame.refl
    | with_reducible apply Frame.step (flushAll_frame _)
    | with_reducible apply Frame.step (onCore_frame _ _ _)
    | with_reducible apply Frame.step (onPath_frame _ _ _)
    | with_reducible apply Frame.each
    | with_reducible apply Frame.fold
    | with_reducible apply Frame.foldPair
    | split
    | intro _ _
    | dsimp only

theorem failHeld_frame (s : State) (reason : Nat) : Frame [.ring4, .paths, .host, .fw, .grove, .link] s (State.failHeld s reason) := by
  unfold State.failHeld
  repeat' first
    | exact rfl
    | with_reducible apply Frame.refl
    | with_reducible apply Frame.step (flushAll_frame _)
    | with_reducible apply Frame.step (onPath_frame _ _ _)
    | with_reducible apply Frame.fold
    | with_reducible apply Frame.foldPair
    | split
    | intro _ _
    | dsimp only

theorem sendOn_frame (s : State) (port : Fin 5) (m : Msg) : Frame [.grove] s (State.sendOn s port m) := by
  unfold State.sendOn
  repeat' first
    | exact rfl
    | with_reducible apply Frame.refl
    | with_reducible apply Frame.step (onPort_frame _ _ _)
    | with_reducible apply Frame.step (onGrove_frame _ _)
    | split
    | dsimp only

theorem flood_frame (s : State) (m : Msg) : Frame [.grove] s (State.flood s m) := by
  unfold State.flood
  repeat' first
    | exact rfl
    | with_reducible apply Frame.refl
    | with_reducible apply Frame.step (onPort_frame _ _ _)
    | with_reducible apply Frame.each
    | split
    | intro _ _
    | dsimp only

theorem intakeBad_frame (s : State) (e : Entry) (dest reason : Nat) : Frame [.ring4, .paths, .host, .fw, .grove, .link] s (State.intakeBad s e dest reason) := by
  unfold State.intakeBad
  repeat' first
    | exact rfl
    | with_reducible apply Frame.refl
    | with_reducible apply Frame.step (countPath_frame _ _ _)
    | with_reducible apply Frame.step (onPath_frame _ _ _)
    | with_reducible apply Frame.step (flush_frame _ _ _)
    | split
    | dsimp only

theorem enqueue_frame (s : State) (e : Entry) : Frame [.paths, .host] s (State.enqueue s e) := by
  unfold State.enqueue
  repeat' first
    | exact rfl
    | with_reducible apply Frame.refl
    | with_reducible apply Frame.step (countPath_frame _ _ _)
    | with_reducible apply Frame.step (onHost_frame _ _ ?_)
    | with_reducible apply Frame.step (onPath_frame _ _ _)
    | split
    | (intro _ h; exact h)
    | (intro h; exact h)
    | dsimp only

/-- Step 6 changes only what the grove carries. -/
theorem route6_frame (s : State) (h : Hdr) (opcode : Nat) (payload : Bytes) :
    (∀ t, s.route6 h opcode payload = .away t → Frame [.grove] s t) ∧ ∀ t, s.route6 h opcode payload = .both t → Frame [.grove] s t := by
  unfold State.route6; dsimp only
  constructor
  all_goals
    intro t e
    repeat' split at e
    all_goals first
      | (injection e with e; subst e
         repeat' first
           | exact rfl
           | with_reducible apply Frame.refl
           | with_reducible apply Frame.step (flood_frame _ _)
           | with_reducible apply Frame.step (sendOn_frame _ _ _)
           | with_reducible apply Frame.step (onGrove_frame _ _)
           | split)
      | exact absurd e (by intro h; cases h)

theorem receive_frame (s : State) (e : Entry) : Frame [.ring4, .paths, .host, .fw, .grove, .link] s (State.receive s e) := by
  unfold State.receive; dsimp only
  split
  · exact intakeBad_frame _ _ _ _
  · split
    · exact intakeBad_frame _ _ _ _
    · split
      · exact (enqueue_frame _ _).widen rfl
      · next h => exact ((route6_frame _ _ _ _).1 _ h).widen rfl
      · next h => exact Frame.step (enqueue_frame _ _) rfl (((route6_frame _ _ _ _).2 _ h).widen rfl)
      · exact intakeBad_frame _ _ _ _

theorem receiveBytes_frame (s : State) (path : Path) (b : Bytes) (addr size : Nat) : Frame [.ring4, .paths, .host, .fw, .grove, .link] s (State.receiveBytes s path b addr size) := by
  unfold State.receiveBytes
  repeat' first
    | exact rfl
    | with_reducible apply Frame.refl
    | with_reducible apply Frame.step (receive_frame _ _)
    | with_reducible apply Frame.step (intakeBad_frame _ _ _ _)
    | split
    | dsimp only

theorem startSlew_frame (s : State) (kind : SlewKind) (amount : Int) (ticket : Nat) (load : Int) : Frame [.clock] s (State.startSlew s kind amount ticket load) := by
  unfold State.startSlew
  repeat' first
    | exact rfl
    | with_reducible apply Frame.refl
    | with_reducible apply Frame.step (onClock_frame _ _)
    | split
    | dsimp only

theorem releaseItems_frame (s : State) : Frame [.rings] s (State.releaseItems s) := by
  unfold State.releaseItems
  repeat' first
    | exact rfl
    | with_reducible apply Frame.refl
    | with_reducible apply Frame.step (allRings_frame _ _)
    | split
    | dsimp only

theorem endSlew_frame (s : State) (tick : Nat) : Frame [.clock, .rings, .events, .grove, .link] s (State.endSlew s tick) := by
  unfold State.endSlew
  repeat' first
    | exact rfl
    | with_reducible apply Frame.refl
    | with_reducible apply Frame.step (releaseItems_frame _)
    | with_reducible apply Frame.step (raiseAt_frame _ _ _)
    | with_reducible apply Frame.step (onClock_frame _ _)
    | split
    | dsimp only

theorem dropSnap_frame (s : State) : Frame [.clock, .rings, .events, .grove, .link] s (State.dropSnap s) := by
  unfold State.dropSnap
  repeat' first
    | exact rfl
    | with_reducible apply Frame.refl
    | with_reducible apply Frame.step (endSlew_frame _ _)
    | with_reducible apply Frame.step (onClock_frame _ _)
    | split
    | dsimp only

theorem load_frame (s : State) (d : Int) : Frame [.clock] s (State.load s d) := by
  unfold State.load
  repeat' first
    | exact rfl
    | with_reducible apply Frame.refl
    | with_reducible apply Frame.step (onClock_frame _ _)
    | split
    | dsimp only

theorem coldLock_frame (s : State) : Frame [.clock] s (State.coldLock s) := by
  unfold State.coldLock
  repeat' first
    | exact rfl
    | with_reducible apply Frame.refl
    | with_reducible apply Frame.step (onClock_frame _ _)
    | split
    | dsimp only

theorem scheduleStop_frame (s : State) : Frame [.clock] s (State.scheduleStop s) := by
  unfold State.scheduleStop
  repeat' first
    | exact rfl
    | with_reducible apply Frame.refl
    | with_reducible apply Frame.step (onClock_frame _ _)
    | split
    | dsimp only

theorem takePlan_frame (s : State) (p : BitVec 128) : Frame [.clock, .rings, .events, .grove, .link] s (State.takePlan s p).1 := by
  unfold State.takePlan
  repeat' first
    | exact rfl
    | with_reducible apply Frame.refl
    | with_reducible apply Frame.step (coldLock_frame _)
    | with_reducible apply Frame.step (dropSnap_frame _)
    | with_reducible apply Frame.step (onClock_frame _ _)
    | split
    | dsimp only

theorem armSync_frame (s : State) (tick timeout ticket : Nat) : Frame [.clock] s (State.armSync s tick timeout ticket) := by
  unfold State.armSync
  repeat' first
    | exact rfl
    | with_reducible apply Frame.refl
    | with_reducible apply Frame.step (onClock_frame _ _)
    | split
    | dsimp only

theorem arrayRead_frame (s : State) (a n : Nat) : Frame [.freeCount] s (State.arrayRead s a n).1 := by
  unfold State.arrayRead
  repeat' first
    | exact rfl
    | with_reducible apply Frame.refl
    | with_reducible apply Frame.step (drawn_frame _ _)
    | split
    | dsimp only

theorem fwpRead_frame (s : State) (a n : Nat) : Frame [.mem, .freeCount] s (State.fwpRead s a n).1 := by
  unfold State.fwpRead
  repeat' first
    | exact rfl
    | with_reducible apply Frame.refl
    | with_reducible apply Frame.step (arrayRead_frame _ _ _)
    | with_reducible apply Frame.step (onMem_frame _ _ ?_)
    | split
    | (intro _ h; exact h)
    | (intro h; exact h)
    | (intro m h; exact put_wf _ _ _ h)
    | dsimp only

theorem fwpWrite_frame (s : State) (a : Nat) (bs : Bytes) : Frame [.mem] s (State.fwpWrite s a bs) := by
  unfold State.fwpWrite
  repeat' first
    | exact rfl
    | with_reducible apply Frame.refl
    | with_reducible apply Frame.step (onMem_frame _ _ ?_)
    | split
    | (intro _ h; exact h)
    | (intro h; exact h)
    | (intro m h; exact put_wf _ _ _ h)
    | dsimp only

theorem issueRequest_frame (s : State) (i : Fin 128) (r : MemReq) (byAge : Bool) : Frame [.mem, .freeCount] s (State.issueRequest s i r byAge) := by
  unfold State.issueRequest
  repeat' first
    | exact rfl
    | with_reducible apply Frame.refl
    | (intro m h; exact scheduleNeighbours_wf _ _ _ _ _ h)
    | with_reducible apply Frame.step (draw_frame _)
    | with_reducible apply Frame.step (onMem_frame _ _ ?_)
    | split
    | (intro _ h; exact h)
    | (intro h; exact h)
    | (intro m h; exact put_wf _ _ _ h)
    | dsimp only

theorem schedule_frame (s : State) (i : Fin 128) : Frame [.mem, .freeCount] s (State.schedule s i) := by
  unfold State.schedule
  repeat' first
    | exact rfl
    | with_reducible apply Frame.refl
    | with_reducible apply Frame.step (issueRequest_frame _ _ _ _)
    | with_reducible apply Frame.step (onMem_frame _ _ ?_)
    | split
    | (intro _ h; exact h)
    | (intro h; exact h)
    | (intro m h; exact put_wf _ _ _ h)
    | dsimp only

theorem memRequest_frame (s : State) (port : Fin 23) (unit : Nat) (a : MemAccess) (level : Nat) : Frame [.mem, .freeCount] s (State.memRequest s port unit a level) := by
  unfold State.memRequest
  repeat' first
    | exact rfl
    | with_reducible apply Frame.refl
    | with_reducible apply Frame.step (schedule_frame _ _)
    | with_reducible apply Frame.step (onMem_frame _ _ ?_)
    | split
    | (intro _ h; exact h)
    | (intro h; exact h)
    | (intro m h; exact put_wf _ _ _ h)
    | dsimp only

theorem eccReport_frame (s : State) (unit : Nat) (e : Ecc) : Frame [.mem] s (State.eccReport s unit e) := by
  unfold State.eccReport
  repeat' first
    | exact rfl
    | with_reducible apply Frame.refl
    | with_reducible apply Frame.step (onMem_frame _ _ ?_)
    | split
    | (intro _ h; exact h)
    | (intro h; exact h)
    | (intro m h; exact put_wf _ _ _ h)
    | dsimp only

theorem refreshDue_frame (s : State) (i : Fin 128) : Frame [.mem] s (State.refreshDue s i) := by
  unfold State.refreshDue
  repeat' first
    | exact rfl
    | with_reducible apply Frame.refl
    | with_reducible apply Frame.step (onMem_frame _ _ ?_)
    | with_reducible apply Frame.fold
    | with_reducible apply Frame.foldPair
    | split
    | (intro _ h; exact h)
    | (intro h; exact h)
    | (intro m h; exact put_wf _ _ _ h)
    | intro _ _
    | dsimp only

theorem startMemChange_frame (s : State) (rate : Nat) : Frame [.mem] s (State.startMemChange s rate) := by
  unfold State.startMemChange
  repeat' first
    | exact rfl
    | with_reducible apply Frame.refl
    | with_reducible apply Frame.step (onMem_frame _ _ ?_)
    | split
    | (intro _ h; exact h)
    | (intro h; exact h)
    | (intro m h; exact put_wf _ _ _ h)
    | dsimp only

theorem memClockDone_frame (s : State) (outcome rate ticket : Nat) : Frame [.events, .grove, .link] s (State.memClockDone s outcome rate ticket) := by
  unfold State.memClockDone
  repeat' first
    | exact rfl
    | with_reducible apply Frame.refl
    | with_reducible apply Frame.step (raise_frame _ _)
    | split
    | dsimp only

theorem makeQueued_frame (s : State) (rate ticket : Nat) : Frame [.mem, .ring4, .paths, .host, .events, .fw, .grove, .link] s (State.makeQueued s rate ticket) := by
  unfold State.makeQueued
  repeat' first
    | exact rfl
    | with_reducible apply Frame.refl
    | with_reducible apply Frame.step (memClockDone_frame _ _ _ _)
    | with_reducible apply Frame.step (startMemChange_frame _ _)
    | with_reducible apply Frame.step (finish_frame _ _ _)
    | with_reducible apply Frame.step (onMem_frame _ _ ?_)
    | with_reducible apply Frame.each
    | split
    | (intro _ h; exact h)
    | (intro h; exact h)
    | (intro m h; exact put_wf _ _ _ h)
    | intro _ _
    | dsimp only

theorem startTraining_frame (s : State) (initial : Bool) : Frame [.mem] s (State.startTraining s initial) := by
  unfold State.startTraining
  repeat' first
    | exact rfl
    | with_reducible apply Frame.refl
    | with_reducible apply Frame.step (onMem_frame _ _ ?_)
    | split
    | (intro _ h; exact h)
    | (intro h; exact h)
    | (intro m h; exact put_wf _ _ _ h)
    | dsimp only

theorem memClock_frame (s : State) (rate ticket : Nat) : Frame [.mem] s (State.memClock s rate ticket).1 := by
  unfold State.memClock
  repeat' first
    | exact rfl
    | with_reducible apply Frame.refl
    | with_reducible apply Frame.step (startMemChange_frame _ _)
    | with_reducible apply Frame.step (onMem_frame _ _ ?_)
    | split
    | (intro _ h; exact h)
    | (intro h; exact h)
    | (intro m h; exact put_wf _ _ _ h)
    | dsimp only

end Sys2Proof.Laws
end

