-- ==== Sys2Proof/Laws/FrameAcquire.lean ====
section
/-!
SUPPORT. What each shared operation can change, one lemma each: inputs, decimation, capture, trigger units, accumulation, triggers and their checks.
-/
set_option maxRecDepth 2000
namespace Sys2Proof.Laws
open Sys2Proof.Machine

theorem idleLinks_frame (s : State) (q : Fin 4) : Frame [.banks] s (State.idleLinks s q) := by
  unfold State.idleLinks
  repeat' first
    | exact rfl
    | with_reducible apply Frame.refl
    | with_reducible apply Frame.step (onBank_frame _ _ _)
    | with_reducible apply Frame.each
    | split
    | intro _ _
    | dsimp only

theorem trainLinks_frame (s : State) (q : Fin 4) : Frame [.banks] s (State.trainLinks s q) := by
  unfold State.trainLinks
  repeat' first
    | exact rfl
    | with_reducible apply Frame.refl
    | with_reducible apply Frame.step (onBank_frame _ _ _)
    | with_reducible apply Frame.each
    | split
    | intro _ _
    | dsimp only

theorem trim_frame (s : State) (b : Fin 16) : Frame [.banks] s (State.trim s b) := by
  unfold State.trim
  repeat' first
    | exact rfl
    | with_reducible apply Frame.refl
    | with_reducible apply Frame.step (onBank_frame _ _ _)
    | with_reducible apply Frame.fold
    | with_reducible apply Frame.foldPair
    | split
    | intro _ _
    | dsimp only

theorem pulse_frame (s : State) (source index fromTick : Nat) : Frame [.trigouts] s (State.pulse s source index fromTick) := by
  unfold State.pulse
  repeat' first
    | exact rfl
    | with_reducible apply Frame.refl
    | with_reducible apply Frame.step (onOut_frame _ _ _)
    | with_reducible apply Frame.each
    | split
    | intro _ _
    | dsimp only

theorem setGroupState_frame (s : State) (g : Fin 4) (st : GState) : Frame [.groups, .trigouts] s (State.setGroupState s g st) := by
  unfold State.setGroupState
  repeat' first
    | exact rfl
    | with_reducible apply Frame.refl
    | with_reducible apply Frame.step (onOut_frame _ _ _)
    | with_reducible apply Frame.step (onGroup_frame _ _ _)
    | with_reducible apply Frame.each
    | split
    | intro _ _
    | dsimp only

theorem channelTick_frame (s : State) (u : Fin 8) (i : Fin 16) (tick : Nat) : Frame [.units] s (State.channelTick s u i tick) := by
  unfold State.channelTick
  repeat' first
    | exact rfl
    | with_reducible apply Frame.refl
    | with_reducible apply Frame.step (onUnit_frame _ _ _)
    | with_reducible apply Frame.fold
    | with_reducible apply Frame.foldPair
    | split
    | intro _ _
    | dsimp only

theorem comparatorTick_frame (s : State) (i : Fin 16) (tick : Nat) : Frame [.inputs] s (State.comparatorTick s i tick).1 := by
  unfold State.comparatorTick
  repeat' first
    | exact rfl
    | with_reducible apply Frame.refl
    | with_reducible apply Frame.step (onInput_frame _ _ _)
    | with_reducible apply Frame.fold
    | with_reducible apply Frame.foldPair
    | split
    | intro _ _
    | dsimp only

theorem patternTick_frame (s : State) (u : Fin 8) (before : List Bool) (changes : List CmpChange) (tick : Nat) : Frame [.units] s (State.patternTick s u before changes tick) := by
  unfold State.patternTick
  repeat' first
    | exact rfl
    | with_reducible apply Frame.refl
    | with_reducible apply Frame.step (onUnit_frame _ _ _)
    | with_reducible apply Frame.fold
    | with_reducible apply Frame.foldPair
    | split
    | intro _ _
    | dsimp only

theorem taggedUnit_frame (s : State) (g : Tagged) (u : Fin 8) : Frame [.units] s (State.taggedUnit s g u) := by
  unfold State.taggedUnit
  repeat' first
    | exact rfl
    | with_reducible apply Frame.refl
    | with_reducible apply Frame.step (onUnit_frame _ _ _)
    | split
    | dsimp only

theorem tag_frame (s : State) (g : Tagged) : Frame [.units, .tagged] s (State.tag s g) := by
  unfold State.tag
  repeat' first
    | exact rfl
    | with_reducible apply Frame.refl
    | with_reducible apply Frame.step (taggedUnit_frame _ _ _)
    | with_reducible apply Frame.step (onTagged_frame _ _)
    | with_reducible apply Frame.each
    | split
    | intro _ _
    | dsimp only

theorem evalTick_frame (s : State) (tick : Nat) : Frame [.inputs, .units, .tagged, .evaluated] s (State.evalTick s tick) := by
  unfold State.evalTick
  repeat' first
    | exact rfl
    | with_reducible apply Frame.refl
    | with_reducible apply Frame.step (taggedUnit_frame _ _ _)
    | with_reducible apply Frame.step (patternTick_frame _ _ _ _ _)
    | with_reducible apply Frame.step (comparatorTick_frame _ _ _)
    | with_reducible apply Frame.step (channelTick_frame _ _ _ _)
    | with_reducible apply Frame.step (noteEvaluated_frame _ _)
    | with_reducible apply Frame.step (onTagged_frame _ _)
    | with_reducible apply Frame.each
    | with_reducible apply Frame.fold
    | with_reducible apply Frame.foldPair
    | split
    | intro _ _
    | dsimp only

theorem evalTo_frame (s : State) (upTo : Nat) : Frame [.inputs, .units, .tagged, .evaluated] s (State.evalTo s upTo) := by
  unfold State.evalTo
  repeat' first
    | exact rfl
    | with_reducible apply Frame.refl
    | with_reducible apply Frame.step (evalTick_frame _ _)
    | with_reducible apply Frame.step (noteEvaluated_frame _ _)
    | with_reducible apply Frame.each
    | split
    | intro _ _
    | dsimp only

theorem reconfigure_frame {ps : List Part} {s t : State} (f : State → State) (w : partsIn [.inputs, .units, .tagged, .evaluated] ps = true)
    (hf : ∀ s, Frame ps s (f s)) (k : Frame ps s t) : Frame ps s (State.reconfigure t f) :=
  Frame.step (hf _) (partsIn_self ps) (Frame.step (evalTo_frame _ _) w k)

theorem putAcc_frame (s : State) (g : Fin 4) (vals : List Nat) : Frame [.accs, .mem] s (State.putAcc s g vals) := by
  unfold State.putAcc
  repeat' first
    | exact rfl
    | with_reducible apply Frame.refl
    | with_reducible apply Frame.step (onMem_frame _ _ ?_)
    | with_reducible apply Frame.step (onAcc_frame _ _ _)
    | split
    | (intro _ h; exact h)
    | (intro h; exact h)
    | (intro m h; exact put_wf _ _ _ h)
    | dsimp only

theorem takeSnap_frame (s : State) (g : Fin 4) (slot : Nat) (boundary partial' : Bool) : Frame [.accs, .mem, .freeCount] s (State.takeSnap s g slot boundary partial') := by
  unfold State.takeSnap
  repeat' first
    | exact rfl
    | with_reducible apply Frame.refl
    | with_reducible apply Frame.step (drawn_frame _ _)
    | with_reducible apply Frame.step (onMem_frame _ _ ?_)
    | with_reducible apply Frame.step (onAcc_frame _ _ _)
    | split
    | (intro _ h; exact h)
    | (intro h; exact h)
    | (intro m h; exact put_wf _ _ _ h)
    | dsimp only

theorem enterDone_frame (s : State) (g : Fin 4) : Frame [.groups, .accs, .trigouts, .mem, .events, .grove, .link, .freeCount] s (State.enterDone s g) := by
  unfold State.enterDone
  repeat' first
    | exact rfl
    | with_reducible apply Frame.refl
    | with_reducible apply Frame.step (takeSnap_frame _ _ _ _ _)
    | with_reducible apply Frame.step (setGroupState_frame _ _ _)
    | with_reducible apply Frame.step (raise_frame _ _)
    | with_reducible apply Frame.step (onAcc_frame _ _ _)
    | with_reducible apply Frame.step (onGroup_frame _ _ _)
    | split
    | dsimp only

theorem tryDone_frame (s : State) (g : Fin 4) : Frame [.groups, .accs, .trigouts, .mem, .events, .grove, .link, .freeCount] s (State.tryDone s g) := by
  unfold State.tryDone
  repeat' first
    | exact rfl
    | with_reducible apply Frame.refl
    | with_reducible apply Frame.step (enterDone_frame _ _)
    | split
    | dsimp only

theorem endGroup_frame (s : State) (g : Fin 4) (c : DoneCause) (cutTime flagMask : Nat) : Frame [.groups, .accs, .trigouts, .mem, .events, .grove, .link, .freeCount] s (State.endGroup s g c cutTime flagMask) := by
  unfold State.endGroup
  repeat' first
    | exact rfl
    | with_reducible apply Frame.refl
    | with_reducible apply Frame.step (tryDone_frame _ _)
    | with_reducible apply Frame.step (onGroup_frame _ _ _)
    | split
    | dsimp only

theorem addItem_frame (s : State) (g : Fin 4) (i : Item) : Frame [.rings] s (State.addItem s g i) := by
  unfold State.addItem
  repeat' first
    | exact rfl
    | with_reducible apply Frame.refl
    | with_reducible apply Frame.step (onRing_frame _ _ _)
    | split
    | dsimp only

theorem placeMissed_frame (s : State) (g : Fin 4) : Frame [.groups, .rings] s (State.placeMissed s g) := by
  unfold State.placeMissed
  repeat' first
    | exact rfl
    | with_reducible apply Frame.refl
    | with_reducible apply Frame.step (addItem_frame _ _ _)
    | with_reducible apply Frame.step (onGroup_frame _ _ _)
    | with_reducible apply Frame.each
    | split
    | intro _ _
    | dsimp only

theorem missed_frame (s : State) (g : Fin 4) (es : List UEvent) : Frame [.groups, .rings] s (State.missed s g es) := by
  unfold State.missed
  repeat' first
    | exact rfl
    | with_reducible apply Frame.refl
    | with_reducible apply Frame.step (placeMissed_frame _ _)
    | with_reducible apply Frame.step (onGroup_frame _ _ _)
    | split
    | dsimp only

theorem refused_frame (s : State) (g : Fin 4) (es : List UEvent) (m : Nat) : Frame [.groups, .rings] s (State.refused s g es m) := by
  unfold State.refused
  repeat' first
    | exact rfl
    | with_reducible apply Frame.refl
    | with_reducible apply Frame.step (missed_frame _ _ _)
    | with_reducible apply Frame.step (onGroup_frame _ _ _)
    | split
    | dsimp only

theorem streamOverflow_frame (s : State) (g : Fin 4) (seq : Nat) : Frame [.groups, .events, .grove, .link] s (State.streamOverflow s g seq) := by
  unfold State.streamOverflow
  repeat' first
    | exact rfl
    | with_reducible apply Frame.refl
    | with_reducible apply Frame.step (raise_frame _ _)
    | with_reducible apply Frame.step (onGroup_frame _ _ _)
    | split
    | dsimp only

theorem putStream_frame (s : State) (g : Fin 4) (b : Bytes) : Frame [.groups, .mem] s (State.putStream s g b) := by
  unfold State.putStream
  repeat' first
    | exact rfl
    | with_reducible apply Frame.refl
    | with_reducible apply Frame.step (onMem_frame _ _ ?_)
    | with_reducible apply Frame.step (onGroup_frame _ _ _)
    | split
    | (intro _ h; exact h)
    | (intro h; exact h)
    | (intro m h; exact put_wf _ _ _ h)
    | dsimp only

theorem openStream_frame (s : State) (g : Fin 4) : Frame [.groups, .mem] s (State.openStream s g) := by
  unfold State.openStream
  repeat' first
    | exact rfl
    | with_reducible apply Frame.refl
    | with_reducible apply Frame.step (putStream_frame _ _ _)
    | with_reducible apply Frame.step (onGroup_frame _ _ _)
    | split
    | dsimp only

theorem beginRecord_frame (s : State) (g : Fin 4) (t : Trigger) : Frame [.groups, .mem] s (State.beginRecord s g t) := by
  unfold State.beginRecord
  repeat' first
    | exact rfl
    | with_reducible apply Frame.refl
    | with_reducible apply Frame.step (openStream_frame _ _)
    | with_reducible apply Frame.step (onMem_frame _ _ ?_)
    | with_reducible apply Frame.step (onGroup_frame _ _ _)
    | split
    | (intro _ h; exact h)
    | (intro h; exact h)
    | (intro m h; exact put_wf _ _ _ h)
    | dsimp only

theorem accept_frame (s : State) (g : Fin 4) (t : Trigger) : Frame [.groups, .accs, .trigouts, .mem, .events, .grove, .link, .freeCount] s (State.accept s g t) := by
  unfold State.accept
  repeat' first
    | exact rfl
    | with_reducible apply Frame.refl
    | with_reducible apply Frame.step (beginRecord_frame _ _ _)
    | with_reducible apply Frame.step (streamOverflow_frame _ _ _)
    | with_reducible apply Frame.step (tryDone_frame _ _)
    | with_reducible apply Frame.step (setGroupState_frame _ _ _)
    | with_reducible apply Frame.step (pulse_frame _ _ _ _)
    | with_reducible apply Frame.step (raise_frame _ _)
    | with_reducible apply Frame.step (onGroup_frame _ _ _)
    | split
    | dsimp only

theorem take_frame (s : State) (g : Fin 4) (t : Trigger) (es : List UEvent) (rearm : Nat) : Frame [.groups, .accs, .trigouts, .mem, .rings, .events, .grove, .link, .freeCount] s (State.take s g t es rearm) := by
  unfold State.take
  repeat' first
    | exact rfl
    | with_reducible apply Frame.refl
    | with_reducible apply Frame.step (accept_frame _ _ _)
    | with_reducible apply Frame.step (refused_frame _ _ _ _)
    | split
    | dsimp only

theorem delayTick_frame (s : State) (g : Fin 4) (c : Nat) (es : List UEvent) (rearm : Nat) : Frame [.groups, .accs, .trigouts, .mem, .rings, .events, .grove, .link, .freeCount] s (State.delayTick s g c es rearm) := by
  unfold State.delayTick
  repeat' first
    | exact rfl
    | with_reducible apply Frame.refl
    | with_reducible apply Frame.step (take_frame _ _ _ _ _)
    | with_reducible apply Frame.step (onGroup_frame _ _ _)
    | split
    | dsimp only

theorem stageTick_frame (s : State) (g : Fin 4) (c : Nat) (es : List UEvent) (rearm : Nat) : Frame [.groups, .accs, .trigouts, .mem, .rings, .events, .grove, .link, .freeCount] s (State.stageTick s g c es rearm) := by
  unfold State.stageTick
  repeat' first
    | exact rfl
    | with_reducible apply Frame.refl
    | with_reducible apply Frame.step (delayTick_frame _ _ _ _ _)
    | with_reducible apply Frame.step (take_frame _ _ _ _ _)
    | with_reducible apply Frame.step (onGroup_frame _ _ _)
    | split
    | dsimp only

theorem groupTick_frame (s : State) (g : Fin 4) (c : Nat) (es : List UEvent) : Frame [.groups, .accs, .trigouts, .mem, .rings, .events, .grove, .link, .freeCount] s (State.groupTick s g c es) := by
  unfold State.groupTick
  repeat' first
    | exact rfl
    | with_reducible apply Frame.refl
    | with_reducible apply Frame.step (stageTick_frame _ _ _ _ _)
    | with_reducible apply Frame.step (refused_frame _ _ _ _)
    | with_reducible apply Frame.step (onGroup_frame _ _ _)
    | split
    | dsimp only

theorem groveGroup_frame (s : State) (g : Fin 4) (e : UEvent) (taken : Nat) : Frame [.groups, .accs, .trigouts, .mem, .rings, .events, .grove, .link, .freeCount] s (State.groveGroup s g e taken) := by
  unfold State.groveGroup
  repeat' first
    | exact rfl
    | with_reducible apply Frame.refl
    | with_reducible apply Frame.step (accept_frame _ _ _)
    | with_reducible apply Frame.step (refused_frame _ _ _ _)
    | with_reducible apply Frame.step (onGroup_frame _ _ _)
    | split
    | dsimp only

theorem originate_frame (s : State) (e : UEvent) : Frame [.grove] s (State.originate s e) := by
  unfold State.originate
  repeat' first
    | exact rfl
    | with_reducible apply Frame.refl
    | with_reducible apply Frame.step (onGrove_frame _ _)
    | split
    | dsimp only

theorem deliver_frame (s : State) (e : UEvent) (pulseFrom : Nat) : Frame [.units, .trigouts, .stim, .grove] s (State.deliver s e pulseFrom) := by
  unfold State.deliver
  repeat' first
    | exact rfl
    | with_reducible apply Frame.refl
    | with_reducible apply Frame.step (originate_frame _ _)
    | with_reducible apply Frame.step (pulse_frame _ _ _ _)
    | with_reducible apply Frame.step (onCh_frame _ _ _)
    | with_reducible apply Frame.step (onUnit_frame _ _ _)
    | with_reducible apply Frame.each
    | split
    | intro _ _
    | dsimp only

theorem combine_frame (s : State) (c : Nat) : Frame [.units, .groups, .accs, .trigouts, .mem, .rings, .events, .stim, .grove, .link, .freeCount] s (State.combine s c) := by
  unfold State.combine
  repeat' first
    | exact rfl
    | with_reducible apply Frame.refl
    | with_reducible apply Frame.step (deliver_frame _ _ _)
    | with_reducible apply Frame.step (groupTick_frame _ _ _ _)
    | with_reducible apply Frame.step (allUnits_frame _ _)
    | with_reducible apply Frame.each
    | split
    | intro _ _
    | dsimp only

theorem decideTo_frame (s : State) (c : Nat) : Frame [.inputs, .units, .tagged, .decided, .evaluated, .groups, .accs, .trigouts, .mem, .rings, .events, .stim, .grove, .link, .freeCount] s (State.decideTo s c) := by
  unfold State.decideTo
  repeat' first
    | exact rfl
    | with_reducible apply Frame.refl
    | with_reducible apply Frame.step (combine_frame _ _)
    | with_reducible apply Frame.step (evalTo_frame _ _)
    | with_reducible apply Frame.step (noteDecided_frame _ _)
    | with_reducible apply Frame.each
    | with_reducible apply Frame.fold
    | with_reducible apply Frame.foldPair
    | split
    | intro _ _
    | dsimp only

theorem quiesce_frame (s : State) (q : Fin 4) : Frame [.inputs, .banks, .units, .tagged, .evaluated] s (State.quiesce s q) := by
  unfold State.quiesce
  repeat' first
    | exact rfl
    | with_reducible apply Frame.refl
    | with_reducible apply Frame.step (idleLinks_frame _ _)
    | with_reducible apply Frame.step (onBank_frame _ _ _)
    | with_reducible apply reconfigure_frame
    | with_reducible apply Frame.each
    | split
    | intro _ _
    | intro _
    | dsimp only

end Sys2Proof.Laws
end

