-- ==== Sys2Proof/Laws/FrameEngine.lean ====
section
/-!
SUPPORT. What each shared operation can change, one lemma each: calibration, arms, readout, the sequencer, the monitor, faults, the grove, the window and the system.
-/
set_option maxRecDepth 2000
namespace Sys2Proof.Laws
open Sys2Proof.Machine

theorem closeGroup_frame (s : State) (g : Fin 4) (mask : Nat) (at_ : Nat) : Frame [.groups] s (State.closeGroup s g mask at_) := by
  unfold State.closeGroup
  repeat' first
    | exact rfl
    | with_reducible apply Frame.refl
    | with_reducible apply Frame.step (onGroup_frame _ _ _)
    | split
    | dsimp only

theorem openGather_frame (s : State) (q : Fin 4) : Frame [.inputs, .quads, .units, .tagged, .decided, .evaluated, .groups, .accs, .trigouts, .mem, .rings, .events, .stim, .grove, .link, .freeCount] s (State.openGather s q) := by
  unfold State.openGather
  repeat' first
    | exact rfl
    | with_reducible apply Frame.refl
    | with_reducible apply Frame.step (closeGroup_frame _ _ _ _)
    | with_reducible apply Frame.step (decideTo_frame _ _)
    | with_reducible apply Frame.step (onGroup_frame _ _ _)
    | with_reducible apply Frame.step (onQuad_frame _ _ _)
    | with_reducible apply Frame.each
    | split
    | intro _ _
    | dsimp only

theorem reopenAfter_frame (s : State) (mask : Nat) (x : Nat) : Frame [.groups] s (State.reopenAfter s mask x) := by
  unfold State.reopenAfter
  repeat' first
    | exact rfl
    | with_reducible apply Frame.refl
    | with_reducible apply Frame.step (onGroup_frame _ _ _)
    | with_reducible apply Frame.each
    | split
    | intro _ _
    | dsimp only

theorem changeQuad_frame (s : State) (set : Option Bytes) (first : Bool) (x : Nat) (q : Fin 4) : Frame [.quads, .banks] s (State.changeQuad s set first x q) := by
  unfold State.changeQuad
  repeat' first
    | exact rfl
    | with_reducible apply Frame.refl
    | with_reducible apply Frame.step (onBank_frame _ _ _)
    | with_reducible apply Frame.step (onQuad_frame _ _ _)
    | with_reducible apply Frame.each
    | split
    | intro _ _
    | dsimp only

theorem entered_frame (s : State) (qs : List (Fin 4)) (id x : Nat) : Frame [.quads, .events, .grove, .link] s (State.entered s qs id x) := by
  unfold State.entered
  repeat' first
    | exact rfl
    | with_reducible apply Frame.refl
    | with_reducible apply Frame.step (raiseAt_frame _ _ _)
    | with_reducible apply Frame.step (onQuad_frame _ _ _)
    | with_reducible apply Frame.each
    | with_reducible apply Frame.fold
    | with_reducible apply Frame.foldPair
    | split
    | intro _ _
    | dsimp only

theorem enterSet_frame (s : State) (x : Nat) : Frame [.quads, .banks, .cal, .groups, .events, .grove, .link] s (State.enterSet s x) := by
  unfold State.enterSet
  repeat' first
    | exact rfl
    | with_reducible apply Frame.refl
    | with_reducible apply Frame.step (entered_frame _ _ _ _)
    | with_reducible apply Frame.step (changeQuad_frame _ _ _ _ _)
    | with_reducible apply Frame.step (reopenAfter_frame _ _ _)
    | with_reducible apply Frame.step (onCal_frame _ _ ?_)
    | with_reducible apply Frame.step (onQuad_frame _ _ _)
    | with_reducible apply Frame.each
    | split
    | (intro _ h; exact h)
    | (intro h; exact h)
    | intro _ _
    | dsimp only

theorem enterBg_frame (s : State) (q : Fin 4) (x : Nat) : Frame [.quads, .banks, .groups, .events, .grove, .link] s (State.enterBg s q x) := by
  unfold State.enterBg
  repeat' first
    | exact rfl
    | with_reducible apply Frame.refl
    | with_reducible apply Frame.step (entered_frame _ _ _ _)
    | with_reducible apply Frame.step (changeQuad_frame _ _ _ _ _)
    | with_reducible apply Frame.step (reopenAfter_frame _ _ _)
    | split
    | dsimp only

theorem setPends_frame (s : State) (set : Bytes) : Frame [.inputs, .quads, .cal, .units, .tagged, .decided, .evaluated, .groups, .accs, .trigouts, .mem, .rings, .events, .stim, .grove, .link, .freeCount] s (State.setPends s set) := by
  unfold State.setPends
  repeat' first
    | exact rfl
    | with_reducible apply Frame.refl
    | with_reducible apply Frame.step (openGather_frame _ _)
    | with_reducible apply Frame.step (onCal_frame _ _ ?_)
    | with_reducible apply Frame.step (onQuad_frame _ _ _)
    | with_reducible apply Frame.each
    | split
    | (intro _ h; exact h)
    | (intro h; exact h)
    | intro _ _
    | dsimp only

theorem judgeBg_frame (s : State) (q : Fin 4) : Frame [.quads] s (State.judgeBg s q) := by
  unfold State.judgeBg
  repeat' first
    | exact rfl
    | with_reducible apply Frame.refl
    | with_reducible apply Frame.step (onQuad_frame _ _ _)
    | split
    | dsimp only

theorem sliceOut_frame (s : State) (b : Fin 16) (slice : Nat) : Frame [.banks, .events, .grove, .link] s (State.sliceOut s b slice) := by
  unfold State.sliceOut
  repeat' first
    | exact rfl
    | with_reducible apply Frame.refl
    | with_reducible apply Frame.step (raise_frame _ _)
    | with_reducible apply Frame.step (onBank_frame _ _ _)
    | split
    | dsimp only

theorem bgEstimate_frame (s : State) (b : Fin 16) (e : SliceEstimate) : Frame [.quads, .banks, .events, .grove, .link] s (State.bgEstimate s b e) := by
  unfold State.bgEstimate
  repeat' first
    | exact rfl
    | with_reducible apply Frame.refl
    | with_reducible apply Frame.step (sliceOut_frame _ _ _)
    | with_reducible apply Frame.step (judgeBg_frame _ _)
    | with_reducible apply Frame.step (onBank_frame _ _ _)
    | split
    | dsimp only

theorem leaveConnect_frame (s : State) (q : Fin 4) (dest : Switch3) : Frame [.quads, .events, .grove, .link] s (State.leaveConnect s q dest) := by
  unfold State.leaveConnect
  repeat' first
    | exact rfl
    | with_reducible apply Frame.refl
    | with_reducible apply Frame.step (raiseAt_frame _ _ _)
    | with_reducible apply Frame.step (onQuad_frame _ _ _)
    | split
    | dsimp only

theorem returnSwitch_frame (s : State) (q : Fin 4) (after : Nat) : Frame [.quads] s (State.returnSwitch s q after) := by
  unfold State.returnSwitch
  repeat' first
    | exact rfl
    | with_reducible apply Frame.refl
    | with_reducible apply Frame.step (onQuad_frame _ _ _)
    | split
    | dsimp only

theorem returnAll_frame (s : State) : Frame [.quads] s (State.returnAll s) := by
  unfold State.returnAll
  repeat' first
    | exact rfl
    | with_reducible apply Frame.refl
    | with_reducible apply Frame.step (returnSwitch_frame _ _ _)
    | with_reducible apply Frame.each
    | split
    | intro _ _
    | dsimp only

theorem nextQuad_frame (s : State) : Frame [.cal] s (State.nextQuad s) := by
  unfold State.nextQuad
  repeat' first
    | exact rfl
    | with_reducible apply Frame.refl
    | with_reducible apply Frame.step (onCal_frame _ _ ?_)
    | split
    | (intro _ h; exact h)
    | (intro h; exact h)
    | dsimp only

theorem abortRun_frame (s : State) : Frame [.cal] s (State.abortRun s) := by
  unfold State.abortRun
  repeat' first
    | exact rfl
    | with_reducible apply Frame.refl
    | with_reducible apply Frame.step (onCal_frame _ _ ?_)
    | split
    | (intro _ h; exact h)
    | (intro h; exact h)
    | dsimp only

theorem runNoRefin_frame (s : State) : Frame [.cal] s (State.runNoRefin s) := by
  unfold State.runNoRefin
  repeat' first
    | exact rfl
    | with_reducible apply Frame.refl
    | with_reducible apply Frame.step (onCal_frame _ _ ?_)
    | split
    | (intro _ h; exact h)
    | (intro h; exact h)
    | dsimp only

theorem reopenRun_frame (s : State) (mask : Nat) : Frame [.groups] s (State.reopenRun s mask) := by
  unfold State.reopenRun
  repeat' first
    | exact rfl
    | with_reducible apply Frame.refl
    | with_reducible apply Frame.step (onGroup_frame _ _ _)
    | with_reducible apply Frame.each
    | split
    | intro _ _
    | dsimp only

theorem endDrain_frame (s : State) (r : CalRun) : Frame [.cal, .groups] s (State.endDrain s r) := by
  unfold State.endDrain
  repeat' first
    | exact rfl
    | with_reducible apply Frame.refl
    | with_reducible apply Frame.step (reopenRun_frame _ _)
    | with_reducible apply Frame.step (onCal_frame _ _ ?_)
    | split
    | (intro _ h; exact h)
    | (intro h; exact h)
    | dsimp only

theorem startRun_frame (s : State) (mask : Nat) (proceed : Bool) (ticket : Nat) : Frame [.inputs, .cal, .units, .tagged, .decided, .evaluated, .groups, .accs, .trigouts, .mem, .rings, .events, .stim, .grove, .link, .freeCount] s (State.startRun s mask proceed ticket) := by
  unfold State.startRun
  repeat' first
    | exact rfl
    | with_reducible apply Frame.refl
    | with_reducible apply Frame.step (endDrain_frame _ _)
    | with_reducible apply Frame.step (closeGroup_frame _ _ _ _)
    | with_reducible apply Frame.step (decideTo_frame _ _)
    | with_reducible apply Frame.step (onCal_frame _ _ ?_)
    | with_reducible apply Frame.each
    | split
    | (intro _ h; exact h)
    | (intro h; exact h)
    | intro _ _
    | dsimp only

theorem countCal_frame (s : State) (qs : List Nat) : Frame [.banks] s (State.countCal s qs) := by
  unfold State.countCal
  repeat' first
    | exact rfl
    | with_reducible apply Frame.refl
    | with_reducible apply Frame.step (onBank_frame _ _ _)
    | with_reducible apply Frame.each
    | split
    | intro _ _
    | dsimp only

theorem formResults_frame (s : State) (r : CalRun) : Frame [.inputs, .quads, .banks, .cal, .units, .tagged, .decided, .evaluated, .groups, .accs, .trigouts, .mem, .rings, .events, .stim, .grove, .link, .freeCount] s (State.formResults s r) := by
  unfold State.formResults
  repeat' first
    | exact rfl
    | with_reducible apply Frame.refl
    | with_reducible apply Frame.step (countCal_frame _ _)
    | with_reducible apply Frame.step (reopenRun_frame _ _)
    | with_reducible apply Frame.step (setPends_frame _ _)
    | with_reducible apply Frame.step (raise_frame _ _)
    | with_reducible apply Frame.step (onCal_frame _ _ ?_)
    | with_reducible apply Frame.step (onQuad_frame _ _ _)
    | with_reducible apply Frame.each
    | with_reducible apply Frame.fold
    | with_reducible apply Frame.foldPair
    | split
    | (intro _ h; exact h)
    | (intro h; exact h)
    | intro _ _
    | dsimp only

theorem applyPending_frame (s : State) (g : Fin 4) (x : Nat) : Frame [.quads, .banks, .cal, .groups, .events, .grove, .link] s (State.applyPending s g x).1 := by
  unfold State.applyPending
  repeat' first
    | exact rfl
    | with_reducible apply Frame.refl
    | with_reducible apply Frame.step (enterBg_frame _ _ _)
    | with_reducible apply Frame.step (enterSet_frame _ _)
    | with_reducible apply Frame.each
    | split
    | intro _ _
    | dsimp only

theorem armNow_frame (s : State) (g : Fin 4) : Frame [.inputs, .quads, .banks, .cal, .units, .tagged, .decided, .evaluated, .groups, .accs, .trigouts, .mem, .rings, .events, .stim, .grove, .link, .freeCount] s (State.armNow s g).1 := by
  unfold State.armNow
  repeat' first
    | exact rfl
    | with_reducible apply Frame.refl
    | with_reducible apply Frame.step (applyPending_frame _ _ _)
    | with_reducible apply Frame.step (decideTo_frame _ _)
    | with_reducible apply Frame.step (setGroupState_frame _ _ _)
    | with_reducible apply Frame.step (onMem_frame _ _ ?_)
    | with_reducible apply Frame.step (onRing_frame _ _ _)
    | with_reducible apply Frame.step (onAcc_frame _ _ _)
    | with_reducible apply Frame.step (onGroup_frame _ _ _)
    | split
    | (intro _ h; exact h)
    | (intro h; exact h)
    | (intro m h; exact put_wf _ _ _ h)
    | dsimp only

theorem reserve_frame (s : State) (g : Fin 4) (store : Option Nat) : Frame [.accs] s (State.reserve s g store) := by
  unfold State.reserve
  repeat' first
    | exact rfl
    | with_reducible apply Frame.refl
    | with_reducible apply Frame.step (onAcc_frame _ _ _)
    | split
    | dsimp only

theorem armRun_frame (s : State) (g : Fin 4) (path : Path) : Frame [.inputs, .quads, .banks, .cal, .units, .tagged, .decided, .evaluated, .groups, .accs, .trigouts, .mem, .rings, .events, .stim, .grove, .link, .freeCount] s (State.armRun s g path).1 := by
  unfold State.armRun
  repeat' first
    | exact rfl
    | with_reducible apply Frame.refl
    | with_reducible apply Frame.step (reserve_frame _ _ _)
    | with_reducible apply Frame.step (armNow_frame _ _)
    | with_reducible apply Frame.step (onGroup_frame _ _ _)
    | split
    | dsimp only

theorem regrain_frame (s : State) (ranges : List (Nat × Nat)) (grain : Nat) : Frame [.mem, .stim] s (State.regrain s ranges grain) := by
  unfold State.regrain
  repeat' first
    | exact rfl
    | with_reducible apply Frame.refl
    | (intro m h; exact memFold_wf _ _ (fun m k h => setGrain_wf _ _ _ (clearStripe_wf m k h)) m h)
    | with_reducible apply Frame.step (onStim_frame _ _)
    | with_reducible apply Frame.step (onMem_frame _ _ ?_)
    | with_reducible apply Frame.fold
    | with_reducible apply Frame.foldPair
    | split
    | (intro _ h; exact h)
    | (intro h; exact h)
    | (intro m h; exact put_wf _ _ _ h)
    | intro _ _
    | dsimp only

theorem stopGroup_frame (s : State) (g : Fin 4) (finish : Bool) : Frame [.inputs, .units, .tagged, .decided, .evaluated, .groups, .accs, .trigouts, .mem, .rings, .events, .stim, .grove, .link, .freeCount] s (State.stopGroup s g finish) := by
  unfold State.stopGroup
  repeat' first
    | exact rfl
    | with_reducible apply Frame.refl
    | with_reducible apply Frame.step (decideTo_frame _ _)
    | with_reducible apply Frame.step (tryDone_frame _ _)
    | with_reducible apply Frame.step (onGroup_frame _ _ _)
    | split
    | dsimp only

theorem badDoorbell_frame (s : State) : Frame [.host] s (State.badDoorbell s) := by
  unfold State.badDoorbell
  repeat' first
    | exact rfl
    | with_reducible apply Frame.refl
    | with_reducible apply Frame.step (onHost_frame _ _ ?_)
    | split
    | (intro _ h; exact h)
    | (intro h; exact h)
    | dsimp only

theorem postGroup_frame {ps : List Part} {s t : State} (g : Fin 4) (c : Completion) (then' : State → State) (w : partsIn [.rings, .link] ps = true)
    (hf : ∀ s, Frame ps s (then' s)) (k : Frame ps s t) : Frame ps s (State.postGroup t g c then') := by
  unfold State.postGroup; dsimp only
  split
  · exact Frame.step ((onRing_frame _ _ _).widen (qs := [.rings]) (ps := [.rings, .link]) rfl) w k
  · exact Frame.step (hf _) (partsIn_self ps) (Frame.step (Frame.step (linkOut_frame _ _) rfl ((onRing_frame _ _ _).widen (ps := [.rings, .link]) rfl)) w k)

theorem post4_frame {ps : List Part} {s t : State} (c : Completion) (then' : State → State) (w : partsIn [.ring4, .link] ps = true)
    (hf : ∀ s, Frame ps s (then' s)) (k : Frame ps s t) : Frame ps s (State.post4 t c then') := by
  unfold State.post4; dsimp only
  split
  · exact Frame.step ((onRing4_frame _ _).widen (ps := [.ring4, .link]) rfl) w k
  · exact Frame.step (hf _) (partsIn_self ps) (Frame.step (Frame.step (linkOut_frame _ _) rfl ((onRing4_frame _ _).widen (ps := [.ring4, .link]) rfl)) w k)

theorem applySetup_frame (s : State) : Frame [.ring4, .paths, .host] s (State.applySetup s) := by
  unfold State.applySetup
  repeat' first
    | exact rfl
    | with_reducible apply Frame.refl
    | with_reducible apply Frame.step (onRing4_frame _ _)
    | with_reducible apply Frame.step (onHost_frame _ _ ?_)
    | with_reducible apply Frame.step (onPath_frame _ _ _)
    | split
    | (intro _ h; exact h)
    | (intro h; exact h)
    | dsimp only

theorem toGroup_frame (s : State) (g : Fin 4) (c : Completion) : Frame [.rings] s (State.toGroup s g c) := by
  unfold State.toGroup
  repeat' first
    | exact rfl
    | with_reducible apply Frame.refl
    | with_reducible apply Frame.step (onRing_frame _ _ _)
    | split
    | dsimp only

theorem takeFetch_frame (s : State) (g : Fin 4) (d : DescFields) (n : Nat) : Frame [.rings] s (State.takeFetch s g d n) := by
  unfold State.takeFetch
  repeat' first
    | exact rfl
    | with_reducible apply Frame.refl
    | with_reducible apply Frame.step (toGroup_frame _ _ _)
    | with_reducible apply Frame.step (onRing_frame _ _ _)
    | split
    | dsimp only

theorem takeBuffer_frame (s : State) (g : Fin 4) (d : DescFields) (n : Nat) : Frame [.rings] s (State.takeBuffer s g d n) := by
  unfold State.takeBuffer
  repeat' first
    | exact rfl
    | with_reducible apply Frame.refl
    | with_reducible apply Frame.step (onRing_frame _ _ _)
    | split
    | dsimp only

theorem takeDescriptor_frame (s : State) (g : Fin 4) (b : Bytes) : Frame [.rings] s (State.takeDescriptor s g b) := by
  unfold State.takeDescriptor
  repeat' first
    | exact rfl
    | with_reducible apply Frame.refl
    | with_reducible apply Frame.step (takeBuffer_frame _ _ _ _)
    | with_reducible apply Frame.step (takeFetch_frame _ _ _ _)
    | with_reducible apply Frame.step (toGroup_frame _ _ _)
    | with_reducible apply Frame.step (onRing_frame _ _ _)
    | split
    | dsimp only

theorem freeSnap_frame (s : State) (g : Fin 4) (slot : Nat) : Frame [.accs] s (State.freeSnap s g slot) := by
  unfold State.freeSnap
  repeat' first
    | exact rfl
    | with_reducible apply Frame.refl
    | with_reducible apply Frame.step (onAcc_frame _ _ _)
    | split
    | dsimp only

theorem itemBlock_frame (s : State) (g : Fin 4) (bad : Bool) : Frame [.accs, .rings] s (State.itemBlock s g bad) := by
  unfold State.itemBlock
  repeat' first
    | exact rfl
    | with_reducible apply Frame.refl
    | with_reducible apply Frame.step (freeSnap_frame _ _ _)
    | with_reducible apply Frame.step (onRing_frame _ _ _)
    | split
    | dsimp only

theorem closeStream_frame (s : State) (g : Fin 4) (d : Desc) : Frame [.rings] s (State.closeStream s g d) := by
  unfold State.closeStream
  repeat' first
    | exact rfl
    | with_reducible apply Frame.refl
    | with_reducible apply Frame.step (toGroup_frame _ _ _)
    | with_reducible apply Frame.step (onRing_frame _ _ _)
    | split
    | dsimp only

theorem streamBlock_frame (s : State) (g : Fin 4) (d : Desc) (bad : Bool) : Frame [.groups, .rings] s (State.streamBlock s g d bad) := by
  unfold State.streamBlock
  repeat' first
    | exact rfl
    | with_reducible apply Frame.refl
    | with_reducible apply Frame.step (closeStream_frame _ _ _)
    | with_reducible apply Frame.step (onRing_frame _ _ _)
    | with_reducible apply Frame.step (onGroup_frame _ _ _)
    | split
    | dsimp only

theorem fetchBlock_frame (s : State) (g : Fin 4) (d : Desc) : Frame [.accs, .rings] s (State.fetchBlock s g d) := by
  unfold State.fetchBlock
  repeat' first
    | exact rfl
    | with_reducible apply Frame.refl
    | with_reducible apply Frame.step (freeSnap_frame _ _ _)
    | with_reducible apply Frame.step (toGroup_frame _ _ _)
    | with_reducible apply Frame.step (onRing_frame _ _ _)
    | split
    | dsimp only

theorem readBlock_frame (s : State) (g : Fin 4) (damaged : Option Bytes) : Frame [.groups, .accs, .mem, .rings, .link, .freeCount] s (State.readBlock s g damaged) := by
  unfold State.readBlock
  repeat' first
    | exact rfl
    | with_reducible apply Frame.refl
    | with_reducible apply Frame.step (fetchBlock_frame _ _ _)
    | with_reducible apply Frame.step (streamBlock_frame _ _ _ _)
    | with_reducible apply Frame.step (itemBlock_frame _ _ _)
    | with_reducible apply Frame.step (arrayRead_frame _ _ _)
    | with_reducible apply Frame.step (linkOut_frame _ _)
    | with_reducible apply Frame.step (onMem_frame _ _ ?_)
    | with_reducible apply Frame.step (onRing_frame _ _ _)
    | split
    | (intro _ h; exact h)
    | (intro h; exact h)
    | (intro m h; exact put_wf _ _ _ h)
    | dsimp only

theorem flushStream_frame (s : State) (g : Fin 4) : Frame [.rings] s (State.flushStream s g) := by
  unfold State.flushStream
  repeat' first
    | exact rfl
    | with_reducible apply Frame.refl
    | with_reducible apply Frame.step (closeStream_frame _ _ _)
    | split
    | dsimp only

theorem dropItem_frame (s : State) (g : Fin 4) (c : Completion) : Frame [.rings] s (State.dropItem s g c) := by
  unfold State.dropItem
  repeat' first
    | exact rfl
    | with_reducible apply Frame.refl
    | with_reducible apply Frame.step (onRing_frame _ _ _)
    | split
    | dsimp only

theorem dropWaiting_frame (s : State) (g : Fin 4) (c : Completion) : Frame [.rings] s (State.dropWaiting s g c) := by
  unfold State.dropWaiting
  repeat' first
    | exact rfl
    | with_reducible apply Frame.refl
    | with_reducible apply Frame.step (onRing_frame _ _ _)
    | split
    | dsimp only

theorem postLane_frame (s : State) (g : Fin 4) (lane : CplLane) : Frame [.rings, .link] s (State.postLane s g lane) := by
  unfold State.postLane
  repeat' first
    | exact rfl
    | with_reducible apply Frame.refl
    | with_reducible apply Frame.step (dropWaiting_frame _ _ _)
    | with_reducible apply Frame.step (dropItem_frame _ _ _)
    | with_reducible apply postGroup_frame
    | split
    | intro _
    | dsimp only

theorem dropEvent_frame (s : State) (e : Event) : Frame [.events] s (State.dropEvent s e) := by
  unfold State.dropEvent
  repeat' first
    | exact rfl
    | with_reducible apply Frame.refl
    | (intro h; exact drop_wf _ 1 _ h)
    | with_reducible apply Frame.step (onEvents_frame _ _ ?_)
    | split
    | (intro _ h; exact h)
    | (intro h; exact h)
    | dsimp only

theorem postRing4_frame (s : State) (lane : CplLane) : Frame [.ring4, .paths, .host, .events, .link] s (State.postRing4 s lane) := by
  unfold State.postRing4
  repeat' first
    | exact rfl
    | with_reducible apply Frame.refl
    | with_reducible apply Frame.step (dropEvent_frame _ _)
    | with_reducible apply Frame.step (applySetup_frame _)
    | with_reducible apply Frame.step (onRing4_frame _ _)
    | with_reducible apply post4_frame
    | split
    | intro _
    | dsimp only

theorem irqTimerDue_frame (s : State) (ring : Fin 5) : Frame [.rings, .ring4, .link] s (State.irqTimerDue s ring) := by
  unfold State.irqTimerDue
  repeat' first
    | exact rfl
    | with_reducible apply Frame.refl
    | with_reducible apply Frame.step (linkOut_frame _ _)
    | with_reducible apply Frame.step (onRing4_frame _ _)
    | with_reducible apply Frame.step (onRing_frame _ _ _)
    | split
    | dsimp only

theorem descTail_frame (s : State) (g : Fin 4) (v : Nat) : Frame [.rings, .host] s (State.descTail s g v) := by
  unfold State.descTail
  repeat' first
    | exact rfl
    | with_reducible apply Frame.refl
    | with_reducible apply Frame.step (badDoorbell_frame _)
    | with_reducible apply Frame.step (onRing_frame _ _ _)
    | split
    | dsimp only

theorem cplHead_frame (s : State) (ring : Fin 5) (v : Nat) : Frame [.rings, .ring4, .host] s (State.cplHead s ring v) := by
  unfold State.cplHead
  repeat' first
    | exact rfl
    | with_reducible apply Frame.refl
    | with_reducible apply Frame.step (badDoorbell_frame _)
    | with_reducible apply Frame.step (onRing4_frame _ _)
    | with_reducible apply Frame.step (onRing_frame _ _ _)
    | split
    | dsimp only

theorem cmdTailTo_frame (s : State) (v : Nat) : Frame [.host] s (State.cmdTailTo s v) := by
  unfold State.cmdTailTo
  repeat' first
    | exact rfl
    | with_reducible apply Frame.refl
    | with_reducible apply Frame.step (badDoorbell_frame _)
    | with_reducible apply Frame.step (onHost_frame _ _ ?_)
    | split
    | (intro _ h; exact h)
    | (intro h; exact h)
    | dsimp only

theorem setMarkers_frame (s : State) (c : Fin 2) (mask n : Nat) : Frame [.stim] s (State.setMarkers s c mask n) := by
  unfold State.setMarkers
  repeat' first
    | exact rfl
    | with_reducible apply Frame.refl
    | with_reducible apply Frame.step (onStim_frame _ _)
    | split
    | dsimp only

theorem endChannel_frame (s : State) (c : Fin 2) (why : LastEnd) (n : Nat) : Frame [.events, .stim, .grove, .link] s (State.endChannel s c why n) := by
  unfold State.endChannel
  repeat' first
    | exact rfl
    | with_reducible apply Frame.refl
    | with_reducible apply Frame.step (setMarkers_frame _ _ _ _)
    | with_reducible apply Frame.step (raiseAt_frame _ _ _)
    | with_reducible apply Frame.step (onCh_frame _ _ _)
    | split
    | dsimp only

theorem underrunFrom_frame (s : State) (c : Fin 2) (n : Nat) : Frame [.events, .stim, .grove, .link] s (State.underrunFrom s c n) := by
  unfold State.underrunFrom
  repeat' first
    | exact rfl
    | with_reducible apply Frame.refl
    | with_reducible apply Frame.step (setMarkers_frame _ _ _ _)
    | with_reducible apply Frame.step (raiseAt_frame _ _ _)
    | with_reducible apply Frame.step (onCh_frame _ _ _)
    | split
    | dsimp only

theorem endIteration_frame (s : State) (c : Fin 2) (n : Nat) : Frame [.stim] s (State.endIteration s c n) := by
  unfold State.endIteration
  repeat' first
    | exact rfl
    | with_reducible apply Frame.refl
    | with_reducible apply Frame.step (onCh_frame _ _ _)
    | with_reducible apply Frame.step (onStim_frame _ _)
    | split
    | dsimp only

theorem beginIteration_frame (s : State) (c : Fin 2) (d : Decision) : Frame [.events, .stim, .grove, .link] s (State.beginIteration s c d) := by
  unfold State.beginIteration
  repeat' first
    | exact rfl
    | with_reducible apply Frame.refl
    | with_reducible apply Frame.step (underrunFrom_frame _ _ _)
    | with_reducible apply Frame.step (raiseAt_frame _ _ _)
    | with_reducible apply Frame.step (onCh_frame _ _ _)
    | split
    | dsimp only

theorem decideBoundary_frame (s : State) (c : Fin 2) : Frame [.stim] s (State.decideBoundary s c) := by
  unfold State.decideBoundary
  repeat' first
    | exact rfl
    | with_reducible apply Frame.refl
    | with_reducible apply Frame.step (onCh_frame _ _ _)
    | split
    | dsimp only

theorem decisionPoint_frame (s : State) (c : Fin 2) : Frame [.stim] s (State.decisionPoint s c) := by
  unfold State.decisionPoint
  repeat' first
    | exact rfl
    | with_reducible apply Frame.refl
    | with_reducible apply Frame.step (decideBoundary_frame _ _)
    | with_reducible apply Frame.step (onCh_frame _ _ _)
    | split
    | dsimp only

theorem startInstant_frame (s : State) (c : Fin 2) : Frame [.events, .stim, .grove, .link] s (State.startInstant s c) := by
  unfold State.startInstant
  repeat' first
    | exact rfl
    | with_reducible apply Frame.refl
    | with_reducible apply Frame.step (beginIteration_frame _ _ _)
    | with_reducible apply Frame.step (onCh_frame _ _ _)
    | split
    | dsimp only

theorem boundary_frame (s0 : State) (c : Fin 2) : Frame [.events, .stim, .grove, .link] s0 (State.boundary s0 c) := by
  unfold State.boundary
  repeat' first
    | exact rfl
    | with_reducible apply Frame.refl
    | with_reducible apply Frame.step (decideBoundary_frame _ _)
    | with_reducible apply Frame.step (beginIteration_frame _ _ _)
    | with_reducible apply Frame.step (endIteration_frame _ _ _)
    | with_reducible apply Frame.step (endChannel_frame _ _ _ _)
    | with_reducible apply Frame.step (onCh_frame _ _ _)
    | split
    | dsimp only

theorem entryEffect_frame (s : State) (c : Fin 2) (starved : Bool) : Frame [.events, .stim, .grove, .link] s (State.entryEffect s c starved) := by
  unfold State.entryEffect
  repeat' first
    | exact rfl
    | with_reducible apply Frame.refl
    | with_reducible apply Frame.step (underrunFrom_frame _ _ _)
    | with_reducible apply Frame.step (setMarkers_frame _ _ _ _)
    | with_reducible apply Frame.step (raiseAt_frame _ _ _)
    | with_reducible apply Frame.step (onCh_frame _ _ _)
    | with_reducible apply Frame.step (onStim_frame _ _)
    | split
    | dsimp only

theorem stopRampStart_frame (s : State) (c : Fin 2) : Frame [.stim] s (State.stopRampStart s c) := by
  unfold State.stopRampStart
  repeat' first
    | exact rfl
    | with_reducible apply Frame.refl
    | with_reducible apply Frame.step (setMarkers_frame _ _ _ _)
    | with_reducible apply Frame.step (onCh_frame _ _ _)
    | split
    | dsimp only

theorem stopRampEnd_frame (s : State) (c : Fin 2) : Frame [.events, .stim, .grove, .link] s (State.stopRampEnd s c) := by
  unfold State.stopRampEnd
  repeat' first
    | exact rfl
    | with_reducible apply Frame.refl
    | with_reducible apply Frame.step (endChannel_frame _ _ _ _)
    | split
    | dsimp only

theorem muteRampEnd_frame (s : State) (c : Fin 2) : Frame [.stim] s (State.muteRampEnd s c) := by
  unfold State.muteRampEnd
  repeat' first
    | exact rfl
    | with_reducible apply Frame.refl
    | with_reducible apply Frame.step (onCh_frame _ _ _)
    | split
    | dsimp only

theorem stimClockLost_frame (s : State) (tick : Nat) : Frame [.events, .stim, .grove, .link] s (State.stimClockLost s tick) := by
  unfold State.stimClockLost
  repeat' first
    | exact rfl
    | with_reducible apply Frame.refl
    | with_reducible apply Frame.step (endChannel_frame _ _ _ _)
    | with_reducible apply Frame.step (onCh_frame _ _ _)
    | with_reducible apply Frame.each
    | split
    | intro _ _
    | dsimp only

theorem seqRefused_frame (s : State) : Frame [.stim] s (State.seqRefused s) := by
  unfold State.seqRefused
  repeat' first
    | exact rfl
    | with_reducible apply Frame.refl
    | with_reducible apply Frame.step (onStim_frame _ _)
    | split
    | dsimp only

theorem readbackDone_frame (s : State) : Frame [.mem, .ring4, .paths, .host, .fw, .stim, .grove, .link, .freeCount] s (State.readbackDone s) := by
  unfold State.readbackDone
  repeat' first
    | exact rfl
    | with_reducible apply Frame.refl
    | with_reducible apply Frame.step (fwpRead_frame _ _ _)
    | with_reducible apply Frame.step (finish_frame _ _ _)
    | with_reducible apply Frame.step (onStim_frame _ _)
    | with_reducible apply Frame.fold
    | with_reducible apply Frame.foldPair
    | split
    | intro _ _
    | dsimp only

theorem seqIdle_frame (s : State) : Frame [.stim] s (State.seqIdle s) := by
  unfold State.seqIdle
  repeat' first
    | exact rfl
    | with_reducible apply Frame.refl
    | with_reducible apply Frame.step (onStim_frame _ _)
    | split
    | dsimp only

theorem seqEnabled_frame (s : State) : Frame [.ring4, .paths, .host, .fw, .stim, .grove, .link] s (State.seqEnabled s) := by
  unfold State.seqEnabled
  repeat' first
    | exact rfl
    | with_reducible apply Frame.refl
    | with_reducible apply Frame.step (seqIdle_frame _)
    | with_reducible apply Frame.step (finish_frame _ _ _)
    | split
    | dsimp only

theorem stopNow_frame (s : State) (c : Fin 2) : Frame [.stim] s (State.stopNow s c).1 := by
  unfold State.stopNow
  repeat' first
    | exact rfl
    | with_reducible apply Frame.refl
    | with_reducible apply Frame.step (onCh_frame _ _ _)
    | split
    | dsimp only

theorem stopBoundary_frame (s : State) (c : Fin 2) : Frame [.stim] s (State.stopBoundary s c).1 := by
  unfold State.stopBoundary
  repeat' first
    | exact rfl
    | with_reducible apply Frame.refl
    | with_reducible apply Frame.step (stopNow_frame _ _)
    | with_reducible apply Frame.step (onCh_frame _ _ _)
    | split
    | dsimp only

theorem stopBoth_frame {ps : List Part} {s : State} (b : Bytes) (f : State → Fin 2 → State × Nat) (hf : ∀ s c, Frame ps s (f s c).1) :
    Frame ps s (stopBoth b f s).1 := by
  unfold stopBoth; dsimp only
  repeat' first
    | with_reducible apply Frame.refl
    | exact hf _ _
    | exact Frame.step (hf _ _) (partsIn_self ps) (hf _ _)
    | split

theorem windowResult_frame (s : State) (n : Fin 8) (v : Conversion) : Frame [.units, .tagged, .events, .mon, .grove, .link] s (State.windowResult s n v) := by
  unfold State.windowResult
  repeat' first
    | exact rfl
    | with_reducible apply Frame.refl
    | with_reducible apply Frame.step (tag_frame _ _)
    | with_reducible apply Frame.step (raiseAt_frame _ _ _)
    | with_reducible apply Frame.step (onMon_frame _ _ ?_)
    | split
    | (intro _ h; exact h)
    | (intro h; exact h)
    | dsimp only

theorem softwareResult_frame (s : State) (r : Fin 3) (v : Conversion) : Frame [.mon] s (State.softwareResult s r v) := by
  unfold State.softwareResult
  repeat' first
    | exact rfl
    | with_reducible apply Frame.refl
    | with_reducible apply Frame.step (onMon_frame _ _ ?_)
    | split
    | (intro _ h; exact h)
    | (intro h; exact h)
    | dsimp only

theorem countConversion_frame (s : State) : Frame [.mon] s (State.countConversion s) := by
  unfold State.countConversion
  repeat' first
    | exact rfl
    | with_reducible apply Frame.refl
    | with_reducible apply Frame.step (onMon_frame _ _ ?_)
    | split
    | (intro _ h; exact h)
    | (intro h; exact h)
    | dsimp only

theorem slotEnd_frame (s : State) (slot : Fin 16) (code : Nat) (ovr : Bool) : Frame [.units, .tagged, .events, .mon, .grove, .link] s (State.slotEnd s slot code ovr).1 := by
  unfold State.slotEnd
  repeat' first
    | exact rfl
    | with_reducible apply Frame.refl
    | (intro h; exact decide_eq_true (Nat.mod_lt _ (by decide)))
    | with_reducible apply Frame.step (countConversion_frame _)
    | with_reducible apply Frame.step (softwareResult_frame _ _ _)
    | with_reducible apply Frame.step (windowResult_frame _ _ _)
    | with_reducible apply Frame.step (onMon_frame _ _ ?_)
    | split
    | (intro _ h; exact h)
    | (intro h; exact h)
    | dsimp only

theorem monCtrl_frame (s : State) (r : Fin 3) (value : Nat) : Frame [.mon] s (State.monCtrl s r value) := by
  unfold State.monCtrl
  repeat' first
    | exact rfl
    | with_reducible apply Frame.refl
    | with_reducible apply Frame.step (onMon_frame _ _ ?_)
    | split
    | (intro _ h; exact h)
    | (intro h; exact h)
    | dsimp only

theorem toReset_frame (s : State) : Frame [.board, .clock, .inputs, .quads, .banks, .cal, .units, .tagged, .decided, .evaluated, .groups, .accs, .trigouts, .mem, .rings, .ring4, .paths, .host, .events, .fw, .shadows, .stim, .mon, .grove] s (State.toReset s) :=
  ⟨rfl, rfl, Nat.le_refl _, fun _ => rfl, by intro p h; cases p <;> first | exact absurd h (by decide) | exact rfl⟩

theorem leaveReset_frame (s : State) : Frame [.board] s (State.leaveReset s) := by
  unfold State.leaveReset
  repeat' first
    | exact rfl
    | with_reducible apply Frame.refl
    | with_reducible apply Frame.step (onBoard_frame _ _)
    | split
    | dsimp only

theorem cutDeferred_frame (s : State) : Frame [.clock, .quads, .cal, .mem, .grove] s (State.cutDeferred s) := by
  unfold State.cutDeferred
  repeat' first
    | exact rfl
    | with_reducible apply Frame.refl
    | with_reducible apply Frame.step (allQuads_frame _ _)
    | with_reducible apply Frame.step (onPort_frame _ _ _)
    | with_reducible apply Frame.step (onCal_frame _ _ ?_)
    | with_reducible apply Frame.step (onMem_frame _ _ ?_)
    | with_reducible apply Frame.step (onClock_frame _ _)
    | with_reducible apply Frame.each
    | split
    | (intro _ h; exact h)
    | (intro h; exact h)
    | (intro m h; exact put_wf _ _ _ h)
    | intro _ _
    | dsimp only

theorem intoFault_frame (s : State) : Frame [.board, .clock, .quads, .cal, .mem, .ring4, .paths, .host, .fw, .grove, .link] s (State.intoFault s) := by
  unfold State.intoFault
  repeat' first
    | exact rfl
    | with_reducible apply Frame.refl
    | with_reducible apply Frame.step (cutDeferred_frame _)
    | with_reducible apply Frame.step (returnAll_frame _)
    | with_reducible apply Frame.step (scheduleStop_frame _)
    | with_reducible apply Frame.step (failHeld_frame _ _)
    | with_reducible apply Frame.step (onFw_frame _ _ ?_)
    | with_reducible apply Frame.step (onBoard_frame _ _)
    | split
    | (intro _ h; exact h)
    | (intro h; exact h)
    | dsimp only

theorem thermal_frame (s : State) (therm : Bool) : Frame [.board] s (State.thermal s therm) := by
  unfold State.thermal
  repeat' first
    | exact rfl
    | with_reducible apply Frame.refl
    | with_reducible apply Frame.step (onBoard_frame _ _)
    | split
    | dsimp only

theorem bootFail_frame (s : State) (reason obj : Nat) : Frame [.board, .clock, .quads, .cal, .mem, .ring4, .paths, .host, .fw, .grove, .link] s (State.bootFail s reason obj) := by
  unfold State.bootFail
  repeat' first
    | exact rfl
    | with_reducible apply Frame.refl
    | with_reducible apply Frame.step (intoFault_frame _)
    | with_reducible apply Frame.step (onBoard_frame _ _)
    | split
    | dsimp only

theorem fatal_frame (s : State) (reason obj : Nat) (therm call : Bool) : Frame [.board, .clock, .quads, .cal, .mem, .ring4, .paths, .host, .events, .fw, .grove, .link] s (State.fatal s reason obj therm call) := by
  unfold State.fatal
  repeat' first
    | exact rfl
    | with_reducible apply Frame.refl
    | with_reducible apply Frame.step (bootFail_frame _ _ _)
    | with_reducible apply Frame.step (thermal_frame _ _)
    | with_reducible apply Frame.step (intoFault_frame _)
    | with_reducible apply Frame.step (raise_frame _ _)
    | with_reducible apply Frame.step (onEvents_frame _ _ ?_)
    | with_reducible apply Frame.step (onBoard_frame _ _)
    | split
    | (intro _ h; exact h)
    | (intro h; exact h)
    | dsimp only

theorem bootBit_frame (s : State) (n : Nat) : Frame [.board] s (State.bootBit s n) := by
  unfold State.bootBit
  repeat' first
    | exact rfl
    | with_reducible apply Frame.refl
    | with_reducible apply Frame.step (onBoard_frame _ _)
    | split
    | dsimp only

theorem noteReady_frame (s : State) : Frame [.board] s (State.noteReady s) := by
  unfold State.noteReady
  repeat' first
    | exact rfl
    | with_reducible apply Frame.refl
    | with_reducible apply Frame.step (onBoard_frame _ _)
    | split
    | dsimp only

theorem abandonSelf_frame (s : State) : Frame [.cal] s (State.abandonSelf s) := by
  unfold State.abandonSelf
  repeat' first
    | exact rfl
    | with_reducible apply Frame.refl
    | with_reducible apply Frame.step (onCal_frame _ _ ?_)
    | split
    | (intro _ h; exact h)
    | (intro h; exact h)
    | dsimp only

theorem clocksStopped_frame (s : State) (tick : Nat) : Frame [.clock, .inputs, .quads, .cal, .units, .tagged, .decided, .evaluated, .groups, .accs, .trigouts, .mem, .rings, .events, .stim, .grove, .link, .freeCount] s (State.clocksStopped s tick) := by
  unfold State.clocksStopped
  repeat' first
    | exact rfl
    | with_reducible apply Frame.refl
    | with_reducible apply Frame.step (abandonSelf_frame _)
    | with_reducible apply Frame.step (stimClockLost_frame _ _)
    | with_reducible apply Frame.step (abortRun_frame _)
    | with_reducible apply Frame.step (decideTo_frame _ _)
    | with_reducible apply Frame.step (endGroup_frame _ _ _ _ _)
    | with_reducible apply Frame.step (endSlew_frame _ _)
    | with_reducible apply Frame.step (allQuads_frame _ _)
    | with_reducible apply Frame.each
    | split
    | intro _ _
    | dsimp only

theorem sayHello_frame (s : State) : Frame [.grove] s (State.sayHello s) := by
  unfold State.sayHello
  repeat' first
    | exact rfl
    | with_reducible apply Frame.refl
    | with_reducible apply Frame.step (onPort_frame _ _ _)
    | with_reducible apply Frame.each
    | split
    | intro _ _
    | dsimp only

theorem sendDown_frame (s : State) (l : LinkMsg) : Frame [.grove] s (State.sendDown s l) := by
  unfold State.sendDown
  repeat' first
    | exact rfl
    | with_reducible apply Frame.refl
    | with_reducible apply Frame.step (onPort_frame _ _ _)
    | with_reducible apply Frame.each
    | split
    | intro _ _
    | dsimp only

theorem endRange_frame (s : State) (p : Fin 5) : Frame [.events, .grove, .link] s (State.endRange s p) := by
  unfold State.endRange
  repeat' first
    | exact rfl
    | with_reducible apply Frame.refl
    | with_reducible apply Frame.step (raise_frame _ _)
    | with_reducible apply Frame.step (onPort_frame _ _ _)
    | with_reducible apply Frame.each
    | split
    | intro _ _
    | dsimp only

theorem portDown_frame (s : State) (p : Fin 5) (since : Nat) : Frame [.events, .grove, .link] s (State.portDown s p since) := by
  unfold State.portDown
  repeat' first
    | exact rfl
    | with_reducible apply Frame.refl
    | with_reducible apply Frame.step (endRange_frame _ _)
    | with_reducible apply Frame.step (raise_frame _ _)
    | with_reducible apply Frame.step (onPort_frame _ _ _)
    | split
    | dsimp only

theorem portUp_frame (s : State) (p : Fin 5) : Frame [.events, .grove, .link] s (State.portUp s p) := by
  unfold State.portUp
  repeat' first
    | exact rfl
    | with_reducible apply Frame.refl
    | with_reducible apply Frame.step (raise_frame _ _)
    | with_reducible apply Frame.step (onPort_frame _ _ _)
    | split
    | dsimp only

theorem laneLock_frame (s : State) (p : Fin 5) (lane : Fin 4) : Frame [.grove] s (State.laneLock s p lane) := by
  unfold State.laneLock
  repeat' first
    | exact rfl
    | with_reducible apply Frame.refl
    | with_reducible apply Frame.step (sayHello_frame _)
    | with_reducible apply Frame.step (onPort_frame _ _ _)
    | split
    | dsimp only

theorem retrained_frame (s : State) (p : Fin 5) : Frame [.events, .grove, .link] s (State.retrained s p) := by
  unfold State.retrained
  repeat' first
    | exact rfl
    | with_reducible apply Frame.refl
    | with_reducible apply Frame.step (portUp_frame _ _)
    | with_reducible apply Frame.step (sayHello_frame _)
    | with_reducible apply Frame.step (onPort_frame _ _ _)
    | split
    | dsimp only

theorem replayBlocks_frame (s : State) (p : Fin 5) : Frame [.events, .grove, .link] s (State.replayBlocks s p) := by
  unfold State.replayBlocks
  repeat' first
    | exact rfl
    | with_reducible apply Frame.refl
    | with_reducible apply Frame.step (portDown_frame _ _ _)
    | with_reducible apply Frame.step (onPort_frame _ _ _)
    | split
    | dsimp only

theorem blockIn_frame (s : State) (p : Fin 5) (b : Bytes) : Frame [.events, .grove, .link] s (State.blockIn s p b) := by
  unfold State.blockIn
  repeat' first
    | exact rfl
    | with_reducible apply Frame.refl
    | with_reducible apply Frame.step (replayBlocks_frame _ _)
    | with_reducible apply Frame.step (onPort_frame _ _ _)
    | split
    | dsimp only

theorem passOn_frame (s : State) (p : Fin 5) (buffers : Nat) : Frame [.grove] s (State.passOn s p buffers) := by
  unfold State.passOn
  repeat' first
    | exact rfl
    | with_reducible apply Frame.refl
    | with_reducible apply Frame.step (onPort_frame _ _ _)
    | split
    | dsimp only

theorem saplingDrop_frame (s : State) : Frame [.grove] s (State.saplingDrop s) := by
  unfold State.saplingDrop
  repeat' first
    | exact rfl
    | with_reducible apply Frame.refl
    | with_reducible apply Frame.step (onGrove_frame _ _)
    | split
    | dsimp only

theorem ageDrop_frame (s : State) : Frame [.grove] s (State.ageDrop s) := by
  unfold State.ageDrop
  repeat' first
    | exact rfl
    | with_reducible apply Frame.refl
    | with_reducible apply Frame.step (onGrove_frame _ _)
    | split
    | dsimp only

theorem takePacket_frame (s : State) (m : Msg) : Frame [.ring4, .paths, .host, .fw, .grove, .link] s (State.takePacket s m) := by
  unfold State.takePacket
  repeat' first
    | exact rfl
    | with_reducible apply Frame.refl
    | with_reducible apply Frame.step (saplingDrop_frame _)
    | with_reducible apply Frame.step (receiveBytes_frame _ _ _ _ _)
    | split
    | dsimp only

theorem unicast_frame (s : State) (p : Fin 5) : Frame [.ring4, .paths, .host, .fw, .grove, .link] s (State.unicast s p) := by
  unfold State.unicast
  repeat' first
    | exact rfl
    | with_reducible apply Frame.refl
    | with_reducible apply Frame.step (takePacket_frame _ _)
    | with_reducible apply Frame.step (ageDrop_frame _)
    | with_reducible apply Frame.step (saplingDrop_frame _)
    | with_reducible apply Frame.step (passOn_frame _ _ _)
    | with_reducible apply Frame.step (sendOn_frame _ _ _)
    | with_reducible apply Frame.step (onGrove_frame _ _)
    | split
    | dsimp only

theorem floodIn_frame (s : State) (p : Fin 5) : Frame [.ring4, .paths, .host, .fw, .grove, .link] s (State.floodIn s p) := by
  unfold State.floodIn
  repeat' first
    | exact rfl
    | with_reducible apply Frame.refl
    | with_reducible apply Frame.step (takePacket_frame _ _)
    | with_reducible apply Frame.step (ageDrop_frame _)
    | with_reducible apply Frame.step (saplingDrop_frame _)
    | with_reducible apply Frame.step (passOn_frame _ _ _)
    | with_reducible apply Frame.step (flood_frame _ _)
    | split
    | dsimp only

theorem pathIn_frame (s : State) (p : Fin 5) : Frame [.ring4, .paths, .host, .fw, .grove, .link] s (State.pathIn s p) := by
  unfold State.pathIn
  repeat' first
    | exact rfl
    | with_reducible apply Frame.refl
    | with_reducible apply Frame.step (takePacket_frame _ _)
    | with_reducible apply Frame.step (ageDrop_frame _)
    | with_reducible apply Frame.step (passOn_frame _ _ _)
    | with_reducible apply Frame.step (sendOn_frame _ _ _)
    | split
    | dsimp only

theorem writeRemote_frame (s : State) (pkt : Bytes) : Frame [.ring4, .events] s (State.writeRemote s pkt) := by
  unfold State.writeRemote
  repeat' first
    | exact rfl
    | with_reducible apply Frame.refl
    | (intro h; exact enter_wf _ _ h)
    | with_reducible apply Frame.step (toRing4_frame _ _)
    | with_reducible apply Frame.step (onEvents_frame _ _ ?_)
    | split
    | (intro _ h; exact h)
    | (intro h; exact h)
    | dsimp only

theorem upIn_frame (s : State) (p : Fin 5) : Frame [.ring4, .events, .grove] s (State.upIn s p) := by
  unfold State.upIn
  repeat' first
    | exact rfl
    | with_reducible apply Frame.refl
    | with_reducible apply Frame.step (writeRemote_frame _ _)
    | with_reducible apply Frame.step (ageDrop_frame _)
    | with_reducible apply Frame.step (passOn_frame _ _ _)
    | with_reducible apply Frame.step (onPort_frame _ _ _)
    | with_reducible apply Frame.step (onGrove_frame _ _)
    | split
    | dsimp only

theorem ageExpiry_frame (s : State) (p : Fin 5) : Frame [.grove] s (State.ageExpiry s p) := by
  unfold State.ageExpiry
  repeat' first
    | exact rfl
    | with_reducible apply Frame.refl
    | with_reducible apply Frame.step (onPort_frame _ _ _)
    | with_reducible apply Frame.step (onGrove_frame _ _)
    | split
    | dsimp only

theorem clearBoughTags_frame (s : State) : Frame [.paths] s (State.clearBoughTags s) := by
  unfold State.clearBoughTags
  repeat' first
    | exact rfl
    | with_reducible apply Frame.refl
    | with_reducible apply Frame.step (onPath_frame _ _ _)
    | split
    | dsimp only

theorem enterOrphan_frame (s : State) (role : Role) : Frame [.events, .grove, .link] s (State.enterOrphan s role) := by
  unfold State.enterOrphan
  repeat' first
    | exact rfl
    | with_reducible apply Frame.refl
    | with_reducible apply Frame.step (raise_frame _ _)
    | with_reducible apply Frame.step (onGrove_frame _ _)
    | split
    | dsimp only

theorem leaveOrphan_frame (s : State) (role : Role) (epoch manager : Nat) : Frame [.paths, .events, .grove, .link] s (State.leaveOrphan s role epoch manager) := by
  unfold State.leaveOrphan
  repeat' first
    | exact rfl
    | with_reducible apply Frame.refl
    | with_reducible apply Frame.step (clearBoughTags_frame _)
    | with_reducible apply Frame.step (raise_frame _ _)
    | with_reducible apply Frame.step (onGrove_frame _ _)
    | split
    | dsimp only

theorem conflict_frame (s : State) (p : Fin 5) (theirs : Nat) : Frame [.events, .grove, .link] s (State.conflict s p theirs) := by
  unfold State.conflict
  repeat' first
    | exact rfl
    | with_reducible apply Frame.refl
    | with_reducible apply Frame.step (raise_frame _ _)
    | with_reducible apply Frame.step (onPort_frame _ _ _)
    | with_reducible apply Frame.step (onGrove_frame _ _)
    | split
    | dsimp only

theorem startRange_frame (s : State) (p : Fin 5) (tickets : List Nat) : Frame [.grove] s (State.startRange s p tickets) := by
  unfold State.startRange
  repeat' first
    | exact rfl
    | with_reducible apply Frame.refl
    | with_reducible apply Frame.step (onPort_frame _ _ _)
    | split
    | dsimp only

theorem judge_frame (s : State) (p : Fin 5) (l : LinkMsg) : Frame [.events, .grove, .link] s (State.judge s p l) := by
  unfold State.judge
  repeat' first
    | exact rfl
    | with_reducible apply Frame.refl
    | with_reducible apply Frame.step (startRange_frame _ _ _)
    | with_reducible apply Frame.step (conflict_frame _ _ _)
    | with_reducible apply Frame.step (onPort_frame _ _ _)
    | split
    | dsimp only

theorem rejudge_frame (s : State) : Frame [.events, .grove, .link] s (State.rejudge s) := by
  unfold State.rejudge
  repeat' first
    | exact rfl
    | with_reducible apply Frame.refl
    | with_reducible apply Frame.step (judge_frame _ _ _)
    | with_reducible apply Frame.each
    | split
    | intro _ _
    | dsimp only

theorem helloIn_frame (s : State) (p : Fin 5) : Frame [.events, .grove, .link] s (State.helloIn s p) := by
  unfold State.helloIn
  repeat' first
    | exact rfl
    | with_reducible apply Frame.refl
    | with_reducible apply Frame.step (judge_frame _ _ _)
    | with_reducible apply Frame.step (passOn_frame _ _ _)
    | with_reducible apply Frame.step (portUp_frame _ _)
    | with_reducible apply Frame.step (onPort_frame _ _ _)
    | split
    | dsimp only

theorem joinAccept_frame (s : State) (p : Fin 5) : Frame [.paths, .events, .grove, .link] s (State.joinAccept s p) := by
  unfold State.joinAccept
  repeat' first
    | exact rfl
    | with_reducible apply Frame.refl
    | with_reducible apply Frame.step (rejudge_frame _)
    | with_reducible apply Frame.step (leaveOrphan_frame _ _ _ _)
    | with_reducible apply Frame.step (passOn_frame _ _ _)
    | with_reducible apply Frame.step (sendDown_frame _ _)
    | with_reducible apply Frame.step (sayHello_frame _)
    | with_reducible apply Frame.step (onPort_frame _ _ _)
    | with_reducible apply Frame.step (onGrove_frame _ _)
    | split
    | dsimp only

theorem joinRefuse_frame (s : State) (p : Fin 5) : Frame [.events, .grove, .link] s (State.joinRefuse s p) := by
  unfold State.joinRefuse
  repeat' first
    | exact rfl
    | with_reducible apply Frame.refl
    | with_reducible apply Frame.step (conflict_frame _ _ _)
    | with_reducible apply Frame.step (passOn_frame _ _ _)
    | split
    | dsimp only

theorem orphanNotice_frame (s : State) (p : Fin 5) : Frame [.events, .grove, .link] s (State.orphanNotice s p) := by
  unfold State.orphanNotice
  repeat' first
    | exact rfl
    | with_reducible apply Frame.refl
    | with_reducible apply Frame.step (enterOrphan_frame _ _)
    | with_reducible apply Frame.step (passOn_frame _ _ _)
    | with_reducible apply Frame.step (sendDown_frame _ _)
    | with_reducible apply Frame.step (sayHello_frame _)
    | split
    | dsimp only

theorem epochSet_frame (s : State) (p : Fin 5) : Frame [.paths, .events, .grove, .link] s (State.epochSet s p) := by
  unfold State.epochSet
  repeat' first
    | exact rfl
    | with_reducible apply Frame.refl
    | with_reducible apply Frame.step (rejudge_frame _)
    | with_reducible apply Frame.step (leaveOrphan_frame _ _ _ _)
    | with_reducible apply Frame.step (enterOrphan_frame _ _)
    | with_reducible apply Frame.step (passOn_frame _ _ _)
    | with_reducible apply Frame.step (sendDown_frame _ _)
    | with_reducible apply Frame.step (sayHello_frame _)
    | with_reducible apply Frame.step (onGrove_frame _ _)
    | split
    | dsimp only

theorem saplingSet_frame (s : State) (p : Fin 5) : Frame [.grove] s (State.saplingSet s p) := by
  unfold State.saplingSet
  repeat' first
    | exact rfl
    | with_reducible apply Frame.refl
    | with_reducible apply Frame.step (passOn_frame _ _ _)
    | with_reducible apply Frame.step (sendDown_frame _ _)
    | with_reducible apply Frame.step (sayHello_frame _)
    | with_reducible apply Frame.step (onGrove_frame _ _)
    | split
    | dsimp only

theorem orphanTimeout_frame (s : State) : Frame [.events, .grove, .link] s (State.orphanTimeout s) := by
  unfold State.orphanTimeout
  repeat' first
    | exact rfl
    | with_reducible apply Frame.refl
    | with_reducible apply Frame.step (enterOrphan_frame _ _)
    | with_reducible apply Frame.step (sendDown_frame _ _)
    | with_reducible apply Frame.step (sayHello_frame _)
    | with_reducible apply Frame.step (onPort_frame _ _ _)
    | with_reducible apply Frame.each
    | split
    | intro _ _
    | dsimp only

theorem saplingTimeout_frame (s : State) : Frame [.events, .grove, .link] s (State.saplingTimeout s) := by
  unfold State.saplingTimeout
  repeat' first
    | exact rfl
    | with_reducible apply Frame.refl
    | with_reducible apply Frame.step (rejudge_frame _)
    | with_reducible apply Frame.step (sayHello_frame _)
    | with_reducible apply Frame.step (onGrove_frame _ _)
    | split
    | dsimp only

theorem frameIn_frame (s : State) (p : Fin 5) (pseq : Nat) : Frame [.grove] s (State.frameIn s p pseq).1 := by
  unfold State.frameIn
  repeat' first
    | exact rfl
    | with_reducible apply Frame.refl
    | with_reducible apply Frame.step (onPort_frame _ _ _)
    | split
    | dsimp only

theorem frameOut_frame (s : State) (p : Fin 5) (f : PFrame) : Frame [.grove] s (State.frameOut s p f) := by
  unfold State.frameOut
  repeat' first
    | exact rfl
    | with_reducible apply Frame.refl
    | with_reducible apply Frame.step (onPort_frame _ _ _)
    | split
    | dsimp only

theorem packIn_frame (s : State) (p : Fin 5) (pseq : Nat) : Frame [.grove] s (State.packIn s p pseq) := by
  unfold State.packIn
  repeat' first
    | exact rfl
    | with_reducible apply Frame.refl
    | with_reducible apply Frame.step (onPort_frame _ _ _)
    | split
    | dsimp only

theorem resendFrame_frame (s : State) (p : Fin 5) : Frame [.events, .grove, .link] s (State.resendFrame s p) := by
  unfold State.resendFrame
  repeat' first
    | exact rfl
    | with_reducible apply Frame.refl
    | with_reducible apply Frame.step (portDown_frame _ _ _)
    | with_reducible apply Frame.step (onPort_frame _ _ _)
    | split
    | dsimp only

theorem groveTrigger_frame (s : State) (origin tick fraction gtn : Nat) : Frame [.inputs, .units, .tagged, .decided, .evaluated, .groups, .accs, .trigouts, .mem, .rings, .events, .stim, .grove, .link, .freeCount] s (State.groveTrigger s origin tick fraction gtn) := by
  unfold State.groveTrigger
  repeat' first
    | exact rfl
    | with_reducible apply Frame.refl
    | with_reducible apply Frame.step (decideTo_frame _ _)
    | with_reducible apply Frame.step (deliver_frame _ _ _)
    | with_reducible apply Frame.step (groveGroup_frame _ _ _ _)
    | with_reducible apply Frame.step (onGrove_frame _ _)
    | with_reducible apply Frame.each
    | split
    | intro _ _
    | dsimp only

theorem broadcastDown_frame (s : State) (origin tick fraction gtn : Nat) : Frame [.grove] s (State.broadcastDown s origin tick fraction gtn) := by
  unfold State.broadcastDown
  repeat' first
    | exact rfl
    | with_reducible apply Frame.refl
    | with_reducible apply Frame.step (frameOut_frame _ _ _)
    | with_reducible apply Frame.each
    | split
    | intro _ _
    | dsimp only

theorem groveTriggerIn_frame (s : State) (pseq origin tick fraction gtn : Nat) : Frame [.inputs, .units, .tagged, .decided, .evaluated, .groups, .accs, .trigouts, .mem, .rings, .events, .stim, .grove, .link, .freeCount] s (State.groveTriggerIn s pseq origin tick fraction gtn) := by
  unfold State.groveTriggerIn
  repeat' first
    | exact rfl
    | with_reducible apply Frame.refl
    | with_reducible apply Frame.step (broadcastDown_frame _ _ _ _ _)
    | with_reducible apply Frame.step (groveTrigger_frame _ _ _ _ _)
    | with_reducible apply Frame.step (frameIn_frame _ _ _)
    | split
    | dsimp only

theorem requestIn_frame (s : State) (p : Fin 5) (pseq origin tick fraction : Nat) : Frame [.grove] s (State.requestIn s p pseq origin tick fraction) := by
  unfold State.requestIn
  repeat' first
    | exact rfl
    | with_reducible apply Frame.refl
    | with_reducible apply Frame.step (frameIn_frame _ _ _)
    | with_reducible apply Frame.step (onGrove_frame _ _)
    | split
    | dsimp only

theorem groveBroadcast_frame (s : State) : Frame [.inputs, .units, .tagged, .decided, .evaluated, .groups, .accs, .trigouts, .mem, .rings, .events, .stim, .grove, .link, .freeCount] s (State.groveBroadcast s) := by
  unfold State.groveBroadcast
  repeat' first
    | exact rfl
    | with_reducible apply Frame.refl
    | with_reducible apply Frame.step (broadcastDown_frame _ _ _ _ _)
    | with_reducible apply Frame.step (groveTrigger_frame _ _ _ _ _)
    | with_reducible apply Frame.step (onGrove_frame _ _)
    | split
    | dsimp only

theorem requestForward_frame (s : State) : Frame [.grove] s (State.requestForward s) := by
  unfold State.requestForward
  repeat' first
    | exact rfl
    | with_reducible apply Frame.refl
    | with_reducible apply Frame.step (frameOut_frame _ _ _)
    | with_reducible apply Frame.step (onGrove_frame _ _)
    | split
    | dsimp only

theorem rangeExchange_frame (s : State) (p : Fin 5) : Frame [.grove] s (State.rangeExchange s p) := by
  unfold State.rangeExchange
  repeat' first
    | exact rfl
    | with_reducible apply Frame.refl
    | with_reducible apply Frame.step (frameOut_frame _ _ _)
    | with_reducible apply Frame.step (onPort_frame _ _ _)
    | split
    | dsimp only

theorem rangeReq_frame (s : State) (pseq t1 t1frac number arrival turnaround : Nat) : Frame [.grove] s (State.rangeReq s pseq t1 t1frac number arrival turnaround) := by
  unfold State.rangeReq
  repeat' first
    | exact rfl
    | with_reducible apply Frame.refl
    | with_reducible apply Frame.step (frameOut_frame _ _ _)
    | with_reducible apply Frame.step (frameIn_frame _ _ _)
    | with_reducible apply Frame.step (onGrove_frame _ _)
    | split
    | dsimp only

theorem rangeReply_frame (s : State) (p : Fin 5) (pseq turnaround arrival : Nat) : Frame [.grove] s (State.rangeReply s p pseq turnaround arrival) := by
  unfold State.rangeReply
  repeat' first
    | exact rfl
    | with_reducible apply Frame.refl
    | with_reducible apply Frame.step (frameIn_frame _ _ _)
    | with_reducible apply Frame.step (onPort_frame _ _ _)
    | split
    | dsimp only

theorem rangeComplete_frame (s : State) (p : Fin 5) : Frame [.events, .grove, .link] s (State.rangeComplete s p) := by
  unfold State.rangeComplete
  repeat' first
    | exact rfl
    | with_reducible apply Frame.refl
    | with_reducible apply Frame.step (frameOut_frame _ _ _)
    | with_reducible apply Frame.step (raise_frame _ _)
    | with_reducible apply Frame.step (onPort_frame _ _ _)
    | with_reducible apply Frame.each
    | split
    | intro _ _
    | dsimp only

theorem track_frame (s : State) : Frame [.clock, .events, .grove, .link] s (State.track s) := by
  unfold State.track
  repeat' first
    | exact rfl
    | with_reducible apply Frame.refl
    | with_reducible apply Frame.step (startSlew_frame _ _ _ _ _)
    | with_reducible apply Frame.step (raise_frame _ _)
    | with_reducible apply Frame.step (onGrove_frame _ _)
    | split
    | dsimp only

theorem rangeResult_frame (s : State) (pseq mean : Nat) : Frame [.clock, .events, .grove, .link] s (State.rangeResult s pseq mean) := by
  unfold State.rangeResult
  repeat' first
    | exact rfl
    | with_reducible apply Frame.refl
    | with_reducible apply Frame.step (track_frame _)
    | with_reducible apply Frame.step (frameIn_frame _ _ _)
    | with_reducible apply Frame.step (raise_frame _ _)
    | with_reducible apply Frame.step (onGrove_frame _ _)
    | split
    | dsimp only

theorem trackingRange_frame (s : State) (p : Fin 5) : Frame [.grove] s (State.trackingRange s p) := by
  unfold State.trackingRange
  repeat' first
    | exact rfl
    | with_reducible apply Frame.refl
    | with_reducible apply Frame.step (startRange_frame _ _ _)
    | split
    | dsimp only

theorem assign_frame (s : State) (b : Bytes) (source : Nat) : Frame [.paths, .events, .grove, .link] s (State.assign s b source) := by
  unfold State.assign
  repeat' first
    | exact rfl
    | with_reducible apply Frame.refl
    | with_reducible apply Frame.step (rejudge_frame _)
    | with_reducible apply Frame.step (clearBoughTags_frame _)
    | with_reducible apply Frame.step (sayHello_frame _)
    | with_reducible apply Frame.step (onGrove_frame _ _)
    | split
    | dsimp only

theorem promote_frame (s : State) : Frame [.paths, .events, .grove, .link] s (State.promote s) := by
  unfold State.promote
  repeat' first
    | exact rfl
    | with_reducible apply Frame.refl
    | with_reducible apply Frame.step (rejudge_frame _)
    | with_reducible apply Frame.step (leaveOrphan_frame _ _ _ _)
    | with_reducible apply Frame.step (sendDown_frame _ _)
    | with_reducible apply Frame.step (sayHello_frame _)
    | with_reducible apply Frame.step (onGrove_frame _ _)
    | split
    | dsimp only

theorem demote_frame (s : State) : Frame [.events, .grove, .link] s (State.demote s) := by
  unfold State.demote
  repeat' first
    | exact rfl
    | with_reducible apply Frame.refl
    | with_reducible apply Frame.step (enterOrphan_frame _ _)
    | with_reducible apply Frame.step (sendDown_frame _ _)
    | with_reducible apply Frame.step (sayHello_frame _)
    | with_reducible apply Frame.step (onGrove_frame _ _)
    | split
    | dsimp only

theorem clearValue_frame (s : State) (off : Nat) : Frame [.banks, .mem] s (State.clearValue s off) := by
  unfold State.clearValue
  repeat' first
    | exact rfl
    | with_reducible apply Frame.refl
    | with_reducible apply Frame.step (onMem_frame _ _ ?_)
    | with_reducible apply Frame.step (onBank_frame _ _ _)
    | split
    | (intro _ h; exact h)
    | (intro h; exact h)
    | (intro m h; exact put_wf _ _ _ h)
    | dsimp only

theorem clearWord_frame (s : State) (off : Nat) : Frame [.mem] s (State.clearWord s off) := by
  unfold State.clearWord
  repeat' first
    | exact rfl
    | with_reducible apply Frame.refl
    | with_reducible apply Frame.step (onMem_frame _ _ ?_)
    | split
    | (intro _ h; exact h)
    | (intro h; exact h)
    | (intro m h; exact put_wf _ _ _ h)
    | dsimp only

theorem returns_frame (s : State) (req : Requester) (v : Nat) : Frame [.readValues] s (State.returns s req v) :=
  ⟨rfl, rfl, Nat.le_refl _, fun h => h, by intro p h; cases p <;> first | exact absurd h (by decide) | exact rfl⟩

theorem onShadow_frame (s : State) (req : Requester) (f : Shadow → Shadow) : Frame [.shadows] s (State.onShadow s req f) :=
  ⟨rfl, rfl, Nat.le_refl _, fun h => h, by intro p h; cases p <;> first | exact absurd h (by decide) | exact rfl⟩

theorem readLow_frame (s : State) (req : Requester) (x : Nat) : Frame [.banks, .mem, .shadows, .readValues] s (State.readLow s req x) := by
  unfold State.readLow
  repeat' first
    | exact rfl
    | with_reducible apply Frame.refl
    | with_reducible apply Frame.step (onShadow_frame _ _ _)
    | with_reducible apply Frame.step (returns_frame _ _ _)
    | with_reducible apply Frame.step (clearValue_frame _ _)
    | split
    | dsimp only

theorem readHigh_frame (s : State) (req : Requester) (x : Nat) : Frame [.shadows, .readValues] s (State.readHigh s req x) := by
  unfold State.readHigh
  repeat' first
    | exact rfl
    | with_reducible apply Frame.refl
    | with_reducible apply Frame.step (onShadow_frame _ _ _)
    | with_reducible apply Frame.step (returns_frame _ _ _)
    | split
    | dsimp only

theorem read32_frame (s : State) (req : Requester) (off : Nat) : Frame [.banks, .mem, .shadows, .readValues] s (State.read32 s req off) := by
  unfold State.read32
  repeat' first
    | exact rfl
    | with_reducible apply Frame.refl
    | with_reducible apply Frame.step (readHigh_frame _ _ _)
    | with_reducible apply Frame.step (readLow_frame _ _ _)
    | with_reducible apply Frame.step (returns_frame _ _ _)
    | with_reducible apply Frame.step (clearWord_frame _ _)
    | split
    | dsimp only

theorem read64_frame (s : State) (req : Requester) (off : Nat) : Frame [.banks, .mem, .readValues] s (State.read64 s req off) := by
  unfold State.read64
  repeat' first
    | exact rfl
    | with_reducible apply Frame.refl
    | with_reducible apply Frame.step (returns_frame _ _ _)
    | with_reducible apply Frame.step (clearWord_frame _ _)
    | with_reducible apply Frame.step (clearValue_frame _ _)
    | split
    | dsimp only

theorem clearHalfOrder_frame (s : State) (req : Requester) (value : Nat) : Frame [.shadows] s (State.clearHalfOrder s req value) := by
  unfold State.clearHalfOrder
  repeat' first
    | exact rfl
    | with_reducible apply Frame.refl
    | with_reducible apply Frame.step (onShadow_frame _ _ _)
    | split
    | dsimp only

theorem bootDoorbell_frame (s : State) (len : Nat) : Frame [.ring4, .paths, .host, .fw, .grove, .link] s (State.bootDoorbell s len) := by
  unfold State.bootDoorbell
  repeat' first
    | exact rfl
    | with_reducible apply Frame.refl
    | with_reducible apply Frame.step (badDoorbell_frame _)
    | with_reducible apply Frame.step (receiveBytes_frame _ _ _ _ _)
    | with_reducible apply Frame.step (onHost_frame _ _ ?_)
    | split
    | (intro _ h; exact h)
    | (intro h; exact h)
    | dsimp only

theorem takeHeldBoot_frame (s : State) : Frame [.ring4, .paths, .host, .fw, .grove, .link] s (State.takeHeldBoot s) := by
  unfold State.takeHeldBoot
  repeat' first
    | exact rfl
    | with_reducible apply Frame.refl
    | with_reducible apply Frame.step (bootDoorbell_frame _ _)
    | with_reducible apply Frame.step (onHost_frame _ _ ?_)
    | split
    | (intro _ h; exact h)
    | (intro h; exact h)
    | dsimp only

theorem write32_frame (s : State) (req : Requester) (off v : Nat) : Frame [.rings, .ring4, .paths, .host, .fw, .shadows, .mon, .grove, .link] s (State.write32 s req off v) := by
  unfold State.write32
  repeat' first
    | exact rfl
    | with_reducible apply Frame.refl
    | (intro p h; exact packPut_wf _ _ _ h)
    | with_reducible apply Frame.step (bootDoorbell_frame _ _)
    | with_reducible apply Frame.step (clearHalfOrder_frame _ _ _)
    | with_reducible apply Frame.step (monCtrl_frame _ _ _)
    | with_reducible apply Frame.step (cmdTailTo_frame _ _)
    | with_reducible apply Frame.step (cplHead_frame _ _ _)
    | with_reducible apply Frame.step (descTail_frame _ _ _)
    | with_reducible apply Frame.step (badDoorbell_frame _)
    | with_reducible apply Frame.step (onHost_frame _ _ ?_)
    | split
    | (intro _ h; exact h)
    | (intro h; exact h)
    | dsimp only

theorem writeWindow_frame (s : State) (req : Requester) (off : Nat) (wide : Bool) (v : Nat) : Frame [.rings, .ring4, .paths, .host, .fw, .shadows, .mon, .grove, .link] s (State.writeWindow s req off wide v) := by
  unfold State.writeWindow
  repeat' first
    | exact rfl
    | with_reducible apply Frame.refl
    | with_reducible apply Frame.step (write32_frame _ _ _ _)
    | split
    | dsimp only

theorem applyReset_frame (s : State) : Frame [.board, .clock, .inputs, .quads, .banks, .cal, .units, .tagged, .decided, .evaluated, .groups, .accs, .trigouts, .mem, .rings, .ring4, .paths, .host, .events, .fw, .shadows, .stim, .mon, .grove] s (State.applyReset s) := by
  unfold State.applyReset
  repeat' first
    | exact rfl
    | with_reducible apply Frame.refl
    | with_reducible apply Frame.step (leaveReset_frame _)
    | with_reducible apply Frame.step (toReset_frame _)
    | split
    | dsimp only

theorem restoreSram_frame (s : State) (keep : Bool) : Frame [.fw] s (State.restoreSram s keep) := by
  unfold State.restoreSram
  repeat' first
    | exact rfl
    | with_reducible apply Frame.refl
    | (intro w h; simp only [Firmware.wf, Bool.and_eq_true] at h ⊢; first | exact ⟨⟨h.1.1, packWf_filter _ _ h.1.2⟩, h.2⟩ | exact ⟨⟨h.1.1, packWf_nil⟩, h.2⟩)
    | with_reducible apply Frame.step (putSram_frame _ _ _)
    | with_reducible apply Frame.step (onFw_frame _ _ ?_)
    | split
    | (intro _ h; exact h)
    | (intro h; exact h)
    | dsimp only

theorem startCores_frame (s : State) (a0 a1 : Nat) : Frame [.fw] s (State.startCores s a0 a1) := by
  unfold State.startCores
  repeat' first
    | exact rfl
    | with_reducible apply Frame.refl
    | with_reducible apply Frame.step (onFw_frame _ _ ?_)
    | split
    | (intro _ h; exact h)
    | (intro h; exact h)
    | dsimp only

theorem enterInit_frame (s : State) : Frame [.board, .clock, .mem, .fw] s (State.enterInit s) := by
  unfold State.enterInit
  repeat' first
    | exact rfl
    | with_reducible apply Frame.refl
    | with_reducible apply Frame.step (startCores_frame _ _ _)
    | with_reducible apply Frame.step (restoreSram_frame _ _)
    | with_reducible apply Frame.step (bootBit_frame _ _)
    | with_reducible apply Frame.step (startTraining_frame _ _)
    | with_reducible apply Frame.step (coldLock_frame _)
    | with_reducible apply Frame.step (onFw_frame _ _ ?_)
    | with_reducible apply Frame.step (onBoard_frame _ _)
    | with_reducible apply Frame.step (onMem_frame _ _ ?_)
    | with_reducible apply Frame.step (onClock_frame _ _)
    | split
    | (intro _ h; exact h)
    | (intro h; exact h)
    | (intro m h; exact put_wf _ _ _ h)
    | dsimp only

theorem authDone_frame (s : State) (ok : Bool) : Frame [.board, .clock, .mem, .ring4, .paths, .host, .fw, .grove, .link] s (State.authDone s ok) := by
  unfold State.authDone
  repeat' first
    | exact rfl
    | with_reducible apply Frame.refl
    | with_reducible apply Frame.step (enterInit_frame _)
    | with_reducible apply Frame.step (finish_frame _ _ _)
    | with_reducible apply Frame.step (onFw_frame _ _ ?_)
    | split
    | (intro _ h; exact h)
    | (intro h; exact h)
    | dsimp only

theorem smbRead_frame (s : State) (code : Nat) (data : Bytes) : Frame [.board] s (State.smbRead s code data) := by
  unfold State.smbRead
  repeat' first
    | exact rfl
    | with_reducible apply Frame.refl
    | with_reducible apply Frame.step (onBoard_frame _ _)
    | split
    | dsimp only

theorem tapLoad_frame (s : State) (i : TapInstr) (takes : Bool) (cells : Option (BitVec 151)) : Frame [.board] s (State.tapLoad s i takes cells) := by
  unfold State.tapLoad
  repeat' first
    | exact rfl
    | with_reducible apply Frame.refl
    | with_reducible apply Frame.step (onBoard_frame _ _)
    | split
    | dsimp only

end Sys2Proof.Laws
end

