-- ==== Sys2Proof/Laws/FrameCards.lean ====
section
/-!
SUPPORT. What each shared operation can change, one lemma each: the command path and the firmware, the cards, and whatever goes on after a row.
-/
set_option maxRecDepth 2000
namespace Sys2Proof.Laws
open Sys2Proof.Machine

theorem answerFirst_frame (s : State) (path : Path) (e : Entry) (eng : Nat) (r : Reply) : Frame [.ring4, .paths, .host, .fw, .grove, .link] s (State.answerFirst s path e eng r) := by
  unfold State.answerFirst
  repeat' first
    | exact rfl
    | with_reducible apply Frame.refl
    | with_reducible apply Frame.step (onPath_frame _ _ _)
    | with_reducible apply Frame.step (flush_frame _ _ _)
    | split
    | dsimp only

theorem holdFirst_frame (s : State) (path : Path) (eng : Nat) (k : HeldKind) : Frame [.paths] s (State.holdFirst s path eng k) := by
  unfold State.holdFirst
  repeat' first
    | exact rfl
    | with_reducible apply Frame.refl
    | with_reducible apply Frame.step (onPath_frame _ _ _)
    | split
    | dsimp only

theorem turnAway_frame (s : State) (path : Path) (e : Entry) (r : Reply) : Frame [.ring4, .paths, .host, .fw, .grove, .link] s (State.turnAway s path e r) := by
  unfold State.turnAway
  repeat' first
    | exact rfl
    | with_reducible apply Frame.refl
    | with_reducible apply Frame.step (answerFirst_frame _ _ _ _ _)
    | with_reducible apply Frame.step (countPath_frame _ _ _)
    | split
    | dsimp only

theorem discardFirst_frame (s : State) (path : Path) : Frame [.ring4, .paths, .host, .fw, .grove, .link] s (State.discardFirst s path) := by
  unfold State.discardFirst
  repeat' first
    | exact rfl
    | with_reducible apply Frame.refl
    | with_reducible apply Frame.step (countPath_frame _ _ _)
    | with_reducible apply Frame.step (onHost_frame _ _ ?_)
    | with_reducible apply Frame.step (onPath_frame _ _ _)
    | with_reducible apply Frame.step (flush_frame _ _ _)
    | split
    | (intro _ h; exact h)
    | (intro h; exact h)
    | dsimp only

theorem arrive_frame (s : State) (h : Hdr) (opcode : Nat) (payload : Bytes) : Frame [.now, .clock, .ring4, .paths, .host, .events, .fw, .grove, .link] s (State.arrive s h opcode payload) := by
  unfold State.arrive
  repeat' first
    | exact rfl
    | with_reducible apply Frame.refl
    | with_reducible apply Frame.step (saplingDrop_frame _)
    | with_reducible apply Frame.step (receive_frame _ _)
    | with_reducible apply Frame.step (intakeBad_frame _ _ _ _)
    | with_reducible apply Frame.step (countPath_frame _ _ _)
    | with_reducible apply Frame.step (advance_frame _ _)
    | split
    | dsimp only

theorem takeCommand_frame (s : State) (desc packet : Bytes) : Frame [.ring4, .paths, .host, .fw, .grove, .link] s (State.takeCommand s desc packet) := by
  unfold State.takeCommand
  repeat' first
    | exact rfl
    | with_reducible apply Frame.refl
    | with_reducible apply Frame.step (receiveBytes_frame _ _ _ _ _)
    | with_reducible apply Frame.step (countPath_frame _ _ _)
    | with_reducible apply Frame.step (onHost_frame _ _ ?_)
    | with_reducible apply Frame.step (onPath_frame _ _ _)
    | with_reducible apply Frame.step (flush_frame _ _ _)
    | split
    | (intro _ h; exact h)
    | (intro h; exact h)
    | dsimp only

theorem intake_frame (s : State) (path : Path) (desc packet : Bytes) : Frame [.ring4, .paths, .host, .fw, .grove, .link] s (State.intake s path desc packet) := by
  unfold State.intake
  repeat' first
    | exact rfl
    | with_reducible apply Frame.refl
    | with_reducible apply Frame.step (takeCommand_frame _ _ _)
    | with_reducible apply Frame.step (receiveBytes_frame _ _ _ _ _)
    | with_reducible apply Frame.step (countPath_frame _ _ _)
    | split
    | dsimp only

theorem sendNotice_frame (s : State) (path : Path) (index : Nat) : Frame [.ring4, .paths, .grove] s (State.sendNotice s path index) := by
  unfold State.sendNotice
  repeat' first
    | exact rfl
    | with_reducible apply Frame.refl
    | with_reducible apply Frame.step (countPath_frame _ _ _)
    | with_reducible apply Frame.step (toRing4_frame _ _)
    | with_reducible apply Frame.step (sendUp_frame _ _)
    | with_reducible apply Frame.step (onPath_frame _ _ _)
    | split
    | dsimp only

theorem discardStale_frame (s : State) (path : Path) : Frame [.paths] s (State.discardStale s path) := by
  unfold State.discardStale
  repeat' first
    | exact rfl
    | with_reducible apply Frame.refl
    | with_reducible apply Frame.step (countPath_frame _ _ _)
    | with_reducible apply Frame.step (onPath_frame _ _ _)
    | split
    | dsimp only

theorem takeRead_frame (s : State) (core : Fin 4) : Frame [.paths, .fw, .readValues] s (State.takeRead s core) := by
  unfold State.takeRead
  repeat' first
    | exact rfl
    | with_reducible apply Frame.refl
    | with_reducible apply Frame.step (discardStale_frame _ _)
    | with_reducible apply Frame.step (returns_frame _ _ _)
    | with_reducible apply Frame.step (onFw_frame _ _ ?_)
    | with_reducible apply Frame.step (onPath_frame _ _ _)
    | split
    | (intro _ h; exact h)
    | (intro h; exact h)
    | dsimp only

theorem onSlot_frame (s : State) (n : Nat) (f : Entry → Entry) : Frame [.paths] s (State.onSlot s n f) := by
  unfold State.onSlot
  repeat' first
    | exact rfl
    | with_reducible apply Frame.refl
    | with_reducible apply Frame.step (onPath_frame _ _ _)
    | split
    | dsimp only

theorem postReply_frame (s : State) (slot length : Nat) : Frame [.ring4, .paths, .host, .fw, .grove, .link] s (State.postReply s slot length) := by
  unfold State.postReply
  repeat' first
    | exact rfl
    | with_reducible apply Frame.refl
    | with_reducible apply Frame.step (onSlot_frame _ _ _)
    | with_reducible apply Frame.step (onFw_frame _ _ ?_)
    | with_reducible apply Frame.step (flush_frame _ _ _)
    | split
    | (intro _ h; exact h)
    | (intro h; exact h)
    | dsimp only

theorem eventPost_frame (s : State) (addr : Nat) : Frame [.events, .grove] s (State.eventPost s addr) := by
  unfold State.eventPost
  repeat' first
    | exact rfl
    | with_reducible apply Frame.refl
    | (intro h; exact enter_wf _ _ h)
    | with_reducible apply Frame.step (eventUp_frame _ _)
    | with_reducible apply Frame.step (onEvents_frame _ _ ?_)
    | split
    | (intro _ h; exact h)
    | (intro h; exact h)
    | dsimp only

theorem scClockPlan_frame (s : State) (addr : Nat) : Frame [.clock, .rings, .events, .grove, .link] s (scClockPlan s addr).1 := by
  unfold scClockPlan
  repeat' first
    | exact rfl
    | with_reducible apply Frame.refl
    | with_reducible apply Frame.step (takePlan_frame _ _)
    | split
    | dsimp only

theorem scClockSync_frame (s : State) (core : Fin 4) (tick timeout : Nat) : Frame [.clock] s (scClockSync s core tick timeout).1 := by
  unfold scClockSync
  repeat' first
    | exact rfl
    | with_reducible apply Frame.refl
    | with_reducible apply Frame.step (armSync_frame _ _ _ _)
    | split
    | dsimp only

theorem scSlew_frame (s : State) (core : Fin 4) (ticks fs : Nat) : Frame [.clock, .grove] s (scSlew s core ticks fs).1 := by
  unfold scSlew
  repeat' first
    | exact rfl
    | with_reducible apply Frame.refl
    | with_reducible apply Frame.step (load_frame _ _)
    | with_reducible apply Frame.step (startSlew_frame _ _ _ _ _)
    | with_reducible apply Frame.step (onGrove_frame _ _)
    | split
    | dsimp only

theorem scMemClock_frame (s : State) (rate : Nat) : Frame [.mem] s (scMemClock s rate).1 := by
  unfold scMemClock
  repeat' first
    | exact rfl
    | with_reducible apply Frame.refl
    | with_reducible apply Frame.step (memClock_frame _ _ _)
    | split
    | dsimp only

theorem scCalOpen_frame (s : State) (mask : Nat) : Frame [.quads, .cal] s (scCalOpen s mask).1 := by
  unfold scCalOpen
  repeat' first
    | exact rfl
    | with_reducible apply Frame.refl
    | with_reducible apply Frame.step (onCal_frame _ _ ?_)
    | with_reducible apply Frame.step (onQuad_frame _ _ _)
    | with_reducible apply Frame.each
    | split
    | (intro _ h; exact h)
    | (intro h; exact h)
    | intro _ _
    | dsimp only

theorem scCalSwitch_frame (s : State) (quad position : Nat) : Frame [.quads, .events, .grove, .link] s (scCalSwitch s quad position).1 := by
  unfold scCalSwitch
  repeat' first
    | exact rfl
    | with_reducible apply Frame.refl
    | with_reducible apply Frame.step (returnSwitch_frame _ _ _)
    | with_reducible apply Frame.step (leaveConnect_frame _ _ _)
    | with_reducible apply Frame.step (onQuad_frame _ _ _)
    | split
    | dsimp only

theorem scCalClose_frame (s : State) : Frame [.quads, .cal] s (scCalClose s).1 := by
  unfold scCalClose
  repeat' first
    | exact rfl
    | with_reducible apply Frame.refl
    | with_reducible apply Frame.step (returnAll_frame _)
    | with_reducible apply Frame.step (onCal_frame _ _ ?_)
    | split
    | (intro _ h; exact h)
    | (intro h; exact h)
    | dsimp only

theorem scGroveIdentity_frame (s : State) (core : Fin 4) (devaddr role epoch bound : Nat) : Frame [.paths, .events, .grove, .link] s (scGroveIdentity s core devaddr role epoch bound).1 := by
  unfold scGroveIdentity
  repeat' first
    | exact rfl
    | with_reducible apply Frame.refl
    | with_reducible apply Frame.step (demote_frame _)
    | with_reducible apply Frame.step (promote_frame _)
    | with_reducible apply Frame.step (assign_frame _ _ _)
    | split
    | dsimp only

theorem scWdtConfig_frame (s : State) (period park : Nat) : Frame [.fw] s (scWdtConfig s period park).1 := by
  unfold scWdtConfig
  repeat' first
    | exact rfl
    | with_reducible apply Frame.refl
    | with_reducible apply Frame.step (onFw_frame _ _ ?_)
    | split
    | (intro _ h; exact h)
    | (intro h; exact h)
    | dsimp only

theorem becomeReady_frame (s : State) : Frame [.board, .events, .grove, .link] s (State.becomeReady s) := by
  unfold State.becomeReady
  repeat' first
    | exact rfl
    | with_reducible apply Frame.refl
    | with_reducible apply Frame.step (bootBit_frame _ _)
    | with_reducible apply Frame.step (raise_frame _ _)
    | with_reducible apply Frame.step (onBoard_frame _ _)
    | with_reducible apply Frame.fold
    | with_reducible apply Frame.foldPair
    | split
    | intro _ _
    | dsimp only

theorem scReady_frame (s : State) : Frame [.board, .events, .fw, .grove, .link] s (scReady s).1 := by
  unfold scReady
  repeat' first
    | exact rfl
    | with_reducible apply Frame.refl
    | with_reducible apply Frame.step (becomeReady_frame _)
    | with_reducible apply Frame.step (onFw_frame _ _ ?_)
    | split
    | (intro _ h; exact h)
    | (intro h; exact h)
    | dsimp only

theorem scSubmit_frame (s : State) (core : Fin 4) (packet length buffer size : Nat) : Frame [.ring4, .paths, .host, .fw, .grove, .link] s (scSubmit s core packet length buffer size).1 := by
  unfold scSubmit
  repeat' first
    | exact rfl
    | with_reducible apply Frame.refl
    | with_reducible apply Frame.step (receiveBytes_frame _ _ _ _ _)
    | with_reducible apply Frame.step (countPath_frame _ _ _)
    | with_reducible apply Frame.step (onCore_frame _ _ _)
    | split
    | dsimp only

theorem restart_frame (s : State) (cause : Nat) (core : Fin 4) (pc addr : Nat) : Frame [.board, .clock, .quads, .cal, .groups, .accs, .mem, .ring4, .paths, .host, .events, .fw, .stim, .grove, .link] s (State.restart s cause core pc addr) := by
  unfold State.restart
  repeat' first
    | exact rfl
    | with_reducible apply Frame.refl
    | with_reducible apply Frame.step (fatal_frame _ _ _ _ _)
    | with_reducible apply Frame.step (bootFail_frame _ _ _)
    | with_reducible apply Frame.step (abortRun_frame _)
    | with_reducible apply Frame.step (returnAll_frame _)
    | with_reducible apply Frame.step (flushAll_frame _)
    | with_reducible apply Frame.step (raise_frame _ _)
    | with_reducible apply Frame.step (onFw_frame _ _ ?_)
    | with_reducible apply Frame.step (onCal_frame _ _ ?_)
    | with_reducible apply Frame.step (onStim_frame _ _)
    | with_reducible apply Frame.step (onPath_frame _ _ _)
    | with_reducible apply Frame.step (onAcc_frame _ _ _)
    | with_reducible apply Frame.step (onGroup_frame _ _ _)
    | with_reducible apply Frame.each
    | with_reducible apply Frame.fold
    | with_reducible apply Frame.foldPair
    | split
    | (intro _ h; exact h)
    | (intro h; exact h)
    | intro _ _
    | dsimp only

theorem scFault_frame (s : State) (reason : Nat) : Frame [.board, .clock, .quads, .cal, .mem, .ring4, .paths, .host, .events, .fw, .grove, .link] s (scFault s reason).1 := by
  unfold scFault
  repeat' first
    | exact rfl
    | with_reducible apply Frame.refl
    | with_reducible apply Frame.step (fatal_frame _ _ _ _ _)
    | split
    | dsimp only

theorem scKeys_frame (s : State) : Frame [] s (scKeys s).1 := by
  unfold scKeys
  repeat' first
    | exact rfl
    | with_reducible apply Frame.refl
    | split
    | dsimp only

theorem endCall_frame (s : State) (core : Fin 4) (func : Nat) (v : Served) : Frame [.fw] s (State.endCall s core func v) := by
  unfold State.endCall
  repeat' first
    | exact rfl
    | with_reducible apply Frame.refl
    | with_reducible apply Frame.step (onCore_frame _ _ _)
    | with_reducible apply Frame.step (onFw_frame _ _ ?_)
    | split
    | (intro _ h; exact h)
    | (intro h; exact h)
    | dsimp only

theorem settleSubmits_frame (s : State) : Frame [.fw] s (State.settleSubmits s) := by
  unfold State.settleSubmits
  repeat' first
    | exact rfl
    | with_reducible apply Frame.refl
    | with_reducible apply Frame.step (onCore_frame _ _ _)
    | with_reducible apply Frame.each
    | split
    | intro _ _
    | dsimp only

theorem kick_frame (s : State) (core : Fin 4) : Frame [.fw] s (State.kick s core) := by
  unfold State.kick
  repeat' first
    | exact rfl
    | with_reducible apply Frame.refl
    | with_reducible apply Frame.step (onCore_frame _ _ _)
    | split
    | dsimp only

theorem verifyDone_frame (s : State) (ok : Bool) : Frame [.board, .clock, .quads, .cal, .mem, .ring4, .paths, .host, .events, .fw, .grove, .link] s (State.verifyDone s ok) := by
  unfold State.verifyDone
  repeat' first
    | exact rfl
    | with_reducible apply Frame.refl
    | with_reducible apply Frame.step (startCores_frame _ _ _)
    | with_reducible apply Frame.step (restoreSram_frame _ _)
    | with_reducible apply Frame.step (fatal_frame _ _ _ _ _)
    | with_reducible apply Frame.step (onFw_frame _ _ ?_)
    | split
    | (intro _ h; exact h)
    | (intro h; exact h)
    | dsimp only

theorem readyLate_frame (s : State) : Frame [.board, .clock, .quads, .cal, .mem, .ring4, .paths, .host, .events, .fw, .grove, .link] s (State.readyLate s) := by
  unfold State.readyLate
  repeat' first
    | exact rfl
    | with_reducible apply Frame.refl
    | with_reducible apply Frame.step (fatal_frame _ _ _ _ _)
    | split
    | dsimp only

theorem cardClockPlan_frame (b : Bytes) (h : Hdr) (s : State) : Frame [.clock, .rings, .events, .grove, .link] s ((cardClockPlan b).run h s).1 := by
  unfold cardClockPlan; dsimp only [doOk]
  repeat' first
    | exact rfl
    | with_reducible apply Frame.refl
    | with_reducible apply Frame.step (takePlan_frame _ _)
    | split
    | dsimp only

theorem cardClockPlan_ok (b : Bytes) : CardOk (cardClockPlan b) :=
  ⟨fun h s => (cardClockPlan_frame b h s).widen rfl, fun s => Frame.refl _ s, fun _ s => Frame.refl _ s⟩

theorem cardClockSync_frame (b : Bytes) (h : Hdr) (s : State) : Frame [.clock] s ((cardClockSync b).run h s).1 := by
  unfold cardClockSync; dsimp only [doOk]
  repeat' first
    | exact rfl
    | with_reducible apply Frame.refl
    | with_reducible apply Frame.step (armSync_frame _ _ _ _)
    | split
    | dsimp only

theorem cardClockSync_ok (b : Bytes) : CardOk (cardClockSync b) :=
  ⟨fun h s => (cardClockSync_frame b h s).widen rfl, fun s => Frame.refl _ s, fun _ s => Frame.refl _ s⟩

theorem cardGridTrim_frame (b : Bytes) (h : Hdr) (s : State) : Frame [.clock] s ((cardGridTrim b).run h s).1 := by
  unfold cardGridTrim; dsimp only [doOk]
  repeat' first
    | exact rfl
    | with_reducible apply Frame.refl
    | with_reducible apply Frame.step (startSlew_frame _ _ _ _ _)
    | split
    | dsimp only

theorem cardGridTrim_ok (b : Bytes) : CardOk (cardGridTrim b) :=
  ⟨fun h s => (cardGridTrim_frame b h s).widen rfl, fun s => Frame.refl _ s, fun _ s => Frame.refl _ s⟩

theorem cardInputConfig_frame (b : Bytes) (h : Hdr) (s : State) : Frame [.inputs] s ((cardInputConfig b).run h s).1 := by
  unfold cardInputConfig; dsimp only [doOk]
  repeat' first
    | exact rfl
    | with_reducible apply Frame.refl
    | with_reducible apply Frame.step (onInput_frame _ _ _)
    | split
    | dsimp only

theorem cardInputConfig_ok (b : Bytes) : CardOk (cardInputConfig b) :=
  ⟨fun h s => (cardInputConfig_frame b h s).widen rfl, fun s => Frame.refl _ s, fun _ s => Frame.refl _ s⟩

theorem cardQuadFusion_frame (b : Bytes) (h : Hdr) (s : State) : Frame [.inputs, .quads, .banks, .units, .tagged, .evaluated] s ((cardQuadFusion b).run h s).1 := by
  unfold cardQuadFusion; dsimp only [doOk]
  repeat' first
    | exact rfl
    | with_reducible apply Frame.refl
    | with_reducible apply Frame.step (quiesce_frame _ _)
    | with_reducible apply Frame.step (onQuad_frame _ _ _)
    | split
    | dsimp only

theorem cardQuadFusion_ok (b : Bytes) : CardOk (cardQuadFusion b) :=
  ⟨fun h s => (cardQuadFusion_frame b h s).widen rfl, fun s => Frame.refl _ s, fun _ s => Frame.refl _ s⟩

theorem cardQuadPower_frame (b : Bytes) (h : Hdr) (s : State) : Frame [.inputs, .quads, .banks, .units, .tagged, .evaluated] s ((cardQuadPower b).run h s).1 := by
  unfold cardQuadPower; dsimp only [doOk]
  repeat' first
    | exact rfl
    | with_reducible apply Frame.refl
    | with_reducible apply Frame.step (quiesce_frame _ _)
    | with_reducible apply Frame.step (onQuad_frame _ _ _)
    | split
    | dsimp only

theorem cardQuadPower_ok (b : Bytes) : CardOk (cardQuadPower b) :=
  ⟨fun h s => (cardQuadPower_frame b h s).widen rfl, fun s => Frame.refl _ s, fun _ s => Frame.refl _ s⟩

theorem cardTuConfig_frame (b : Bytes) (h : Hdr) (s : State) : Frame [.inputs, .units, .tagged, .evaluated] s ((cardTuConfig b).run h s).1 := by
  unfold cardTuConfig; dsimp only [doOk]
  repeat' first
    | exact rfl
    | with_reducible apply Frame.refl
    | with_reducible apply Frame.step (onUnit_frame _ _ _)
    | with_reducible apply reconfigure_frame
    | split
    | intro _
    | dsimp only

theorem cardTuConfig_ok (b : Bytes) : CardOk (cardTuConfig b) :=
  ⟨fun h s => (cardTuConfig_frame b h s).widen rfl, fun s => Frame.refl _ s, fun _ s => Frame.refl _ s⟩

theorem cardCmpConfig_frame (b : Bytes) (h : Hdr) (s : State) : Frame [.inputs, .units, .tagged, .evaluated] s ((cardCmpConfig b).run h s).1 := by
  unfold cardCmpConfig; dsimp only [doOk]
  repeat' first
    | exact rfl
    | with_reducible apply Frame.refl
    | with_reducible apply Frame.step (onInput_frame _ _ _)
    | with_reducible apply reconfigure_frame
    | split
    | intro _
    | dsimp only

theorem cardCmpConfig_ok (b : Bytes) : CardOk (cardCmpConfig b) :=
  ⟨fun h s => (cardCmpConfig_frame b h s).widen rfl, fun s => Frame.refl _ s, fun _ s => Frame.refl _ s⟩

theorem cardCombinerConfig_frame (b : Bytes) (h : Hdr) (s : State) : Frame [.groups] s ((cardCombinerConfig b).run h s).1 := by
  unfold cardCombinerConfig; dsimp only [doOk]
  repeat' first
    | exact rfl
    | with_reducible apply Frame.refl
    | with_reducible apply Frame.step (onGroup_frame _ _ _)
    | split
    | dsimp only

theorem cardCombinerConfig_ok (b : Bytes) : CardOk (cardCombinerConfig b) :=
  ⟨fun h s => (cardCombinerConfig_frame b h s).widen rfl, fun s => Frame.refl _ s, fun _ s => Frame.refl _ s⟩

theorem cardSwTrigger_frame (b : Bytes) (h : Hdr) (s : State) : Frame [.units, .tagged] s ((cardSwTrigger b).run h s).1 := by
  unfold cardSwTrigger; dsimp only [doOk]
  repeat' first
    | exact rfl
    | with_reducible apply Frame.refl
    | with_reducible apply Frame.step (tag_frame _ _)
    | with_reducible apply Frame.step (onUnit_frame _ _ _)
    | split
    | dsimp only

theorem cardSwTrigger_ok (b : Bytes) : CardOk (cardSwTrigger b) :=
  ⟨fun h s => (cardSwTrigger_frame b h s).widen rfl, fun s => Frame.refl _ s, fun _ s => Frame.refl _ s⟩

theorem cardTrigoutConfig_frame (b : Bytes) (h : Hdr) (s : State) : Frame [.trigouts] s ((cardTrigoutConfig b).run h s).1 := by
  unfold cardTrigoutConfig; dsimp only [doOk]
  repeat' first
    | exact rfl
    | with_reducible apply Frame.refl
    | with_reducible apply Frame.step (onOut_frame _ _ _)
    | split
    | dsimp only

theorem cardTrigoutConfig_ok (b : Bytes) : CardOk (cardTrigoutConfig b) :=
  ⟨fun h s => (cardTrigoutConfig_frame b h s).widen rfl, fun s => Frame.refl _ s, fun _ s => Frame.refl _ s⟩

theorem cardCaptureConfig_frame (b : Bytes) (h : Hdr) (s : State) : Frame [.groups] s ((cardCaptureConfig b).run h s).1 := by
  unfold cardCaptureConfig; dsimp only [doOk]
  repeat' first
    | exact rfl
    | with_reducible apply Frame.refl
    | with_reducible apply Frame.step (onGroup_frame _ _ _)
    | split
    | dsimp only

theorem cardCaptureConfig_ok (b : Bytes) : CardOk (cardCaptureConfig b) :=
  ⟨fun h s => (cardCaptureConfig_frame b h s).widen rfl, fun s => Frame.refl _ s, fun _ s => Frame.refl _ s⟩

theorem cardDecimConfig_frame (b : Bytes) (h : Hdr) (s : State) : Frame [.groups] s ((cardDecimConfig b).run h s).1 := by
  unfold cardDecimConfig; dsimp only [doOk]
  repeat' first
    | exact rfl
    | with_reducible apply Frame.refl
    | with_reducible apply Frame.step (onGroup_frame _ _ _)
    | split
    | dsimp only

theorem cardDecimConfig_ok (b : Bytes) : CardOk (cardDecimConfig b) :=
  ⟨fun h s => (cardDecimConfig_frame b h s).widen rfl, fun s => Frame.refl _ s, fun _ s => Frame.refl _ s⟩

theorem cardAccConfig_frame (b : Bytes) (h : Hdr) (s : State) : Frame [.accs] s ((cardAccConfig b).run h s).1 := by
  unfold cardAccConfig; dsimp only [doOk]
  repeat' first
    | exact rfl
    | with_reducible apply Frame.refl
    | with_reducible apply Frame.step (onAcc_frame _ _ _)
    | split
    | dsimp only

theorem cardAccConfig_ok (b : Bytes) : CardOk (cardAccConfig b) :=
  ⟨fun h s => (cardAccConfig_frame b h s).widen rfl, fun s => Frame.refl _ s, fun _ s => Frame.refl _ s⟩

theorem cardAccSnapshot_frame (b : Bytes) (h : Hdr) (s : State) : Frame [.accs, .mem, .freeCount] s ((cardAccSnapshot b).run h s).1 := by
  unfold cardAccSnapshot; dsimp only [doOk]
  repeat' first
    | exact rfl
    | with_reducible apply Frame.refl
    | with_reducible apply Frame.step (takeSnap_frame _ _ _ _ _)
    | split
    | dsimp only

theorem cardAccSnapshot_ok (b : Bytes) : CardOk (cardAccSnapshot b) :=
  ⟨fun h s => (cardAccSnapshot_frame b h s).widen rfl, fun s => Frame.refl _ s, fun _ s => Frame.refl _ s⟩

theorem cardMemPortConfig_frame (b : Bytes) (h : Hdr) (s : State) : Frame [.mem] s ((cardMemPortConfig b).run h s).1 := by
  unfold cardMemPortConfig; dsimp only [doOk]
  repeat' first
    | exact rfl
    | with_reducible apply Frame.refl
    | with_reducible apply Frame.step (onMem_frame _ _ ?_)
    | split
    | (intro _ h; exact h)
    | (intro h; exact h)
    | dsimp only

theorem cardMemPortConfig_ok (b : Bytes) : CardOk (cardMemPortConfig b) :=
  ⟨fun h s => (cardMemPortConfig_frame b h s).widen rfl, fun s => Frame.refl _ s, fun _ s => Frame.refl _ s⟩

theorem cardMemConfig_frame (b : Bytes) (h : Hdr) (s : State) : Frame [.mem] s ((cardMemConfig b).run h s).1 := by
  unfold cardMemConfig; dsimp only [doOk]
  repeat' first
    | exact rfl
    | with_reducible apply Frame.refl
    | with_reducible apply Frame.step (onMem_frame _ _ ?_)
    | split
    | (intro _ h; exact h)
    | (intro h; exact h)
    | dsimp only

theorem cardMemConfig_ok (b : Bytes) : CardOk (cardMemConfig b) :=
  ⟨fun h s => (cardMemConfig_frame b h s).widen rfl, fun s => Frame.refl _ s, fun _ s => Frame.refl _ s⟩

theorem cardMemClock_frame (b : Bytes) (h : Hdr) (s : State) : Frame [.mem] s ((cardMemClock b).run h s).1 := by
  unfold cardMemClock; dsimp only [doOk]
  repeat' first
    | exact rfl
    | with_reducible apply Frame.refl
    | with_reducible apply Frame.step (memClock_frame _ _ _)
    | split
    | dsimp only

theorem cardMemClock_ok (b : Bytes) : CardOk (cardMemClock b) :=
  ⟨fun h s => (cardMemClock_frame b h s).widen rfl, fun s => Frame.refl _ s, fun _ s => Frame.refl _ s⟩

theorem cardBar2Set_frame (b : Bytes) (h : Hdr) (s : State) : Frame [.mem] s ((cardBar2Set b).run h s).1 := by
  unfold cardBar2Set; dsimp only [doOk]
  repeat' first
    | exact rfl
    | with_reducible apply Frame.refl
    | with_reducible apply Frame.step (onMem_frame _ _ ?_)
    | split
    | (intro _ h; exact h)
    | (intro h; exact h)
    | dsimp only

theorem cardBar2Set_ok (b : Bytes) : CardOk (cardBar2Set b) :=
  ⟨fun h s => (cardBar2Set_frame b h s).widen rfl, fun s => Frame.refl _ s, fun _ s => Frame.refl _ s⟩

theorem cardReadoutRings_frame (b : Bytes) (h : Hdr) (s : State) : Frame [.rings] s ((cardReadoutRings b).run h s).1 := by
  unfold cardReadoutRings; dsimp only [doOk]
  repeat' first
    | exact rfl
    | with_reducible apply Frame.refl
    | with_reducible apply Frame.step (onRing_frame _ _ _)
    | split
    | dsimp only

theorem cardReadoutRings_ok (b : Bytes) : CardOk (cardReadoutRings b) :=
  ⟨fun h s => (cardReadoutRings_frame b h s).widen rfl, fun s => Frame.refl _ s, fun _ s => Frame.refl _ s⟩

theorem cardCalConfig_frame (b : Bytes) (h : Hdr) (s : State) : Frame [.cal] s ((cardCalConfig b).run h s).1 := by
  unfold cardCalConfig; dsimp only [doOk]
  repeat' first
    | exact rfl
    | with_reducible apply Frame.refl
    | with_reducible apply Frame.step (onCal_frame _ _ ?_)
    | split
    | (intro _ h; exact h)
    | (intro h; exact h)
    | dsimp only

theorem cardCalConfig_ok (b : Bytes) : CardOk (cardCalConfig b) :=
  ⟨fun h s => (cardCalConfig_frame b h s).widen rfl, fun s => Frame.refl _ s, fun _ s => Frame.refl _ s⟩

theorem cardCalRun_frame (b : Bytes) (h : Hdr) (s : State) : Frame [.inputs, .cal, .units, .tagged, .decided, .evaluated, .groups, .accs, .trigouts, .mem, .rings, .events, .stim, .grove, .link, .freeCount] s ((cardCalRun b).run h s).1 := by
  unfold cardCalRun; dsimp only [doOk]
  repeat' first
    | exact rfl
    | with_reducible apply Frame.refl
    | with_reducible apply Frame.step (startRun_frame _ _ _ _)
    | split
    | dsimp only

theorem cardCalRun_ok (b : Bytes) : CardOk (cardCalRun b) :=
  ⟨fun h s => (cardCalRun_frame b h s).widen rfl, fun s => Frame.refl _ s, fun _ s => Frame.refl _ s⟩

theorem cardCalAbort_frame (b : Bytes) (h : Hdr) (s : State) : Frame [.cal] s ((cardCalAbort b).run h s).1 := by
  unfold cardCalAbort; dsimp only [doOk]
  repeat' first
    | exact rfl
    | with_reducible apply Frame.refl
    | with_reducible apply Frame.step (abortRun_frame _)
    | split
    | dsimp only

theorem cardCalAbort_ok (b : Bytes) : CardOk (cardCalAbort b) :=
  ⟨fun h s => (cardCalAbort_frame b h s).widen rfl, fun s => Frame.refl _ s, fun _ s => Frame.refl _ s⟩

theorem cardCalSetUpload_frame (b : Bytes) (h : Hdr) (s : State) : Frame [.cal] s ((cardCalSetUpload b).run h s).1 := by
  unfold cardCalSetUpload; dsimp only [doOk]
  repeat' first
    | exact rfl
    | with_reducible apply Frame.refl
    | (intro c h; exact packPut_wf _ _ _ h)
    | with_reducible apply Frame.step (onCal_frame _ _ ?_)
    | split
    | (intro _ h; exact h)
    | (intro h; exact h)
    | dsimp only

theorem cardCalSetUpload_ok (b : Bytes) : CardOk (cardCalSetUpload b) :=
  ⟨fun h s => (cardCalSetUpload_frame b h s).widen rfl, fun s => Frame.refl _ s, fun _ s => Frame.refl _ s⟩

theorem cardCalSetCommit_frame (b : Bytes) (h : Hdr) (s : State) : Frame [.inputs, .quads, .cal, .units, .tagged, .decided, .evaluated, .groups, .accs, .trigouts, .mem, .rings, .events, .stim, .grove, .link, .freeCount] s ((cardCalSetCommit b).run h s).1 := by
  unfold cardCalSetCommit; dsimp only [doOk]
  repeat' first
    | exact rfl
    | with_reducible apply Frame.refl
    | with_reducible apply Frame.step (setPends_frame _ _)
    | split
    | dsimp only

theorem cardCalSetCommit_ok (b : Bytes) : CardOk (cardCalSetCommit b) :=
  ⟨fun h s => (cardCalSetCommit_frame b h s).widen rfl, fun s => Frame.refl _ s, fun _ s => Frame.refl _ s⟩

theorem cardCalSetDownload_frame (b : Bytes) (h : Hdr) (s : State) : Frame [] s ((cardCalSetDownload b).run h s).1 := by
  unfold cardCalSetDownload; dsimp only [doOk]
  repeat' first
    | exact rfl
    | with_reducible apply Frame.refl
    | split
    | dsimp only

theorem cardCalSetDownload_ok (b : Bytes) : CardOk (cardCalSetDownload b) :=
  ⟨fun h s => (cardCalSetDownload_frame b h s).widen rfl, fun s => Frame.refl _ s, fun _ s => Frame.refl _ s⟩

theorem cardCalSliceQuery_frame (b : Bytes) (h : Hdr) (s : State) : Frame [] s ((cardCalSliceQuery b).run h s).1 := by
  unfold cardCalSliceQuery; dsimp only [doOk]
  repeat' first
    | exact rfl
    | with_reducible apply Frame.refl
    | split
    | dsimp only

theorem cardCalSliceQuery_ok (b : Bytes) : CardOk (cardCalSliceQuery b) :=
  ⟨fun h s => (cardCalSliceQuery_frame b h s).widen rfl, fun s => Frame.refl _ s, fun _ s => Frame.refl _ s⟩

theorem cardGroupArm_frame (b : Bytes) (h : Hdr) (s : State) : Frame [.inputs, .quads, .banks, .cal, .units, .tagged, .decided, .evaluated, .groups, .accs, .trigouts, .mem, .rings, .events, .stim, .grove, .link, .freeCount] s ((cardGroupArm b).run h s).1 := by
  unfold cardGroupArm; dsimp only [doOk]
  repeat' first
    | exact rfl
    | with_reducible apply Frame.refl
    | with_reducible apply Frame.step (armRun_frame _ _ _)
    | with_reducible apply Frame.step (onGroup_frame _ _ _)
    | split
    | dsimp only

theorem cardGroupArm_ok (b : Bytes) : CardOk (cardGroupArm b) :=
  ⟨fun h s => (cardGroupArm_frame b h s).widen rfl, fun s => Frame.refl _ s, fun r s => by
    unfold cardGroupArm; dsimp only
    split
    · first | exact (seqRefused_frame _).widen rfl | exact (onGroup_frame _ _ _).widen rfl
    · exact Frame.refl _ _⟩

theorem cardGroupStop_frame (b : Bytes) (h : Hdr) (s : State) : Frame [.inputs, .units, .tagged, .decided, .evaluated, .groups, .accs, .trigouts, .mem, .rings, .events, .stim, .grove, .link, .freeCount] s ((cardGroupStop b).run h s).1 := by
  unfold cardGroupStop; dsimp only [doOk]
  repeat' first
    | exact rfl
    | with_reducible apply Frame.refl
    | with_reducible apply Frame.step (stopGroup_frame _ _ _)
    | split
    | dsimp only

theorem cardGroupStop_ok (b : Bytes) : CardOk (cardGroupStop b) :=
  ⟨fun h s => (cardGroupStop_frame b h s).widen rfl, fun s => Frame.refl _ s, fun _ s => Frame.refl _ s⟩

theorem cardSeqConfig_frame (b : Bytes) (h : Hdr) (s : State) : Frame [.stim] s ((cardSeqConfig b).run h s).1 := by
  unfold cardSeqConfig; dsimp only [doOk]
  repeat' first
    | exact rfl
    | with_reducible apply Frame.refl
    | with_reducible apply Frame.step (onStim_frame _ _)
    | split
    | dsimp only

theorem cardSeqConfig_ok (b : Bytes) : CardOk (cardSeqConfig b) :=
  ⟨fun h s => (cardSeqConfig_frame b h s).widen rfl, fun s => Frame.refl _ s, fun _ s => Frame.refl _ s⟩

theorem cardSegmentDefine_frame (b : Bytes) (h : Hdr) (s : State) : Frame [.stim] s ((cardSegmentDefine b).run h s).1 := by
  unfold cardSegmentDefine; dsimp only [doOk]
  repeat' first
    | exact rfl
    | with_reducible apply Frame.refl
    | with_reducible apply Frame.step (seqRefused_frame _)
    | with_reducible apply Frame.step (onStim_frame _ _)
    | split
    | dsimp only

theorem cardSegmentDefine_ok (b : Bytes) : CardOk (cardSegmentDefine b) :=
  ⟨fun h s => (cardSegmentDefine_frame b h s).widen rfl, fun s => Frame.refl _ s, fun r s => by
    unfold cardSegmentDefine; dsimp only
    split
    · first | exact (seqRefused_frame _).widen rfl | exact (onGroup_frame _ _ _).widen rfl
    · exact Frame.refl _ _⟩

theorem cardListWrite_frame (b : Bytes) (h : Hdr) (s : State) : Frame [.stim] s ((cardListWrite b).run h s).1 := by
  unfold cardListWrite; dsimp only [doOk]
  repeat' first
    | exact rfl
    | with_reducible apply Frame.refl
    | with_reducible apply Frame.step (onStim_frame _ _)
    | split
    | dsimp only

theorem cardListWrite_ok (b : Bytes) : CardOk (cardListWrite b) :=
  ⟨fun h s => (cardListWrite_frame b h s).widen rfl, fun s => Frame.refl _ s, fun _ s => Frame.refl _ s⟩

theorem cardListRead_frame (b : Bytes) (h : Hdr) (s : State) : Frame [] s ((cardListRead b).run h s).1 := by
  unfold cardListRead; dsimp only [doOk]
  repeat' first
    | exact rfl
    | with_reducible apply Frame.refl
    | split
    | dsimp only

theorem cardListRead_ok (b : Bytes) : CardOk (cardListRead b) :=
  ⟨fun h s => (cardListRead_frame b h s).widen rfl, fun s => Frame.refl _ s, fun _ s => Frame.refl _ s⟩

theorem cardSegmentReady_frame (b : Bytes) (h : Hdr) (s : State) : Frame [.stim] s ((cardSegmentReady b).run h s).1 := by
  unfold cardSegmentReady; dsimp only [doOk]
  repeat' first
    | exact rfl
    | with_reducible apply Frame.refl
    | with_reducible apply Frame.step (onStim_frame _ _)
    | split
    | dsimp only

theorem cardSegmentReady_ok (b : Bytes) : CardOk (cardSegmentReady b) :=
  ⟨fun h s => (cardSegmentReady_frame b h s).widen rfl, fun s => Frame.refl _ s, fun _ s => Frame.refl _ s⟩

theorem cardStepWrite_frame (b : Bytes) (h : Hdr) (s : State) : Frame [.stim] s ((cardStepWrite b).run h s).1 := by
  unfold cardStepWrite; dsimp only [doOk]
  repeat' first
    | exact rfl
    | with_reducible apply Frame.refl
    | with_reducible apply Frame.step (seqRefused_frame _)
    | with_reducible apply Frame.step (onStim_frame _ _)
    | split
    | dsimp only

theorem cardStepWrite_ok (b : Bytes) : CardOk (cardStepWrite b) :=
  ⟨fun h s => (cardStepWrite_frame b h s).widen rfl, fun s => Frame.refl _ s, fun r s => by
    unfold cardStepWrite; dsimp only
    split
    · first | exact (seqRefused_frame _).widen rfl | exact (onGroup_frame _ _ _).widen rfl
    · exact Frame.refl _ _⟩

theorem cardSeqEnable_frame (b : Bytes) (h : Hdr) (s : State) : Frame [.stim] s ((cardSeqEnable b).run h s).1 := by
  unfold cardSeqEnable; dsimp only [doOk]
  repeat' first
    | exact rfl
    | with_reducible apply Frame.refl
    | with_reducible apply Frame.step (seqIdle_frame _)
    | with_reducible apply Frame.step (seqRefused_frame _)
    | with_reducible apply Frame.step (onStim_frame _ _)
    | split
    | dsimp only

theorem cardSeqEnable_ok (b : Bytes) : CardOk (cardSeqEnable b) :=
  ⟨fun h s => (cardSeqEnable_frame b h s).widen rfl, fun s => Frame.refl _ s, fun r s => by
    unfold cardSeqEnable; dsimp only
    split
    · first | exact (seqRefused_frame _).widen rfl | exact (onGroup_frame _ _ _).widen rfl
    · exact Frame.refl _ _⟩

theorem cardSeqDisable_frame (b : Bytes) (h : Hdr) (s : State) : Frame [.stim] s ((cardSeqDisable b).run h s).1 := by
  unfold cardSeqDisable; dsimp only [doOk]
  repeat' first
    | exact rfl
    | with_reducible apply Frame.refl
    | with_reducible apply Frame.step (onStim_frame _ _)
    | split
    | dsimp only

theorem cardSeqDisable_ok (b : Bytes) : CardOk (cardSeqDisable b) :=
  ⟨fun h s => (cardSeqDisable_frame b h s).widen rfl, fun s => Frame.refl _ s, fun _ s => Frame.refl _ s⟩

theorem cardSeqStart_frame (b : Bytes) (h : Hdr) (s : State) : Frame [.stim] s ((cardSeqStart b).run h s).1 := by
  unfold cardSeqStart; dsimp only [doOk]
  repeat' first
    | exact rfl
    | with_reducible apply Frame.refl
    | with_reducible apply Frame.step (onCh_frame _ _ _)
    | with_reducible apply Frame.each
    | split
    | intro _ _
    | dsimp only

theorem cardSeqStart_ok (b : Bytes) : CardOk (cardSeqStart b) :=
  ⟨fun h s => (cardSeqStart_frame b h s).widen rfl, fun s => Frame.refl _ s, fun _ s => Frame.refl _ s⟩

theorem cardSeqStopNow_frame (b : Bytes) (h : Hdr) (s : State) : Frame [.stim] s ((cardSeqStopNow b).run h s).1 := by
  unfold cardSeqStopNow; dsimp only [doOk]
  repeat' first
    | exact rfl
    | with_reducible apply Frame.refl
    | with_reducible apply Frame.step (stopNow_frame _ _)
    | with_reducible apply stopBoth_frame
    | split
    | intro _ _
    | intro _
    | dsimp only

theorem cardSeqStopNow_ok (b : Bytes) : CardOk (cardSeqStopNow b) :=
  ⟨fun h s => (cardSeqStopNow_frame b h s).widen rfl, fun s => Frame.refl _ s, fun _ s => Frame.refl _ s⟩

theorem cardSeqStopBoundary_frame (b : Bytes) (h : Hdr) (s : State) : Frame [.stim] s ((cardSeqStopBoundary b).run h s).1 := by
  unfold cardSeqStopBoundary; dsimp only [doOk]
  repeat' first
    | exact rfl
    | with_reducible apply Frame.refl
    | with_reducible apply Frame.step (stopBoundary_frame _ _)
    | with_reducible apply stopBoth_frame
    | split
    | intro _ _
    | intro _
    | dsimp only

theorem cardSeqStopBoundary_ok (b : Bytes) : CardOk (cardSeqStopBoundary b) :=
  ⟨fun h s => (cardSeqStopBoundary_frame b h s).widen rfl, fun s => Frame.refl _ s, fun _ s => Frame.refl _ s⟩

theorem cardSeqJump_frame (b : Bytes) (h : Hdr) (s : State) : Frame [.stim] s ((cardSeqJump b).run h s).1 := by
  unfold cardSeqJump; dsimp only [doOk]
  repeat' first
    | exact rfl
    | with_reducible apply Frame.refl
    | with_reducible apply Frame.step (onCh_frame _ _ _)
    | split
    | dsimp only

theorem cardSeqJump_ok (b : Bytes) : CardOk (cardSeqJump b) :=
  ⟨fun h s => (cardSeqJump_frame b h s).widen rfl, fun s => Frame.refl _ s, fun _ s => Frame.refl _ s⟩

theorem cardMonConfig_frame (b : Bytes) (h : Hdr) (s : State) : Frame [.mon] s ((cardMonConfig b).run h s).1 := by
  unfold cardMonConfig; dsimp only [doOk]
  repeat' first
    | exact rfl
    | with_reducible apply Frame.refl
    | (intro h; split <;> exact h)
    | with_reducible apply Frame.step (onMon_frame _ _ ?_)
    | split
    | (intro _ h; exact h)
    | (intro h; exact h)
    | dsimp only

theorem cardMonConfig_ok (b : Bytes) : CardOk (cardMonConfig b) :=
  ⟨fun h s => (cardMonConfig_frame b h s).widen rfl, fun s => Frame.refl _ s, fun _ s => Frame.refl _ s⟩

theorem cardMonWindowSet_frame (b : Bytes) (h : Hdr) (s : State) : Frame [.mon] s ((cardMonWindowSet b).run h s).1 := by
  unfold cardMonWindowSet; dsimp only [doOk]
  repeat' first
    | exact rfl
    | with_reducible apply Frame.refl
    | with_reducible apply Frame.step (onMon_frame _ _ ?_)
    | split
    | (intro _ h; exact h)
    | (intro h; exact h)
    | dsimp only

theorem cardMonWindowSet_ok (b : Bytes) : CardOk (cardMonWindowSet b) :=
  ⟨fun h s => (cardMonWindowSet_frame b h s).widen rfl, fun s => Frame.refl _ s, fun _ s => Frame.refl _ s⟩

theorem cardEnumProbe_frame (b : Bytes) (h : Hdr) (s : State) : Frame [.paths, .events, .grove, .link] s ((cardEnumProbe b).run h s).1 := by
  unfold cardEnumProbe; dsimp only [doOk]
  repeat' first
    | exact rfl
    | with_reducible apply Frame.refl
    | with_reducible apply Frame.step (assign_frame _ _ _)
    | split
    | dsimp only

theorem cardEnumProbe_ok (b : Bytes) : CardOk (cardEnumProbe b) :=
  ⟨fun h s => (cardEnumProbe_frame b h s).widen rfl, fun s => Frame.refl _ s, fun _ s => Frame.refl _ s⟩

theorem cardGroveConfig_frame (b : Bytes) (h : Hdr) (s : State) : Frame [.grove] s ((cardGroveConfig b).run h s).1 := by
  unfold cardGroveConfig; dsimp only [doOk]
  repeat' first
    | exact rfl
    | with_reducible apply Frame.refl
    | with_reducible apply Frame.step (onGrove_frame _ _)
    | split
    | dsimp only

theorem cardGroveConfig_ok (b : Bytes) : CardOk (cardGroveConfig b) :=
  ⟨fun h s => (cardGroveConfig_frame b h s).widen rfl, fun s => Frame.refl _ s, fun _ s => Frame.refl _ s⟩

theorem cardGroveRange_frame (b : Bytes) (h : Hdr) (s : State) : Frame [.grove] s ((cardGroveRange b).run h s).1 := by
  unfold cardGroveRange; dsimp only [doOk]
  repeat' first
    | exact rfl
    | with_reducible apply Frame.refl
    | with_reducible apply Frame.step (startRange_frame _ _ _)
    | split
    | dsimp only

theorem cardGroveRange_ok (b : Bytes) : CardOk (cardGroveRange b) :=
  ⟨fun h s => (cardGroveRange_frame b h s).widen rfl, fun s => Frame.refl _ s, fun _ s => Frame.refl _ s⟩

theorem cardGroveAlign_frame (b : Bytes) (h : Hdr) (s : State) : Frame [.clock, .grove] s ((cardGroveAlign b).run h s).1 := by
  unfold cardGroveAlign; dsimp only [doOk]
  repeat' first
    | exact rfl
    | with_reducible apply Frame.refl
    | with_reducible apply Frame.step (load_frame _ _)
    | with_reducible apply Frame.step (startSlew_frame _ _ _ _ _)
    | with_reducible apply Frame.step (onGrove_frame _ _)
    | split
    | dsimp only

theorem cardGroveAlign_ok (b : Bytes) : CardOk (cardGroveAlign b) :=
  ⟨fun h s => (cardGroveAlign_frame b h s).widen rfl, fun s => Frame.refl _ s, fun _ s => Frame.refl _ s⟩

theorem cardPromote_frame (b : Bytes) (h : Hdr) (s : State) : Frame [.paths, .events, .grove, .link] s ((cardPromote b).run h s).1 := by
  unfold cardPromote; dsimp only [doOk]
  repeat' first
    | exact rfl
    | with_reducible apply Frame.refl
    | with_reducible apply Frame.step (promote_frame _)
    | split
    | dsimp only

theorem cardPromote_ok (b : Bytes) : CardOk (cardPromote b) :=
  ⟨fun h s => (cardPromote_frame b h s).widen rfl, fun s => Frame.refl _ s, fun _ s => Frame.refl _ s⟩

theorem cardDemote_frame (b : Bytes) (h : Hdr) (s : State) : Frame [.events, .grove, .link] s ((cardDemote b).run h s).1 := by
  unfold cardDemote; dsimp only [doOk]
  repeat' first
    | exact rfl
    | with_reducible apply Frame.refl
    | with_reducible apply Frame.step (demote_frame _)
    | split
    | dsimp only

theorem cardDemote_ok (b : Bytes) : CardOk (cardDemote b) :=
  ⟨fun h s => (cardDemote_frame b h s).widen rfl, fun s => Frame.refl _ s, fun _ s => Frame.refl _ s⟩

theorem cardGroveStatus_frame (b : Bytes) (h : Hdr) (s : State) : Frame [] s ((cardGroveStatus b).run h s).1 := by
  unfold cardGroveStatus; dsimp only [doOk]
  repeat' first
    | exact rfl
    | with_reducible apply Frame.refl
    | split
    | dsimp only

theorem cardGroveStatus_ok (b : Bytes) : CardOk (cardGroveStatus b) :=
  ⟨fun h s => (cardGroveStatus_frame b h s).widen rfl, fun s => Frame.refl _ s, fun _ s => Frame.refl _ s⟩

theorem cardSysEcho_frame (b : Bytes) (h : Hdr) (s : State) : Frame [] s ((cardSysEcho b).run h s).1 := by
  unfold cardSysEcho; dsimp only [doOk]
  repeat' first
    | exact rfl
    | with_reducible apply Frame.refl
    | split
    | dsimp only

theorem cardSysEcho_ok (b : Bytes) : CardOk (cardSysEcho b) :=
  ⟨fun h s => (cardSysEcho_frame b h s).widen rfl, fun s => Frame.refl _ s, fun _ s => Frame.refl _ s⟩

theorem cardSysIdentify_frame (b : Bytes) (h : Hdr) (s : State) : Frame [] s ((cardSysIdentify b).run h s).1 := by
  unfold cardSysIdentify; dsimp only [doOk]
  repeat' first
    | exact rfl
    | with_reducible apply Frame.refl
    | split
    | dsimp only

theorem cardSysIdentify_ok (b : Bytes) : CardOk (cardSysIdentify b) :=
  ⟨fun h s => (cardSysIdentify_frame b h s).widen rfl, fun s => Frame.refl _ s, fun _ s => Frame.refl _ s⟩

theorem cardSysStatus_frame (b : Bytes) (h : Hdr) (s : State) : Frame [] s ((cardSysStatus b).run h s).1 := by
  unfold cardSysStatus; dsimp only [doOk]
  repeat' first
    | exact rfl
    | with_reducible apply Frame.refl
    | split
    | dsimp only

theorem cardSysStatus_ok (b : Bytes) : CardOk (cardSysStatus b) :=
  ⟨fun h s => (cardSysStatus_frame b h s).widen rfl, fun s => Frame.refl _ s, fun _ s => Frame.refl _ s⟩

theorem cardCmdRingSetup_frame (b : Bytes) (h : Hdr) (s : State) : Frame [.host] s ((cardCmdRingSetup b).run h s).1 := by
  unfold cardCmdRingSetup; dsimp only [doOk]
  repeat' first
    | exact rfl
    | with_reducible apply Frame.refl
    | with_reducible apply Frame.step (applySetup_frame _)
    | with_reducible apply Frame.step (onHost_frame _ _ ?_)
    | split
    | (intro _ h; exact h)
    | (intro h; exact h)
    | dsimp only

theorem cardCmdRingSetup_ok (b : Bytes) : CardOk (cardCmdRingSetup b) :=
  ⟨fun h s => (cardCmdRingSetup_frame b h s).widen rfl, fun s => (applySetup_frame s).widen rfl, fun _ s => Frame.refl _ s⟩

theorem cardTagRetire_frame (b : Bytes) (h : Hdr) (s : State) : Frame [.paths] s ((cardTagRetire b).run h s).1 := by
  unfold cardTagRetire; dsimp only [doOk]
  repeat' first
    | exact rfl
    | with_reducible apply Frame.refl
    | with_reducible apply Frame.step (onPath_frame _ _ _)
    | split
    | dsimp only

theorem cardTagRetire_ok (b : Bytes) : CardOk (cardTagRetire b) :=
  ⟨fun h s => (cardTagRetire_frame b h s).widen rfl, fun s => Frame.refl _ s, fun _ s => Frame.refl _ s⟩

theorem cardSysReset_frame (b : Bytes) (h : Hdr) (s : State) : Frame [.board] s ((cardSysReset b).run h s).1 := by
  unfold cardSysReset; dsimp only [doOk]
  repeat' first
    | exact rfl
    | with_reducible apply Frame.refl
    | with_reducible apply Frame.step (applyReset_frame _)
    | with_reducible apply Frame.step (onBoard_frame _ _)
    | split
    | dsimp only

theorem cardSysReset_ok (b : Bytes) : CardOk (cardSysReset b) :=
  ⟨fun h s => (cardSysReset_frame b h s).widen rfl, fun s => (applyReset_frame s).widen rfl, fun _ s => Frame.refl _ s⟩

theorem cardEventFetch_frame (b : Bytes) (h : Hdr) (s : State) : Frame [.events] s ((cardEventFetch b).run h s).1 := by
  unfold cardEventFetch; dsimp only [doOk]
  repeat' first
    | exact rfl
    | with_reducible apply Frame.refl
    | (intro h; exact drop_wf _ _ _ h)
    | with_reducible apply Frame.step (onEvents_frame _ _ ?_)
    | split
    | (intro _ h; exact h)
    | (intro h; exact h)
    | dsimp only

theorem cardEventFetch_ok (b : Bytes) : CardOk (cardEventFetch b) :=
  ⟨fun h s => (cardEventFetch_frame b h s).widen rfl, fun s => Frame.refl _ s, fun _ s => Frame.refl _ s⟩

theorem cardKeyInstall_frame (b : Bytes) (h : Hdr) (s : State) : Frame [.fw] s ((cardKeyInstall b).run h s).1 := by
  unfold cardKeyInstall; dsimp only [doOk]
  repeat' first
    | exact rfl
    | with_reducible apply Frame.refl
    | with_reducible apply Frame.step (onFw_frame _ _ ?_)
    | split
    | (intro _ h; exact h)
    | (intro h; exact h)
    | dsimp only

theorem cardKeyInstall_ok (b : Bytes) : CardOk (cardKeyInstall b) :=
  ⟨fun h s => (cardKeyInstall_frame b h s).widen rfl, fun s => Frame.refl _ s, fun _ s => Frame.refl _ s⟩

theorem cardImageLoad_frame (b : Bytes) (h : Hdr) (s : State) : Frame [.fw] s ((cardImageLoad b).run h s).1 := by
  unfold cardImageLoad; dsimp only [doOk]
  repeat' first
    | exact rfl
    | with_reducible apply Frame.refl
    | (intro w h; simp only [Firmware.wf, Bool.and_eq_true] at h ⊢; exact ⟨⟨packPut_wf _ _ _ h.1.1, h.1.2⟩, h.2⟩)
    | with_reducible apply Frame.step (onFw_frame _ _ ?_)
    | split
    | (intro _ h; exact h)
    | (intro h; exact h)
    | dsimp only

theorem cardImageLoad_ok (b : Bytes) : CardOk (cardImageLoad b) :=
  ⟨fun h s => (cardImageLoad_frame b h s).widen rfl, fun s => Frame.refl _ s, fun _ s => Frame.refl _ s⟩

theorem cardImageStart_frame (b : Bytes) (h : Hdr) (s : State) : Frame [.fw] s ((cardImageStart b).run h s).1 := by
  unfold cardImageStart; dsimp only [doOk]
  repeat' first
    | exact rfl
    | with_reducible apply Frame.refl
    | with_reducible apply Frame.step (onFw_frame _ _ ?_)
    | split
    | (intro _ h; exact h)
    | (intro h; exact h)
    | dsimp only

theorem cardImageStart_ok (b : Bytes) : CardOk (cardImageStart b) :=
  ⟨fun h s => (cardImageStart_frame b h s).widen rfl, fun s => Frame.refl _ s, fun _ s => Frame.refl _ s⟩

theorem queryCard_ok (op : Nat) (b : Bytes) (n bad : Nat) (g : State → Nat → Bytes) : CardOk (queryCard op b n bad g) :=
  ⟨fun _ s => Frame.refl _ s, fun s => Frame.refl _ s, fun _ s => Frame.refl _ s⟩

theorem otherQuery_ok (op : Nat) (b : Bytes) (c : Card) (h : otherQuery op b = some c) : CardOk c := by
  unfold otherQuery at h
  repeat' split at h
  all_goals cases h
  all_goals first
    | with_reducible exact cardClockPlan_ok _
    | with_reducible exact cardClockSync_ok _
    | with_reducible exact cardGridTrim_ok _
    | with_reducible exact cardInputConfig_ok _
    | with_reducible exact cardQuadFusion_ok _
    | with_reducible exact cardQuadPower_ok _
    | with_reducible exact cardTuConfig_ok _
    | with_reducible exact cardCmpConfig_ok _
    | with_reducible exact cardCombinerConfig_ok _
    | with_reducible exact cardSwTrigger_ok _
    | with_reducible exact cardTrigoutConfig_ok _
    | with_reducible exact cardCaptureConfig_ok _
    | with_reducible exact cardDecimConfig_ok _
    | with_reducible exact cardAccConfig_ok _
    | with_reducible exact cardAccSnapshot_ok _
    | with_reducible exact cardMemPortConfig_ok _
    | with_reducible exact cardMemConfig_ok _
    | with_reducible exact cardMemClock_ok _
    | with_reducible exact cardBar2Set_ok _
    | with_reducible exact cardReadoutRings_ok _
    | with_reducible exact cardCalConfig_ok _
    | with_reducible exact cardCalRun_ok _
    | with_reducible exact cardCalAbort_ok _
    | with_reducible exact cardCalSetUpload_ok _
    | with_reducible exact cardCalSetCommit_ok _
    | with_reducible exact cardCalSetDownload_ok _
    | with_reducible exact cardCalSliceQuery_ok _
    | with_reducible exact cardGroupArm_ok _
    | with_reducible exact cardGroupStop_ok _
    | with_reducible exact cardSeqConfig_ok _
    | with_reducible exact cardSegmentDefine_ok _
    | with_reducible exact cardListWrite_ok _
    | with_reducible exact cardListRead_ok _
    | with_reducible exact cardSegmentReady_ok _
    | with_reducible exact cardStepWrite_ok _
    | with_reducible exact cardSeqEnable_ok _
    | with_reducible exact cardSeqDisable_ok _
    | with_reducible exact cardSeqStart_ok _
    | with_reducible exact cardSeqStopNow_ok _
    | with_reducible exact cardSeqStopBoundary_ok _
    | with_reducible exact cardSeqJump_ok _
    | with_reducible exact cardMonConfig_ok _
    | with_reducible exact cardMonWindowSet_ok _
    | with_reducible exact cardEnumProbe_ok _
    | with_reducible exact cardGroveConfig_ok _
    | with_reducible exact cardGroveRange_ok _
    | with_reducible exact cardGroveAlign_ok _
    | with_reducible exact cardPromote_ok _
    | with_reducible exact cardDemote_ok _
    | with_reducible exact cardGroveStatus_ok _
    | with_reducible exact cardSysEcho_ok _
    | with_reducible exact cardSysIdentify_ok _
    | with_reducible exact cardSysStatus_ok _
    | with_reducible exact cardCmdRingSetup_ok _
    | with_reducible exact cardTagRetire_ok _
    | with_reducible exact cardSysReset_ok _
    | with_reducible exact cardEventFetch_ok _
    | with_reducible exact cardKeyInstall_ok _
    | with_reducible exact cardImageLoad_ok _
    | with_reducible exact cardImageStart_ok _
    | exact queryCard_ok _ _ _ _ _
    | exact ⟨fun _ s => Frame.refl _ s, fun s => Frame.refl _ s, fun _ s => Frame.refl _ s⟩
    | (split <;> first | with_reducible exact cardGroupArm_ok _ | with_reducible exact cardGroupStop_ok _ | with_reducible exact cardSeqEnable_ok _ | with_reducible exact cardSeqDisable_ok _ | with_reducible exact cardSeqStopNow_ok _ | with_reducible exact cardSeqStopBoundary_ok _)

theorem cardLow_ok (op : Nat) (b : Bytes) (c : Card) (h : cardLow op b = some c) : CardOk c := by
  unfold cardLow at h
  repeat' split at h
  all_goals cases h
  all_goals first
    | with_reducible exact cardClockPlan_ok _
    | with_reducible exact cardClockSync_ok _
    | with_reducible exact cardGridTrim_ok _
    | with_reducible exact cardInputConfig_ok _
    | with_reducible exact cardQuadFusion_ok _
    | with_reducible exact cardQuadPower_ok _
    | with_reducible exact cardTuConfig_ok _
    | with_reducible exact cardCmpConfig_ok _
    | with_reducible exact cardCombinerConfig_ok _
    | with_reducible exact cardSwTrigger_ok _
    | with_reducible exact cardTrigoutConfig_ok _
    | with_reducible exact cardSysEcho_ok _
    | with_reducible exact cardSysIdentify_ok _
    | with_reducible exact cardSysStatus_ok _
    | with_reducible exact cardCmdRingSetup_ok _
    | with_reducible exact cardTagRetire_ok _
    | with_reducible exact cardSysReset_ok _
    | with_reducible exact cardEventFetch_ok _
    | exact queryCard_ok _ _ _ _ _
    | exact ⟨fun _ s => Frame.refl _ s, fun s => Frame.refl _ s, fun _ s => Frame.refl _ s⟩
    | (split <;> first | rfl)

theorem cardMid_ok (op : Nat) (b : Bytes) (c : Card) (h : cardMid op b = some c) : CardOk c := by
  unfold cardMid at h
  repeat' split at h
  all_goals cases h
  all_goals first
    | with_reducible exact cardCaptureConfig_ok _
    | with_reducible exact cardDecimConfig_ok _
    | with_reducible exact cardAccConfig_ok _
    | with_reducible exact cardAccSnapshot_ok _
    | with_reducible exact cardMemPortConfig_ok _
    | with_reducible exact cardMemConfig_ok _
    | with_reducible exact cardMemClock_ok _
    | with_reducible exact cardBar2Set_ok _
    | with_reducible exact cardReadoutRings_ok _
    | with_reducible exact cardCalConfig_ok _
    | with_reducible exact cardCalRun_ok _
    | with_reducible exact cardCalAbort_ok _
    | with_reducible exact cardCalSetUpload_ok _
    | with_reducible exact cardCalSetCommit_ok _
    | with_reducible exact cardCalSetDownload_ok _
    | with_reducible exact cardCalSliceQuery_ok _
    | with_reducible exact cardGroupArm_ok _
    | with_reducible exact cardGroupStop_ok _
    | exact queryCard_ok _ _ _ _ _
    | exact ⟨fun _ s => Frame.refl _ s, fun s => Frame.refl _ s, fun _ s => Frame.refl _ s⟩
    | (split <;> first | with_reducible exact cardGroupArm_ok _ | with_reducible exact cardGroupStop_ok _)

theorem cardHigh_ok (op : Nat) (b : Bytes) (c : Card) (h : cardHigh op b = some c) : CardOk c := by
  unfold cardHigh at h
  repeat' split at h
  all_goals cases h
  all_goals first
    | with_reducible exact cardSeqConfig_ok _
    | with_reducible exact cardSegmentDefine_ok _
    | with_reducible exact cardListWrite_ok _
    | with_reducible exact cardListRead_ok _
    | with_reducible exact cardSegmentReady_ok _
    | with_reducible exact cardStepWrite_ok _
    | with_reducible exact cardSeqEnable_ok _
    | with_reducible exact cardSeqDisable_ok _
    | with_reducible exact cardSeqStart_ok _
    | with_reducible exact cardSeqStopNow_ok _
    | with_reducible exact cardSeqStopBoundary_ok _
    | with_reducible exact cardSeqJump_ok _
    | with_reducible exact cardMonConfig_ok _
    | with_reducible exact cardMonWindowSet_ok _
    | with_reducible exact cardEnumProbe_ok _
    | with_reducible exact cardGroveConfig_ok _
    | with_reducible exact cardGroveRange_ok _
    | with_reducible exact cardGroveAlign_ok _
    | with_reducible exact cardPromote_ok _
    | with_reducible exact cardDemote_ok _
    | with_reducible exact cardGroveStatus_ok _
    | with_reducible exact cardKeyInstall_ok _
    | with_reducible exact cardImageLoad_ok _
    | with_reducible exact cardImageStart_ok _
    | exact queryCard_ok _ _ _ _ _
    | exact ⟨fun _ s => Frame.refl _ s, fun s => Frame.refl _ s, fun _ s => Frame.refl _ s⟩
    | (split <;> first | with_reducible exact cardSeqEnable_ok _ | with_reducible exact cardSeqDisable_ok _ | with_reducible exact cardSeqStopNow_ok _ | with_reducible exact cardSeqStopBoundary_ok _)

theorem configQuery_ok (op : Nat) (b : Bytes) (c : Card) (h : configQuery op b = some c) : CardOk c := by
  unfold configQuery at h
  repeat' split at h
  all_goals cases h
  all_goals first
    | exact queryCard_ok _ _ _ _ _
    | exact ⟨fun _ s => Frame.refl _ s, fun s => Frame.refl _ s, fun _ s => Frame.refl _ s⟩
    | (split <;> first | rfl)

theorem stimQuery_ok (op : Nat) (b : Bytes) (c : Card) (h : stimQuery op b = some c) : CardOk c := by
  unfold stimQuery at h
  repeat' split at h
  all_goals cases h
  all_goals first
    | exact queryCard_ok _ _ _ _ _
    | exact ⟨fun _ s => Frame.refl _ s, fun s => Frame.refl _ s, fun _ s => Frame.refl _ s⟩
    | (split <;> first | rfl)

theorem monQuery_ok (op : Nat) (b : Bytes) (c : Card) (h : monQuery op b = some c) : CardOk c := by
  unfold monQuery at h
  repeat' split at h
  all_goals cases h
  all_goals first
    | exact queryCard_ok _ _ _ _ _
    | exact ⟨fun _ s => Frame.refl _ s, fun s => Frame.refl _ s, fun _ s => Frame.refl _ s⟩
    | (split <;> first | rfl)

theorem groveQuery_ok (op : Nat) (b : Bytes) (c : Card) (h : groveQuery op b = some c) : CardOk c := by
  unfold groveQuery at h
  repeat' split at h
  all_goals cases h
  all_goals first
    | exact queryCard_ok _ _ _ _ _
    | exact ⟨fun _ s => Frame.refl _ s, fun s => Frame.refl _ s, fun _ s => Frame.refl _ s⟩
    | (split <;> first | rfl)

theorem orElse_some {α : Type} {a b : Option α} {c : α} (h : (a <|> b) = some c) : a = some c ∨ b = some c := by
  cases a with
  | none => exact Or.inr h
  | some x => exact Or.inl h

/-- Every command's card. -/
theorem cardOf_ok (op : Nat) (b : Bytes) (c : Card) (h : cardOf op b = some c) : CardOk c := by
  unfold cardOf at h
  rcases orElse_some h with h | h
  · exact cardLow_ok _ _ _ h
  rcases orElse_some h with h | h
  · exact cardMid_ok _ _ _ h
  rcases orElse_some h with h | h
  · exact cardHigh_ok _ _ _ h
  rcases orElse_some h with h | h
  · exact otherQuery_ok _ _ _ h
  rcases orElse_some h with h | h
  · exact configQuery_ok _ _ _ h
  rcases orElse_some h with h | h
  · exact stimQuery_ok _ _ _ h
  rcases orElse_some h with h | h
  · exact monQuery_ok _ _ _ h
  exact groveQuery_ok _ _ _ h

theorem runCard_frame (s : State) (path : Path) (e : Entry) (c : Card) (h : CardOk c) : Frame Part.all s (State.runCard s path e c) := by
  unfold State.runCard; dsimp only
  split
  · exact Frame.step (h.after _) rfl (Frame.step (answerFirst_frame _ _ _ _ _) rfl (Frame.step (countPath_frame _ _ _) rfl (h.run _ _)))
  · exact Frame.step (h.after _) rfl (Frame.step (holdFirst_frame _ _ _ _) rfl (Frame.step (countPath_frame _ _ _) rfl (h.run _ _)))

theorem judgeEntry_frame (s : State) (path : Path) (e : Entry) : Frame Part.all s (State.judgeEntry s path e) := by
  unfold State.judgeEntry
  split
  · exact (turnAway_frame _ _ _ _).widen rfl
  · next h =>
    have k := cardOf_ok _ _ _ h
    split
    · exact Frame.step (turnAway_frame _ _ _ _) rfl (k.refused _ _)
    · exact runCard_frame _ _ _ _ k

theorem examine_frame (s : State) (path : Path) (e : Entry) : Frame Part.all s (State.examine s path e) := by
  unfold State.examine; dsimp only
  split
  · exact Frame.step (discardFirst_frame _ _) rfl ((onFw_frame _ _ (by intro _ h; exact h)).widen rfl)
  · exact Frame.step (judgeEntry_frame _ _ _) rfl ((onFw_frame _ _ (by intro _ h; exact h)).widen rfl)

theorem drain_frame (n : Nat) (s : State) : Frame Part.all s (State.drain n s) := by
  induction n generalizing s with
  | zero => exact Frame.refl _ _
  | succ n ih =>
    unfold State.drain
    split
    · exact Frame.refl _ _
    · exact Frame.step (ih _) rfl (examine_frame _ _ _)

theorem drainAll_frame (s : State) : Frame Part.all s (State.drainAll s) := drain_frame 800 s

theorem commitOf_ok (s : State) (v : Nat) (op : Nat) (b : Bytes) (c : Card) (h : s.commitOf v = some (op, b, c)) : CardOk c := by
  unfold State.commitOf at h
  simp only [Option.bind_eq_some_iff] at h
  obtain ⟨x, _, y, hy, h⟩ := h
  split at h
  · simp only [Option.some.injEq, Prod.mk.injEq] at h
    obtain ⟨_, _, rfl⟩ := h
    exact cardOf_ok _ _ _ hy
  · exact absurd h (by intro k; cases k)

theorem commitWrite_frame (s : State) (v : Nat) : Frame Part.all s (State.commitWrite s v) := by
  unfold State.commitWrite; dsimp only
  split
  · exact Frame.refl _ _
  · split
    · exact Frame.refl _ _
    · next h =>
      have k := commitOf_ok _ _ _ _ _ h
      split
      · exact Frame.step (k.after _) rfl (k.run _ _)
      · exact Frame.step (k.after _) rfl (Frame.step (onSlot_frame _ _ _) rfl (Frame.step (countPath_frame _ _ _) rfl (k.run _ _)))

theorem scQuadPower_frame (s : State) (core : Fin 4) (quad on : Nat) : Frame Part.all s (scQuadPower s core quad on).1 := by
  unfold scQuadPower; dsimp only
  split
  · exact Frame.refl _ _
  · split
    · exact Frame.refl _ _
    · exact (cardQuadPower_ok _).run _ _

theorem serveFunc_frame (s : State) (core : Fin 4) (func : Nat) : Frame Part.all s (State.serveFunc s core func).1 := by
  unfold State.serveFunc; dsimp only
  split
  · exact (scClockPlan_frame _ _).widen rfl
  · exact (scClockSync_frame _ _ _ _).widen rfl
  · exact (scSlew_frame _ _ _ _).widen rfl
  · exact (scMemClock_frame _ _).widen rfl
  · exact (scQuadPower_frame _ _ _ _).widen rfl
  · exact (scCalOpen_frame _ _).widen rfl
  · exact (scCalSwitch_frame _ _ _).widen rfl
  · exact (scCalClose_frame _).widen rfl
  · exact (scGroveIdentity_frame _ _ _ _ _ _).widen rfl
  · exact (scWdtConfig_frame _ _ _).widen rfl
  · exact (scReady_frame _).widen rfl
  · exact (scSubmit_frame _ _ _ _ _ _).widen rfl
  · exact (restart_frame _ _ _ _ _).widen rfl
  · exact (scFault_frame _ _).widen rfl
  · exact (scKeys_frame _).widen rfl
  · exact Frame.refl _ _

theorem serveOne_frame (s : State) (core : Fin 4) : Frame Part.all s (State.serveOne s core) := by
  unfold State.serveOne; dsimp only
  exact Frame.step (endCall_frame _ _ _ _) rfl (serveFunc_frame _ _ _)

theorem serve_frame (n : Nat) (s : State) : Frame Part.all s (State.serve n s) := by
  induction n generalizing s with
  | zero => exact Frame.refl _ _
  | succ n ih =>
    unfold State.serve
    split
    · exact Frame.refl _ _
    · split
      · exact Frame.refl _ _
      · exact Frame.step (ih _) rfl (Frame.step (serveOne_frame _ _) rfl ((onFw_frame _ _ (by intro _ h; exact h)).widen rfl))

/-- Whatever goes on once a row has taken effect keeps what every operation keeps. -/
theorem settle_frame (s : State) : Frame Part.all s (State.settle s) := by
  unfold State.settle
  exact Frame.step (settleSubmits_frame _) rfl (Frame.step (drainAll_frame _) rfl (Frame.step (serve_frame _ _) rfl (drainAll_frame _)))

theorem command_frame (s : State) (h : Hdr) (opcode : Nat) (payload : Bytes) : Frame Part.all s (State.command s h opcode payload) := by
  unfold State.command
  exact Frame.step (settle_frame _) rfl ((arrive_frame _ _ _ _).widen rfl)

theorem serviceCall_frame (s : State) (core : Fin 4) (func : Nat) (args : List Nat) : Frame Part.all s (State.serviceCall s core func args) := by
  unfold State.serviceCall
  repeat' first
    | exact rfl
    | with_reducible apply Frame.refl
    | with_reducible apply Frame.step (settle_frame _)
    | with_reducible apply Frame.step (onCore_frame _ _ _)
    | with_reducible apply Frame.step (onFw_frame _ _ ?_)
    | split
    | (intro _ h; exact h)
    | (intro h; exact h)
    | dsimp only

theorem writeCore_frame (s : State) (c : Fin 4) (off n v : Nat) : Frame Part.all s (State.writeCore s c off n v) := by
  unfold State.writeCore
  repeat' first
    | exact rfl
    | with_reducible apply Frame.refl
    | with_reducible apply Frame.step (kick_frame _ _)
    | with_reducible apply Frame.step (serviceCall_frame _ _ _ _)
    | with_reducible apply Frame.step (onCore_frame _ _ _)
    | split
    | dsimp only

theorem writeSapwood_frame (s : State) (a n v : Nat) : Frame Part.all s (State.writeSapwood s a n v) := by
  unfold State.writeSapwood
  repeat' first
    | exact rfl
    | with_reducible apply Frame.refl
    | (intro w h; simp only [Firmware.wf, Bool.and_eq_true] at h ⊢; exact ⟨h.1, packPut_wf _ _ _ h.2⟩)
    | with_reducible apply Frame.step (writeCore_frame _ _ _ _ _)
    | with_reducible apply Frame.step (commitWrite_frame _ _)
    | with_reducible apply Frame.step (eventPost_frame _ _)
    | with_reducible apply Frame.step (postReply_frame _ _ _)
    | with_reducible apply Frame.step (onSlot_frame _ _ _)
    | with_reducible apply Frame.step (writeWindow_frame _ _ _ _ _)
    | with_reducible apply Frame.step (fwpWrite_frame _ _ _)
    | with_reducible apply Frame.step (putSram_frame _ _ _)
    | with_reducible apply Frame.step (onFw_frame _ _ ?_)
    | split
    | (intro _ h; exact h)
    | (intro h; exact h)
    | dsimp only

end Sys2Proof.Laws
end

