-- ==== Sys2Proof/Laws/FrameEvents.lean ====
section
/-!
SUPPORT. What each shared operation can change, one lemma each: what the events of the families do.
-/
set_option maxRecDepth 2000
namespace Sys2Proof.Laws
open Sys2Proof.Machine

theorem hopEnds_frame (s : State) : Frame [.clock, .ring4, .paths, .host, .fw, .grove, .link] s (State.hopEnds s) := by
  unfold State.hopEnds
  repeat' first
    | exact rfl
    | with_reducible apply Frame.refl
    | with_reducible apply Frame.step (finish_frame _ _ _)
    | with_reducible apply Frame.step (onClock_frame _ _)
    | split
    | dsimp only

theorem coldLocked_frame (s : State) : Frame [.clock, .ring4, .paths, .host, .events, .fw, .grove, .link] s (State.coldLocked s) := by
  unfold State.coldLocked
  repeat' first
    | exact rfl
    | with_reducible apply Frame.refl
    | with_reducible apply Frame.step (hopEnds_frame _)
    | with_reducible apply Frame.step (raise_frame _ _)
    | with_reducible apply Frame.step (onClock_frame _ _)
    | split
    | dsimp only

theorem mainLost_frame (s : State) : Frame [.clock, .rings, .events, .grove, .link] s (State.mainLost s) := by
  unfold State.mainLost
  repeat' first
    | exact rfl
    | with_reducible apply Frame.refl
    | with_reducible apply Frame.step (scheduleStop_frame _)
    | with_reducible apply Frame.step (coldLock_frame _)
    | with_reducible apply Frame.step (dropSnap_frame _)
    | with_reducible apply Frame.step (onClock_frame _ _)
    | split
    | dsimp only

theorem fallbackLost_frame (s : State) : Frame [.clock] s (State.fallbackLost s) := by
  unfold State.fallbackLost
  repeat' first
    | exact rfl
    | with_reducible apply Frame.refl
    | with_reducible apply Frame.step (scheduleStop_frame _)
    | with_reducible apply Frame.step (onClock_frame _ _)
    | split
    | dsimp only

theorem mainWindow_frame (s : State) (count word : Nat) : Frame [.clock, .rings, .ring4, .paths, .host, .events, .fw, .grove, .link] s (State.mainWindow s count word) := by
  unfold State.mainWindow
  repeat' first
    | exact rfl
    | with_reducible apply Frame.refl
    | with_reducible apply Frame.step (mainLost_frame _)
    | with_reducible apply Frame.step (coldLocked_frame _)
    | with_reducible apply Frame.step (hopEnds_frame _)
    | with_reducible apply Frame.step (onClock_frame _ _)
    | split
    | dsimp only

theorem startCommon_frame (s : State) (d : CommonDue) : Frame [.board, .clock, .quads, .events, .grove, .link] s (State.startCommon s d) := by
  unfold State.startCommon
  repeat' first
    | exact rfl
    | with_reducible apply Frame.refl
    | with_reducible apply Frame.step (sayHello_frame _)
    | with_reducible apply Frame.step (bootBit_frame _ _)
    | with_reducible apply Frame.step (raise_frame _ _)
    | with_reducible apply Frame.step (allQuads_frame _ _)
    | with_reducible apply Frame.step (onClock_frame _ _)
    | split
    | dsimp only

theorem syncRealign_frame (s : State) (w : SyncWait) (fraction : Nat) : Frame [.clock, .events, .grove, .link] s (State.syncRealign s w fraction) := by
  unfold State.syncRealign
  repeat' first
    | exact rfl
    | with_reducible apply Frame.refl
    | with_reducible apply Frame.step (load_frame _ _)
    | with_reducible apply Frame.step (startSlew_frame _ _ _ _ _)
    | with_reducible apply Frame.step (raise_frame _ _)
    | with_reducible apply Frame.step (onClock_frame _ _)
    | split
    | dsimp only

theorem referenceLost_frame (s : State) : Frame [.clock, .cal, .rings, .events, .grove, .link] s (State.referenceLost s) := by
  unfold State.referenceLost
  repeat' first
    | exact rfl
    | with_reducible apply Frame.refl
    | with_reducible apply Frame.step (runNoRefin_frame _)
    | with_reducible apply Frame.step (scheduleStop_frame _)
    | with_reducible apply Frame.step (dropSnap_frame _)
    | with_reducible apply Frame.step (raise_frame _ _)
    | with_reducible apply Frame.step (onClock_frame _ _)
    | split
    | dsimp only

theorem referenceBack_frame (s : State) (phase offset : Int) : Frame [.clock, .events, .grove, .link] s (State.referenceBack s phase offset) := by
  unfold State.referenceBack
  repeat' first
    | exact rfl
    | with_reducible apply Frame.refl
    | with_reducible apply Frame.step (startSlew_frame _ _ _ _ _)
    | with_reducible apply Frame.step (raise_frame _ _)
    | with_reducible apply Frame.step (onClock_frame _ _)
    | split
    | dsimp only

theorem slewDone_frame (s : State) (phase : Int) : Frame [.clock, .rings, .events, .grove, .link] s (State.slewDone s phase) := by
  unfold State.slewDone
  repeat' first
    | exact rfl
    | with_reducible apply Frame.refl
    | with_reducible apply Frame.step (endSlew_frame _ _)
    | with_reducible apply Frame.step (startSlew_frame _ _ _ _ _)
    | with_reducible apply Frame.step (onClock_frame _ _)
    | split
    | dsimp only

theorem switchTo_frame (s : State) (x : Nat) (d : Drive) (code : Nat) : Frame [.clock, .events, .grove, .link] s (State.switchTo s x d code) := by
  unfold State.switchTo
  repeat' first
    | exact rfl
    | with_reducible apply Frame.refl
    | with_reducible apply Frame.step (raiseAt_frame _ _ _)
    | with_reducible apply Frame.step (onClock_frame _ _)
    | split
    | dsimp only

theorem stopClocks_frame (s : State) (x : Nat) : Frame [.clock, .inputs, .quads, .cal, .units, .tagged, .decided, .evaluated, .groups, .accs, .trigouts, .mem, .rings, .events, .stim, .grove, .link, .freeCount] s (State.stopClocks s x) := by
  unfold State.stopClocks
  repeat' first
    | exact rfl
    | with_reducible apply Frame.refl
    | with_reducible apply Frame.step (sayHello_frame _)
    | with_reducible apply Frame.step (clocksStopped_frame _ _)
    | with_reducible apply Frame.step (raiseAt_frame _ _ _)
    | with_reducible apply Frame.step (onClock_frame _ _)
    | split
    | dsimp only

theorem restartClocks_frame (s : State) (x uncertainty : Nat) : Frame [.clock, .banks, .events, .grove, .link] s (State.restartClocks s x uncertainty) := by
  unfold State.restartClocks
  repeat' first
    | exact rfl
    | with_reducible apply Frame.refl
    | with_reducible apply Frame.step (sayHello_frame _)
    | with_reducible apply Frame.step (raiseAt_frame _ _ _)
    | with_reducible apply Frame.step (allBanks_frame _ _)
    | with_reducible apply Frame.step (onClock_frame _ _)
    | split
    | dsimp only

theorem bankFault_frame (s : State) (b : Fin 16) (first : Nat) : Frame [.inputs, .banks, .cal, .units, .tagged, .decided, .evaluated, .groups, .accs, .trigouts, .mem, .rings, .events, .stim, .grove, .link, .freeCount] s (State.bankFault s b first) := by
  unfold State.bankFault
  repeat' first
    | exact rfl
    | with_reducible apply Frame.refl
    | with_reducible apply Frame.step (abandonSelf_frame _)
    | with_reducible apply Frame.step (abortRun_frame _)
    | with_reducible apply Frame.step (decideTo_frame _ _)
    | with_reducible apply Frame.step (endGroup_frame _ _ _ _ _)
    | with_reducible apply Frame.step (raiseAt_frame _ _ _)
    | with_reducible apply Frame.step (onBank_frame _ _ _)
    | with_reducible apply Frame.each
    | split
    | intro _ _
    | dsimp only

theorem blockPassed_frame (s : State) (b : Fin 16) (words : List Nat) : Frame [.banks] s (State.blockPassed s b words) := by
  unfold State.blockPassed
  repeat' first
    | exact rfl
    | with_reducible apply Frame.refl
    | with_reducible apply Frame.step (onBank_frame _ _ _)
    | split
    | dsimp only

theorem blockFailed_frame (s : State) (b : Fin 16) : Frame [.inputs, .banks, .cal, .units, .tagged, .decided, .evaluated, .groups, .accs, .trigouts, .mem, .rings, .events, .stim, .grove, .link, .freeCount] s (State.blockFailed s b) := by
  unfold State.blockFailed
  repeat' first
    | exact rfl
    | with_reducible apply Frame.refl
    | with_reducible apply Frame.step (bankFault_frame _ _ _)
    | with_reducible apply Frame.step (onBank_frame _ _ _)
    | split
    | dsimp only

theorem retrainFailed_frame (s : State) (b : Fin 16) : Frame [.board, .clock, .quads, .banks, .cal, .mem, .ring4, .paths, .host, .fw, .grove, .link] s (State.retrainFailed s b) := by
  unfold State.retrainFailed
  repeat' first
    | exact rfl
    | with_reducible apply Frame.refl
    | with_reducible apply Frame.step (bootFail_frame _ _ _)
    | with_reducible apply Frame.step (onBank_frame _ _ _)
    | split
    | dsimp only

theorem takeBlock_frame (s : State) (b : Fin 16) (nv : List Int) : Frame [.banks, .freeCount] s (State.takeBlock s b nv).1 := by
  unfold State.takeBlock
  repeat' first
    | exact rfl
    | with_reducible apply Frame.refl
    | with_reducible apply Frame.step (drawn_frame _ _)
    | with_reducible apply Frame.step (onBank_frame _ _ _)
    | split
    | dsimp only

theorem received_frame (s : State) (b : Fin 16) (data : LinkData) : Frame [.banks, .freeCount] s (State.received s b data).1 := by
  unfold State.received
  repeat' first
    | exact rfl
    | with_reducible apply Frame.refl
    | with_reducible apply Frame.step (takeBlock_frame _ _ _)
    | split
    | dsimp only

theorem trialBlock_frame (s : State) (b : Fin 16) (n : Nat) (ok : Bool) : Frame [.board, .clock, .quads, .banks, .cal, .mem, .ring4, .paths, .host, .fw, .grove, .link] s (State.trialBlock s b n ok) := by
  unfold State.trialBlock
  repeat' first
    | exact rfl
    | with_reducible apply Frame.refl
    | with_reducible apply Frame.step (retrainFailed_frame _ _)
    | with_reducible apply Frame.step (onBank_frame _ _ _)
    | split
    | dsimp only

theorem linkBlock_frame (s : State) (b : Fin 16) (data : LinkData) : Frame [.board, .clock, .inputs, .quads, .banks, .cal, .units, .tagged, .decided, .evaluated, .groups, .accs, .trigouts, .mem, .rings, .ring4, .paths, .host, .events, .fw, .stim, .grove, .link, .freeCount] s (State.linkBlock s b data) := by
  unfold State.linkBlock
  repeat' first
    | exact rfl
    | with_reducible apply Frame.refl
    | with_reducible apply Frame.step (trialBlock_frame _ _ _ _)
    | with_reducible apply Frame.step (received_frame _ _ _)
    | with_reducible apply Frame.step (blockFailed_frame _ _)
    | with_reducible apply Frame.step (blockPassed_frame _ _ _)
    | split
    | dsimp only

theorem release_frame (s : State) (b : Fin 16) (blk : Block) : Frame [.banks] s (State.release s b blk) := by
  unfold State.release
  repeat' first
    | exact rfl
    | with_reducible apply Frame.refl
    | with_reducible apply Frame.step (trim_frame _ _)
    | with_reducible apply Frame.step (onBank_frame _ _ _)
    | split
    | dsimp only

theorem assemblyFails_frame (s : State) (g : Fin 4) : Frame [.groups, .accs, .trigouts, .mem, .events, .grove, .link, .freeCount] s (State.assemblyFails s g) := by
  unfold State.assemblyFails
  repeat' first
    | exact rfl
    | with_reducible apply Frame.refl
    | with_reducible apply Frame.step (tryDone_frame _ _)
    | with_reducible apply Frame.step (raise_frame _ _)
    | with_reducible apply Frame.step (onGroup_frame _ _ _)
    | split
    | dsimp only

theorem ringWrite_frame (s : State) (b : Fin 16) (overrun : Bool) : Frame [.groups, .accs, .trigouts, .mem, .events, .grove, .link, .freeCount] s (State.ringWrite s b overrun) := by
  unfold State.ringWrite
  repeat' first
    | exact rfl
    | with_reducible apply Frame.refl
    | with_reducible apply Frame.step (assemblyFails_frame _ _)
    | with_reducible apply Frame.step (raise_frame _ _)
    | with_reducible apply Frame.each
    | split
    | intro _ _
    | dsimp only

theorem quadStep_frame {ps : List Part} {s t : State} (q : Fin 4) (a : QuadState) (after : Nat) (b : QuadState) (f : State → State)
    (w : partsIn [.quads] ps = true) (hf : ∀ s, Frame ps s (f s)) (k : Frame ps s t) : Frame ps s (State.quadStep t q a after b f) := by
  unfold State.quadStep; dsimp only
  split
  · exact Frame.step (hf _) (partsIn_self ps) (Frame.step (onQuad_frame _ _ _) w k)
  · exact k

theorem quadReady_frame (s : State) (q : Fin 4) : Frame [.board, .quads, .events, .grove, .link] s (State.quadReady s q) := by
  unfold State.quadReady
  repeat' first
    | exact rfl
    | with_reducible apply Frame.refl
    | with_reducible apply Frame.step (noteReady_frame _)
    | with_reducible apply Frame.step (bootBit_frame _ _)
    | with_reducible apply Frame.step (raise_frame _ _)
    | with_reducible apply Frame.step (onQuad_frame _ _ _)
    | split
    | dsimp only

theorem triginEdge_frame (s : State) (pin : Fin 4) (level : Bool) (time : Nat) : Frame [.board, .units, .tagged] s (State.triginEdge s pin level time) := by
  unfold State.triginEdge
  repeat' first
    | exact rfl
    | with_reducible apply Frame.refl
    | with_reducible apply Frame.step (tag_frame _ _)
    | with_reducible apply Frame.step (onBoard_frame _ _)
    | split
    | dsimp only

theorem fillEnds_frame (s : State) (g : Fin 4) : Frame [.groups, .trigouts] s (State.fillEnds s g) := by
  unfold State.fillEnds
  repeat' first
    | exact rfl
    | with_reducible apply Frame.refl
    | with_reducible apply Frame.step (closeGroup_frame _ _ _ _)
    | with_reducible apply Frame.step (setGroupState_frame _ _ _)
    | with_reducible apply Frame.step (onGroup_frame _ _ _)
    | split
    | dsimp only

theorem taintRecord_frame (s : State) (g : Fin 4) (taint : Option (Nat × Nat)) : Frame [.groups, .events, .grove, .link] s (State.taintRecord s g taint) := by
  unfold State.taintRecord
  repeat' first
    | exact rfl
    | with_reducible apply Frame.refl
    | with_reducible apply Frame.step (raise_frame _ _)
    | with_reducible apply Frame.step (onGroup_frame _ _ _)
    | split
    | dsimp only

theorem segmentBlock_frame (s : State) (g : Fin 4) (r : Record) (tainted : Bool) : Frame [.groups, .mem] s (State.segmentBlock s g r tainted) := by
  unfold State.segmentBlock
  repeat' first
    | exact rfl
    | with_reducible apply Frame.refl
    | with_reducible apply Frame.step (onMem_frame _ _ ?_)
    | with_reducible apply Frame.step (onGroup_frame _ _ _)
    | split
    | (intro _ h; exact h)
    | (intro h; exact h)
    | (intro m h; exact put_wf _ _ _ h)
    | dsimp only

theorem streamData_frame (s : State) (g : Fin 4) (r : Record) (tainted : Bool) : Frame [.groups, .mem, .events, .grove, .link] s (State.streamData s g r tainted) := by
  unfold State.streamData
  repeat' first
    | exact rfl
    | with_reducible apply Frame.refl
    | with_reducible apply Frame.step (putStream_frame _ _ _)
    | with_reducible apply Frame.step (streamOverflow_frame _ _ _)
    | with_reducible apply Frame.step (onGroup_frame _ _ _)
    | split
    | dsimp only

theorem completeRecord_frame (s : State) (g : Fin 4) (r : Record) (stop : Nat) : Frame [.groups, .accs, .trigouts, .mem, .rings, .events, .grove, .link, .freeCount] s (State.completeRecord s g r stop) := by
  unfold State.completeRecord
  repeat' first
    | exact rfl
    | with_reducible apply Frame.refl
    | with_reducible apply Frame.step (openStream_frame _ _)
    | with_reducible apply Frame.step (putStream_frame _ _ _)
    | with_reducible apply Frame.step (placeMissed_frame _ _)
    | with_reducible apply Frame.step (addItem_frame _ _ _)
    | with_reducible apply Frame.step (tryDone_frame _ _)
    | with_reducible apply Frame.step (onMem_frame _ _ ?_)
    | with_reducible apply Frame.step (onAcc_frame _ _ _)
    | with_reducible apply Frame.step (onGroup_frame _ _ _)
    | split
    | (intro _ h; exact h)
    | (intro h; exact h)
    | (intro m h; exact put_wf _ _ _ h)
    | dsimp only

theorem countBoundary_frame (s : State) (g : Fin 4) (seq : Nat) : Frame [.groups, .accs, .trigouts, .mem, .events, .grove, .link, .freeCount] s (State.countBoundary s g seq) := by
  unfold State.countBoundary
  repeat' first
    | exact rfl
    | with_reducible apply Frame.refl
    | with_reducible apply Frame.step (tryDone_frame _ _)
    | with_reducible apply Frame.step (takeSnap_frame _ _ _ _ _)
    | with_reducible apply Frame.step (raise_frame _ _)
    | with_reducible apply Frame.step (onAcc_frame _ _ _)
    | with_reducible apply Frame.step (onGroup_frame _ _ _)
    | split
    | dsimp only

theorem commitRecord_frame (s : State) (g : Fin 4) (r : Record) (stop flags : Nat) : Frame [.groups, .accs, .trigouts, .mem, .events, .grove, .link, .freeCount] s (State.commitRecord s g r stop flags) := by
  unfold State.commitRecord
  repeat' first
    | exact rfl
    | with_reducible apply Frame.refl
    | with_reducible apply Frame.step (countBoundary_frame _ _ _)
    | with_reducible apply Frame.step (putAcc_frame _ _ _)
    | with_reducible apply Frame.step (onAcc_frame _ _ _)
    | split
    | dsimp only

theorem accPoison_frame (s : State) (unit : Nat) : Frame [.accs, .events, .grove, .link] s (State.accPoison s unit) := by
  unfold State.accPoison
  repeat' first
    | exact rfl
    | with_reducible apply Frame.refl
    | with_reducible apply Frame.step (raise_frame _ _)
    | with_reducible apply Frame.step (onAcc_frame _ _ _)
    | with_reducible apply Frame.each
    | split
    | intro _ _
    | dsimp only

theorem readReturn_frame (s : State) (port : Fin 23) (ecc : Ecc) : Frame [.accs, .mem, .events, .grove, .link, .freeCount] s (State.readReturn s port ecc) := by
  unfold State.readReturn
  repeat' first
    | exact rfl
    | with_reducible apply Frame.refl
    | with_reducible apply Frame.step (accPoison_frame _ _)
    | with_reducible apply Frame.step (eccReport_frame _ _ _)
    | with_reducible apply Frame.step (arrayRead_frame _ _ _)
    | with_reducible apply Frame.step (onMem_frame _ _ ?_)
    | split
    | (intro _ h; exact h)
    | (intro h; exact h)
    | (intro m h; exact put_wf _ _ _ h)
    | dsimp only

theorem stackTemp_frame (s : State) (k : Fin 4) (temp : Int) : Frame [.mem, .events, .grove, .link] s (State.stackTemp s k temp) := by
  unfold State.stackTemp
  repeat' first
    | exact rfl
    | with_reducible apply Frame.refl
    | (intro m h; split; exact pullIn_wf _ _ _ (restartCadence_wf _ _ _ h); exact restartCadence_wf _ _ _ h)
    | with_reducible apply Frame.step (raise_frame _ _)
    | with_reducible apply Frame.step (onMem_frame _ _ ?_)
    | split
    | (intro _ h; exact h)
    | (intro h; exact h)
    | (intro m h; exact put_wf _ _ _ h)
    | dsimp only

theorem armReinit_frame (s : State) (g : Fin 4) : Frame [.inputs, .quads, .banks, .cal, .units, .tagged, .decided, .evaluated, .groups, .accs, .trigouts, .mem, .rings, .ring4, .paths, .host, .events, .fw, .stim, .grove, .link, .freeCount] s (State.armReinit s g) := by
  unfold State.armReinit
  repeat' first
    | exact rfl
    | with_reducible apply Frame.refl
    | with_reducible apply Frame.step (regrain_frame _ _ _)
    | with_reducible apply Frame.step (armNow_frame _ _)
    | with_reducible apply Frame.step (finish_frame _ _ _)
    | split
    | dsimp only

theorem seqReinit_frame (s : State) : Frame [.mem, .ring4, .paths, .host, .fw, .stim, .grove, .link] s (State.seqReinit s) := by
  unfold State.seqReinit
  repeat' first
    | exact rfl
    | with_reducible apply Frame.refl
    | with_reducible apply Frame.step (seqEnabled_frame _)
    | with_reducible apply Frame.step (regrain_frame _ _ _)
    | split
    | dsimp only

theorem relocked_frame (s : State) : Frame [.mem, .ring4, .paths, .host, .events, .fw, .grove, .link] s (State.relocked s) := by
  unfold State.relocked
  repeat' first
    | exact rfl
    | with_reducible apply Frame.refl
    | with_reducible apply Frame.step (startTraining_frame _ _)
    | with_reducible apply Frame.step (makeQueued_frame _ _ _)
    | split
    | dsimp only

theorem trained_frame (s : State) : Frame [.board, .mem, .ring4, .paths, .host, .events, .fw, .grove, .link] s (State.trained s) := by
  unfold State.trained
  repeat' first
    | exact rfl
    | with_reducible apply Frame.refl
    | (intro m h; exact memFold_wf _ _ (fun m k h => restartCadence_wf m k _ h) _ h)
    | with_reducible apply Frame.step (bootBit_frame _ _)
    | with_reducible apply Frame.step (memClockDone_frame _ _ _ _)
    | with_reducible apply Frame.step (finish_frame _ _ _)
    | with_reducible apply Frame.step (onMem_frame _ _ ?_)
    | with_reducible apply Frame.each
    | with_reducible apply Frame.fold
    | with_reducible apply Frame.foldPair
    | split
    | (intro _ h; exact h)
    | (intro h; exact h)
    | (intro m h; exact put_wf _ _ _ h)
    | intro _ _
    | dsimp only

theorem trainFailed_frame (s : State) (failed : List (Fin 4)) (pass : Nat) : Frame [.board, .clock, .quads, .cal, .mem, .ring4, .paths, .host, .events, .fw, .grove, .link] s (State.trainFailed s failed pass) := by
  unfold State.trainFailed
  repeat' first
    | exact rfl
    | with_reducible apply Frame.refl
    | with_reducible apply Frame.step (fatal_frame _ _ _ _ _)
    | with_reducible apply Frame.step (raise_frame _ _)
    | with_reducible apply Frame.each
    | split
    | intro _ _
    | dsimp only

theorem passDone_frame (s : State) (failed : BitVec 4) : Frame [.board, .clock, .quads, .cal, .mem, .ring4, .paths, .host, .events, .fw, .grove, .link] s (State.passDone s failed) := by
  unfold State.passDone
  repeat' first
    | exact rfl
    | with_reducible apply Frame.refl
    | with_reducible apply Frame.step (trainFailed_frame _ _ _)
    | with_reducible apply Frame.step (trained_frame _)
    | with_reducible apply Frame.step (makeQueued_frame _ _ _)
    | with_reducible apply Frame.step (onMem_frame _ _ ?_)
    | split
    | (intro _ h; exact h)
    | (intro h; exact h)
    | (intro m h; exact put_wf _ _ _ h)
    | dsimp only

theorem memInitEnds_frame (s : State) (failed : Option (Fin 4)) : Frame [.board, .clock, .quads, .cal, .mem, .ring4, .paths, .host, .fw, .grove, .link] s (State.memInitEnds s failed) := by
  unfold State.memInitEnds
  repeat' first
    | exact rfl
    | with_reducible apply Frame.refl
    | (intro m h; exact packWf_nil (d := initByte))
    | with_reducible apply Frame.step (noteReady_frame _)
    | with_reducible apply Frame.step (bootBit_frame _ _)
    | with_reducible apply Frame.step (bootFail_frame _ _ _)
    | with_reducible apply Frame.step (onMem_frame _ _ ?_)
    | split
    | (intro _ h; exact h)
    | (intro h; exact h)
    | (intro m h; exact put_wf _ _ _ h)
    | dsimp only

theorem bar2Write_frame (s : State) (a : Nat) (d : Bytes) : Frame [.mem, .stim] s (State.bar2Write s a d) := by
  unfold State.bar2Write
  repeat' first
    | exact rfl
    | with_reducible apply Frame.refl
    | with_reducible apply Frame.step (fwpWrite_frame _ _ _)
    | with_reducible apply Frame.step (onMem_frame _ _ ?_)
    | with_reducible apply Frame.step (onStim_frame _ _)
    | (intro _ h; exact h)
    | dsimp only

theorem bar2Access_frame (s : State) (offset : Nat) (access : Bar2Op) : Frame [.mem, .bar2Out, .freeCount, .stim] s (State.bar2Access s offset access) := by
  unfold State.bar2Access
  repeat' first
    | exact rfl
    | with_reducible apply Frame.refl
    | with_reducible apply Frame.step (bar2Write_frame _ _ _)
    | with_reducible apply Frame.step (fwpRead_frame _ _ _)
    | with_reducible apply Frame.step (bar2Returns_frame _ _)
    | split
    | dsimp only

theorem postCompletion_frame (s : State) (ring : Fin 5) (lane : CplLane) : Frame [.board, .clock, .inputs, .quads, .banks, .cal, .units, .tagged, .decided, .evaluated, .groups, .accs, .trigouts, .mem, .rings, .ring4, .paths, .host, .events, .fw, .shadows, .stim, .mon, .grove, .link] s (State.postCompletion s ring lane) := by
  unfold State.postCompletion
  repeat' first
    | exact rfl
    | with_reducible apply Frame.refl
    | with_reducible apply Frame.step (applyReset_frame _)
    | with_reducible apply Frame.step (postRing4_frame _ _)
    | with_reducible apply Frame.step (postLane_frame _ _ _)
    | split
    | dsimp only

theorem runTo_frame (s : State) (r : CalRun) (q : Fin 4) (p : CalPhase) (start : Nat) : Frame [.cal] s (State.runTo s r q p start) := by
  unfold State.runTo
  repeat' first
    | exact rfl
    | with_reducible apply Frame.refl
    | with_reducible apply Frame.step (onCal_frame _ _ ?_)
    | split
    | (intro _ h; exact h)
    | (intro h; exact h)
    | dsimp only

theorem leakageEnds_frame (s : State) (q : Fin 4) (squares : List Nat) : Frame [.quads, .cal, .events, .grove, .link] s (State.leakageEnds s q squares) := by
  unfold State.leakageEnds
  repeat' first
    | exact rfl
    | with_reducible apply Frame.refl
    | with_reducible apply Frame.step (runTo_frame _ _ _ _ _)
    | with_reducible apply Frame.step (nextQuad_frame _)
    | with_reducible apply Frame.step (leaveConnect_frame _ _ _)
    | with_reducible apply Frame.step (onCal_frame _ _ ?_)
    | split
    | (intro _ h; exact h)
    | (intro h; exact h)
    | dsimp only

theorem compareEnds_frame (s : State) (q : Fin 4) (point : Bytes) : Frame [.quads, .cal] s (State.compareEnds s q point) := by
  unfold State.compareEnds
  repeat' first
    | exact rfl
    | with_reducible apply Frame.refl
    | with_reducible apply Frame.step (runTo_frame _ _ _ _ _)
    | with_reducible apply Frame.step (returnSwitch_frame _ _ _)
    | split
    | dsimp only

theorem monSlot_frame (s : State) (slot : Fin 16) (code : Nat) (ovr : Bool) : Frame [.board, .clock, .quads, .cal, .units, .tagged, .mem, .ring4, .paths, .host, .events, .fw, .mon, .grove, .link] s (State.monSlot s slot code ovr) := by
  unfold State.monSlot
  repeat' first
    | exact rfl
    | with_reducible apply Frame.refl
    | with_reducible apply Frame.step (fatal_frame _ _ _ _ _)
    | with_reducible apply Frame.step (slotEnd_frame _ _ _ _)
    | split
    | dsimp only

theorem xoSeen_frame (s : State) : Frame [.clock] s (State.xoSeen s) := by
  unfold State.xoSeen
  repeat' first
    | exact rfl
    | with_reducible apply Frame.refl
    | with_reducible apply Frame.step (onClock_frame _ _)
    | split
    | dsimp only

theorem controlOn_frame (s : State) (n : Nat) : Frame [.quads] s (State.controlOn s n) := by
  unfold State.controlOn
  repeat' first
    | exact rfl
    | with_reducible apply Frame.refl
    | with_reducible apply Frame.step (onQuad_frame _ _ _)
    | with_reducible apply Frame.each
    | split
    | intro _ _
    | dsimp only

theorem selftest_frame (s : State) (r : SelfTest) : Frame [.board, .clock, .quads, .cal, .mem, .ring4, .paths, .host, .events, .fw, .grove, .link] s (State.selftest s r) := by
  unfold State.selftest
  repeat' first
    | exact rfl
    | with_reducible apply Frame.refl
    | with_reducible apply Frame.step (controlOn_frame _ _)
    | with_reducible apply Frame.step (xoSeen_frame _)
    | with_reducible apply Frame.step (bootBit_frame _ _)
    | with_reducible apply Frame.step (fatal_frame _ _ _ _ _)
    | with_reducible apply Frame.step (bootFail_frame _ _ _)
    | with_reducible apply Frame.step (onBoard_frame _ _)
    | split
    | dsimp only

theorem selfStart_frame (s : State) : Frame [.cal] s (State.selfStart s) := by
  unfold State.selfStart
  repeat' first
    | exact rfl
    | with_reducible apply Frame.refl
    | with_reducible apply Frame.step (onCal_frame _ _ ?_)
    | split
    | (intro _ h; exact h)
    | (intro h; exact h)
    | dsimp only

theorem selfEnds_frame (s : State) (c : SelfCal) (outcomes : List Nat) (points : List (Nat × Bytes)) : Frame [.board, .inputs, .quads, .banks, .cal, .units, .tagged, .decided, .evaluated, .groups, .accs, .trigouts, .mem, .rings, .events, .stim, .grove, .link, .freeCount] s (State.selfEnds s c outcomes points) := by
  unfold State.selfEnds
  repeat' first
    | exact rfl
    | with_reducible apply Frame.refl
    | with_reducible apply Frame.step (noteReady_frame _)
    | with_reducible apply Frame.step (bootBit_frame _ _)
    | with_reducible apply Frame.step (countCal_frame _ _)
    | with_reducible apply Frame.step (setPends_frame _ _)
    | with_reducible apply Frame.step (onCal_frame _ _ ?_)
    | split
    | (intro _ h; exact h)
    | (intro h; exact h)
    | dsimp only

theorem convergeEnds_frame (s : State) (c : SelfCal) (n : Nat) : Frame [.board, .clock, .inputs, .quads, .banks, .cal, .units, .tagged, .decided, .evaluated, .groups, .accs, .trigouts, .mem, .rings, .ring4, .paths, .host, .events, .fw, .stim, .grove, .link, .freeCount] s (State.convergeEnds s c n) := by
  unfold State.convergeEnds
  repeat' first
    | exact rfl
    | with_reducible apply Frame.refl
    | with_reducible apply Frame.step (selfEnds_frame _ _ _ _)
    | with_reducible apply Frame.step (bootFail_frame _ _ _)
    | with_reducible apply Frame.step (onCal_frame _ _ ?_)
    | split
    | (intro _ h; exact h)
    | (intro h; exact h)
    | dsimp only

theorem selfPhaseEnds_frame (s : State) (res : SelfPhaseEnd) : Frame [.board, .clock, .inputs, .quads, .banks, .cal, .units, .tagged, .decided, .evaluated, .groups, .accs, .trigouts, .mem, .rings, .ring4, .paths, .host, .events, .fw, .stim, .grove, .link, .freeCount] s (State.selfPhaseEnds s res) := by
  unfold State.selfPhaseEnds
  repeat' first
    | exact rfl
    | with_reducible apply Frame.refl
    | with_reducible apply Frame.step (convergeEnds_frame _ _ _)
    | with_reducible apply Frame.step (selfEnds_frame _ _ _ _)
    | with_reducible apply Frame.step (onCal_frame _ _ ?_)
    | split
    | (intro _ h; exact h)
    | (intro h; exact h)
    | dsimp only

theorem alertResponse_frame (s : State) : Frame [.board] s (State.alertResponse s) := by
  unfold State.alertResponse
  repeat' first
    | exact rfl
    | with_reducible apply Frame.refl
    | with_reducible apply Frame.step (smbRead_frame _ _ _)
    | with_reducible apply Frame.step (onBoard_frame _ _)
    | split
    | dsimp only

theorem lanesLost_frame (s : State) (p : Fin 5) (lane : Fin 4) : Frame [.events, .grove, .link] s (State.lanesLost s p lane) := by
  unfold State.lanesLost
  repeat' first
    | exact rfl
    | with_reducible apply Frame.refl
    | with_reducible apply Frame.step (portDown_frame _ _ _)
    | with_reducible apply Frame.step (onPort_frame _ _ _)
    | split
    | dsimp only

/-- An event row answers a next state, and keeps what every operation keeps where its change does. -/
theorem event_frame (s : State) (t : Nat) (f : State → State) (hf : ∀ s, Frame Part.all s (f s)) :
    ∃ u, s.event t f = .next u ∧ Frame Part.all s u :=
  ⟨_, rfl, Frame.step (settle_frame _) rfl (Frame.step (hf _) rfl ((advance_frame s t).widen rfl))⟩

/-- A row of the grove as well: without the bough transmitters it changes nothing (R426). -/
theorem bough_frame (s : State) (t : Nat) (f : State → State) (hf : ∀ s, Frame Part.all s (f s)) :
    ∃ u, s.bough t f = .next u ∧ Frame Part.all s u :=
  event_frame s t _ fun s => by
    split
    · exact hf s
    · exact Frame.refl _ s

end Sys2Proof.Laws
end

