-- ==== Sys2Proof/Laws/State.lean ====
section
/-!
SUPPORT. What each update of the state leaves in each of its parts, each equation true by definition and a simp lemma; and the elements of a vector with one of them changed.
-/
namespace Sys2Proof.Machine

@[simp] theorem vmod_get_self {α : Type} {n : Nat} (v : Vector α n) (i : Fin n) (f : α → α) : (vmod v i f).get i = f (v.get i) := by
  show (v.set i.val (f (v.get i)) i.isLt)[i.val] = f (v.get i)
  simp

theorem vmod_get_ne {α : Type} {n : Nat} (v : Vector α n) (i j : Fin n) (f : α → α) (h : i ≠ j) : (vmod v i f).get j = v.get j := by
  have h' : i.val ≠ j.val := fun e => h (Fin.ext e)
  show (v.set i.val (f (v.get i)) i.isLt)[j.val] = v[j.val]
  simp [h']

theorem vmod_get {α : Type} {n : Nat} (v : Vector α n) (i j : Fin n) (f : α → α) :
    (vmod v i f).get j = if i = j then f (v.get i) else v.get j := by
  split
  · next h => subst h; exact vmod_get_self v i f
  · next h => exact vmod_get_ne v i j f h

@[simp] theorem State.path_onPath_self (s : State) (p : Path) (f : PathState → PathState) : (s.onPath p f).path p = f (s.path p) := vmod_get_self _ _ _

theorem Path.idx_ne {p q : Path} (h : p ≠ q) : p.idx ≠ q.idx := by cases p <;> cases q <;> first | exact absurd rfl h | decide

theorem State.path_onPath_ne (s : State) (p q : Path) (f : PathState → PathState) (h : p ≠ q) : (s.onPath p f).path q = s.path q :=
  vmod_get_ne _ _ _ _ (Path.idx_ne h)

@[simp] theorem State.onQuad_parts (s : State) (q : Fin 4) (f : Quad → Quad) :
    (s.onQuad q f).now = s.now ∧ (s.onQuad q f).is96 = s.is96 ∧ (s.onQuad q f).board = s.board ∧ (s.onQuad q f).clock = s.clock ∧
    (s.onQuad q f).inputs = s.inputs ∧ (s.onQuad q f).quads = vmod s.quads q f ∧ (s.onQuad q f).banks = s.banks ∧ (s.onQuad q f).cal = s.cal ∧
    (s.onQuad q f).units = s.units ∧ (s.onQuad q f).tagged = s.tagged ∧ (s.onQuad q f).decided = s.decided ∧ (s.onQuad q f).evaluated = s.evaluated ∧
    (s.onQuad q f).groups = s.groups ∧ (s.onQuad q f).accs = s.accs ∧ (s.onQuad q f).trigouts = s.trigouts ∧ (s.onQuad q f).mem = s.mem ∧
    (s.onQuad q f).rings = s.rings ∧ (s.onQuad q f).ring4 = s.ring4 ∧ (s.onQuad q f).paths = s.paths ∧ (s.onQuad q f).host = s.host ∧
    (s.onQuad q f).events = s.events ∧ (s.onQuad q f).fw = s.fw ∧ (s.onQuad q f).shadows = s.shadows ∧ (s.onQuad q f).stim = s.stim ∧
    (s.onQuad q f).mon = s.mon ∧ (s.onQuad q f).grove = s.grove ∧ (s.onQuad q f).link = s.link ∧ (s.onQuad q f).readValues = s.readValues ∧
    (s.onQuad q f).bar2Out = s.bar2Out ∧ (s.onQuad q f).freeCount = s.freeCount ∧ (s.onQuad q f).pending = s.pending := by
  and_intros <;> rfl

@[simp] theorem State.onBank_parts (s : State) (b : Fin 16) (f : Bank → Bank) :
    (s.onBank b f).now = s.now ∧ (s.onBank b f).is96 = s.is96 ∧ (s.onBank b f).board = s.board ∧ (s.onBank b f).clock = s.clock ∧
    (s.onBank b f).inputs = s.inputs ∧ (s.onBank b f).quads = s.quads ∧ (s.onBank b f).banks = vmod s.banks b f ∧ (s.onBank b f).cal = s.cal ∧
    (s.onBank b f).units = s.units ∧ (s.onBank b f).tagged = s.tagged ∧ (s.onBank b f).decided = s.decided ∧ (s.onBank b f).evaluated = s.evaluated ∧
    (s.onBank b f).groups = s.groups ∧ (s.onBank b f).accs = s.accs ∧ (s.onBank b f).trigouts = s.trigouts ∧ (s.onBank b f).mem = s.mem ∧
    (s.onBank b f).rings = s.rings ∧ (s.onBank b f).ring4 = s.ring4 ∧ (s.onBank b f).paths = s.paths ∧ (s.onBank b f).host = s.host ∧
    (s.onBank b f).events = s.events ∧ (s.onBank b f).fw = s.fw ∧ (s.onBank b f).shadows = s.shadows ∧ (s.onBank b f).stim = s.stim ∧
    (s.onBank b f).mon = s.mon ∧ (s.onBank b f).grove = s.grove ∧ (s.onBank b f).link = s.link ∧ (s.onBank b f).readValues = s.readValues ∧
    (s.onBank b f).bar2Out = s.bar2Out ∧ (s.onBank b f).freeCount = s.freeCount ∧ (s.onBank b f).pending = s.pending := by
  and_intros <;> rfl

@[simp] theorem State.onInput_parts (s : State) (i : Fin 16) (f : Input → Input) :
    (s.onInput i f).now = s.now ∧ (s.onInput i f).is96 = s.is96 ∧ (s.onInput i f).board = s.board ∧ (s.onInput i f).clock = s.clock ∧
    (s.onInput i f).inputs = vmod s.inputs i f ∧ (s.onInput i f).quads = s.quads ∧ (s.onInput i f).banks = s.banks ∧ (s.onInput i f).cal = s.cal ∧
    (s.onInput i f).units = s.units ∧ (s.onInput i f).tagged = s.tagged ∧ (s.onInput i f).decided = s.decided ∧
    (s.onInput i f).evaluated = s.evaluated ∧ (s.onInput i f).groups = s.groups ∧ (s.onInput i f).accs = s.accs ∧
    (s.onInput i f).trigouts = s.trigouts ∧ (s.onInput i f).mem = s.mem ∧ (s.onInput i f).rings = s.rings ∧ (s.onInput i f).ring4 = s.ring4 ∧
    (s.onInput i f).paths = s.paths ∧ (s.onInput i f).host = s.host ∧ (s.onInput i f).events = s.events ∧ (s.onInput i f).fw = s.fw ∧
    (s.onInput i f).shadows = s.shadows ∧ (s.onInput i f).stim = s.stim ∧ (s.onInput i f).mon = s.mon ∧ (s.onInput i f).grove = s.grove ∧
    (s.onInput i f).link = s.link ∧ (s.onInput i f).readValues = s.readValues ∧ (s.onInput i f).bar2Out = s.bar2Out ∧
    (s.onInput i f).freeCount = s.freeCount ∧ (s.onInput i f).pending = s.pending := by
  and_intros <;> rfl

@[simp] theorem State.onUnit_parts (s : State) (u : Fin 8) (f : TUnit → TUnit) :
    (s.onUnit u f).now = s.now ∧ (s.onUnit u f).is96 = s.is96 ∧ (s.onUnit u f).board = s.board ∧ (s.onUnit u f).clock = s.clock ∧
    (s.onUnit u f).inputs = s.inputs ∧ (s.onUnit u f).quads = s.quads ∧ (s.onUnit u f).banks = s.banks ∧ (s.onUnit u f).cal = s.cal ∧
    (s.onUnit u f).units = vmod s.units u f ∧ (s.onUnit u f).tagged = s.tagged ∧ (s.onUnit u f).decided = s.decided ∧
    (s.onUnit u f).evaluated = s.evaluated ∧ (s.onUnit u f).groups = s.groups ∧ (s.onUnit u f).accs = s.accs ∧ (s.onUnit u f).trigouts = s.trigouts ∧
    (s.onUnit u f).mem = s.mem ∧ (s.onUnit u f).rings = s.rings ∧ (s.onUnit u f).ring4 = s.ring4 ∧ (s.onUnit u f).paths = s.paths ∧
    (s.onUnit u f).host = s.host ∧ (s.onUnit u f).events = s.events ∧ (s.onUnit u f).fw = s.fw ∧ (s.onUnit u f).shadows = s.shadows ∧
    (s.onUnit u f).stim = s.stim ∧ (s.onUnit u f).mon = s.mon ∧ (s.onUnit u f).grove = s.grove ∧ (s.onUnit u f).link = s.link ∧
    (s.onUnit u f).readValues = s.readValues ∧ (s.onUnit u f).bar2Out = s.bar2Out ∧ (s.onUnit u f).freeCount = s.freeCount ∧
    (s.onUnit u f).pending = s.pending := by
  and_intros <;> rfl

@[simp] theorem State.onGroup_parts (s : State) (g : Fin 4) (f : Group → Group) :
    (s.onGroup g f).now = s.now ∧ (s.onGroup g f).is96 = s.is96 ∧ (s.onGroup g f).board = s.board ∧ (s.onGroup g f).clock = s.clock ∧
    (s.onGroup g f).inputs = s.inputs ∧ (s.onGroup g f).quads = s.quads ∧ (s.onGroup g f).banks = s.banks ∧ (s.onGroup g f).cal = s.cal ∧
    (s.onGroup g f).units = s.units ∧ (s.onGroup g f).tagged = s.tagged ∧ (s.onGroup g f).decided = s.decided ∧
    (s.onGroup g f).evaluated = s.evaluated ∧ (s.onGroup g f).groups = vmod s.groups g f ∧ (s.onGroup g f).accs = s.accs ∧
    (s.onGroup g f).trigouts = s.trigouts ∧ (s.onGroup g f).mem = s.mem ∧ (s.onGroup g f).rings = s.rings ∧ (s.onGroup g f).ring4 = s.ring4 ∧
    (s.onGroup g f).paths = s.paths ∧ (s.onGroup g f).host = s.host ∧ (s.onGroup g f).events = s.events ∧ (s.onGroup g f).fw = s.fw ∧
    (s.onGroup g f).shadows = s.shadows ∧ (s.onGroup g f).stim = s.stim ∧ (s.onGroup g f).mon = s.mon ∧ (s.onGroup g f).grove = s.grove ∧
    (s.onGroup g f).link = s.link ∧ (s.onGroup g f).readValues = s.readValues ∧ (s.onGroup g f).bar2Out = s.bar2Out ∧
    (s.onGroup g f).freeCount = s.freeCount ∧ (s.onGroup g f).pending = s.pending := by
  and_intros <;> rfl

@[simp] theorem State.onAcc_parts (s : State) (g : Fin 4) (f : Acc → Acc) :
    (s.onAcc g f).now = s.now ∧ (s.onAcc g f).is96 = s.is96 ∧ (s.onAcc g f).board = s.board ∧ (s.onAcc g f).clock = s.clock ∧
    (s.onAcc g f).inputs = s.inputs ∧ (s.onAcc g f).quads = s.quads ∧ (s.onAcc g f).banks = s.banks ∧ (s.onAcc g f).cal = s.cal ∧
    (s.onAcc g f).units = s.units ∧ (s.onAcc g f).tagged = s.tagged ∧ (s.onAcc g f).decided = s.decided ∧ (s.onAcc g f).evaluated = s.evaluated ∧
    (s.onAcc g f).groups = s.groups ∧ (s.onAcc g f).accs = vmod s.accs g f ∧ (s.onAcc g f).trigouts = s.trigouts ∧ (s.onAcc g f).mem = s.mem ∧
    (s.onAcc g f).rings = s.rings ∧ (s.onAcc g f).ring4 = s.ring4 ∧ (s.onAcc g f).paths = s.paths ∧ (s.onAcc g f).host = s.host ∧
    (s.onAcc g f).events = s.events ∧ (s.onAcc g f).fw = s.fw ∧ (s.onAcc g f).shadows = s.shadows ∧ (s.onAcc g f).stim = s.stim ∧
    (s.onAcc g f).mon = s.mon ∧ (s.onAcc g f).grove = s.grove ∧ (s.onAcc g f).link = s.link ∧ (s.onAcc g f).readValues = s.readValues ∧
    (s.onAcc g f).bar2Out = s.bar2Out ∧ (s.onAcc g f).freeCount = s.freeCount ∧ (s.onAcc g f).pending = s.pending := by
  and_intros <;> rfl

@[simp] theorem State.onOut_parts (s : State) (o : Fin 4) (f : Trigout → Trigout) :
    (s.onOut o f).now = s.now ∧ (s.onOut o f).is96 = s.is96 ∧ (s.onOut o f).board = s.board ∧ (s.onOut o f).clock = s.clock ∧
    (s.onOut o f).inputs = s.inputs ∧ (s.onOut o f).quads = s.quads ∧ (s.onOut o f).banks = s.banks ∧ (s.onOut o f).cal = s.cal ∧
    (s.onOut o f).units = s.units ∧ (s.onOut o f).tagged = s.tagged ∧ (s.onOut o f).decided = s.decided ∧ (s.onOut o f).evaluated = s.evaluated ∧
    (s.onOut o f).groups = s.groups ∧ (s.onOut o f).accs = s.accs ∧ (s.onOut o f).trigouts = vmod s.trigouts o f ∧ (s.onOut o f).mem = s.mem ∧
    (s.onOut o f).rings = s.rings ∧ (s.onOut o f).ring4 = s.ring4 ∧ (s.onOut o f).paths = s.paths ∧ (s.onOut o f).host = s.host ∧
    (s.onOut o f).events = s.events ∧ (s.onOut o f).fw = s.fw ∧ (s.onOut o f).shadows = s.shadows ∧ (s.onOut o f).stim = s.stim ∧
    (s.onOut o f).mon = s.mon ∧ (s.onOut o f).grove = s.grove ∧ (s.onOut o f).link = s.link ∧ (s.onOut o f).readValues = s.readValues ∧
    (s.onOut o f).bar2Out = s.bar2Out ∧ (s.onOut o f).freeCount = s.freeCount ∧ (s.onOut o f).pending = s.pending := by
  and_intros <;> rfl

@[simp] theorem State.onRing_parts (s : State) (g : Fin 4) (f : Ring → Ring) :
    (s.onRing g f).now = s.now ∧ (s.onRing g f).is96 = s.is96 ∧ (s.onRing g f).board = s.board ∧ (s.onRing g f).clock = s.clock ∧
    (s.onRing g f).inputs = s.inputs ∧ (s.onRing g f).quads = s.quads ∧ (s.onRing g f).banks = s.banks ∧ (s.onRing g f).cal = s.cal ∧
    (s.onRing g f).units = s.units ∧ (s.onRing g f).tagged = s.tagged ∧ (s.onRing g f).decided = s.decided ∧ (s.onRing g f).evaluated = s.evaluated ∧
    (s.onRing g f).groups = s.groups ∧ (s.onRing g f).accs = s.accs ∧ (s.onRing g f).trigouts = s.trigouts ∧ (s.onRing g f).mem = s.mem ∧
    (s.onRing g f).rings = vmod s.rings g f ∧ (s.onRing g f).ring4 = s.ring4 ∧ (s.onRing g f).paths = s.paths ∧ (s.onRing g f).host = s.host ∧
    (s.onRing g f).events = s.events ∧ (s.onRing g f).fw = s.fw ∧ (s.onRing g f).shadows = s.shadows ∧ (s.onRing g f).stim = s.stim ∧
    (s.onRing g f).mon = s.mon ∧ (s.onRing g f).grove = s.grove ∧ (s.onRing g f).link = s.link ∧ (s.onRing g f).readValues = s.readValues ∧
    (s.onRing g f).bar2Out = s.bar2Out ∧ (s.onRing g f).freeCount = s.freeCount ∧ (s.onRing g f).pending = s.pending := by
  and_intros <;> rfl

@[simp] theorem State.onPath_parts (s : State) (p : Path) (f : PathState → PathState) :
    (s.onPath p f).now = s.now ∧ (s.onPath p f).is96 = s.is96 ∧ (s.onPath p f).board = s.board ∧ (s.onPath p f).clock = s.clock ∧
    (s.onPath p f).inputs = s.inputs ∧ (s.onPath p f).quads = s.quads ∧ (s.onPath p f).banks = s.banks ∧ (s.onPath p f).cal = s.cal ∧
    (s.onPath p f).units = s.units ∧ (s.onPath p f).tagged = s.tagged ∧ (s.onPath p f).decided = s.decided ∧ (s.onPath p f).evaluated = s.evaluated ∧
    (s.onPath p f).groups = s.groups ∧ (s.onPath p f).accs = s.accs ∧ (s.onPath p f).trigouts = s.trigouts ∧ (s.onPath p f).mem = s.mem ∧
    (s.onPath p f).rings = s.rings ∧ (s.onPath p f).ring4 = s.ring4 ∧ (s.onPath p f).paths = vmod s.paths p.idx f ∧ (s.onPath p f).host = s.host ∧
    (s.onPath p f).events = s.events ∧ (s.onPath p f).fw = s.fw ∧ (s.onPath p f).shadows = s.shadows ∧ (s.onPath p f).stim = s.stim ∧
    (s.onPath p f).mon = s.mon ∧ (s.onPath p f).grove = s.grove ∧ (s.onPath p f).link = s.link ∧ (s.onPath p f).readValues = s.readValues ∧
    (s.onPath p f).bar2Out = s.bar2Out ∧ (s.onPath p f).freeCount = s.freeCount ∧ (s.onPath p f).pending = s.pending := by
  and_intros <;> rfl

@[simp] theorem State.onClock_parts (s : State) (f : Clock → Clock) :
    (s.onClock f).now = s.now ∧ (s.onClock f).is96 = s.is96 ∧ (s.onClock f).board = s.board ∧ (s.onClock f).clock = f s.clock ∧
    (s.onClock f).inputs = s.inputs ∧ (s.onClock f).quads = s.quads ∧ (s.onClock f).banks = s.banks ∧ (s.onClock f).cal = s.cal ∧
    (s.onClock f).units = s.units ∧ (s.onClock f).tagged = s.tagged ∧ (s.onClock f).decided = s.decided ∧ (s.onClock f).evaluated = s.evaluated ∧
    (s.onClock f).groups = s.groups ∧ (s.onClock f).accs = s.accs ∧ (s.onClock f).trigouts = s.trigouts ∧ (s.onClock f).mem = s.mem ∧
    (s.onClock f).rings = s.rings ∧ (s.onClock f).ring4 = s.ring4 ∧ (s.onClock f).paths = s.paths ∧ (s.onClock f).host = s.host ∧
    (s.onClock f).events = s.events ∧ (s.onClock f).fw = s.fw ∧ (s.onClock f).shadows = s.shadows ∧ (s.onClock f).stim = s.stim ∧
    (s.onClock f).mon = s.mon ∧ (s.onClock f).grove = s.grove ∧ (s.onClock f).link = s.link ∧ (s.onClock f).readValues = s.readValues ∧
    (s.onClock f).bar2Out = s.bar2Out ∧ (s.onClock f).freeCount = s.freeCount ∧ (s.onClock f).pending = s.pending := by
  and_intros <;> rfl

@[simp] theorem State.onMem_parts (s : State) (f : Memory → Memory) :
    (s.onMem f).now = s.now ∧ (s.onMem f).is96 = s.is96 ∧ (s.onMem f).board = s.board ∧ (s.onMem f).clock = s.clock ∧ (s.onMem f).inputs = s.inputs ∧
    (s.onMem f).quads = s.quads ∧ (s.onMem f).banks = s.banks ∧ (s.onMem f).cal = s.cal ∧ (s.onMem f).units = s.units ∧
    (s.onMem f).tagged = s.tagged ∧ (s.onMem f).decided = s.decided ∧ (s.onMem f).evaluated = s.evaluated ∧ (s.onMem f).groups = s.groups ∧
    (s.onMem f).accs = s.accs ∧ (s.onMem f).trigouts = s.trigouts ∧ (s.onMem f).mem = f s.mem ∧ (s.onMem f).rings = s.rings ∧
    (s.onMem f).ring4 = s.ring4 ∧ (s.onMem f).paths = s.paths ∧ (s.onMem f).host = s.host ∧ (s.onMem f).events = s.events ∧ (s.onMem f).fw = s.fw ∧
    (s.onMem f).shadows = s.shadows ∧ (s.onMem f).stim = s.stim ∧ (s.onMem f).mon = s.mon ∧ (s.onMem f).grove = s.grove ∧ (s.onMem f).link = s.link ∧
    (s.onMem f).readValues = s.readValues ∧ (s.onMem f).bar2Out = s.bar2Out ∧ (s.onMem f).freeCount = s.freeCount ∧ (s.onMem f).pending = s.pending := by
  and_intros <;> rfl

@[simp] theorem State.onGrove_parts (s : State) (f : Grove → Grove) :
    (s.onGrove f).now = s.now ∧ (s.onGrove f).is96 = s.is96 ∧ (s.onGrove f).board = s.board ∧ (s.onGrove f).clock = s.clock ∧
    (s.onGrove f).inputs = s.inputs ∧ (s.onGrove f).quads = s.quads ∧ (s.onGrove f).banks = s.banks ∧ (s.onGrove f).cal = s.cal ∧
    (s.onGrove f).units = s.units ∧ (s.onGrove f).tagged = s.tagged ∧ (s.onGrove f).decided = s.decided ∧ (s.onGrove f).evaluated = s.evaluated ∧
    (s.onGrove f).groups = s.groups ∧ (s.onGrove f).accs = s.accs ∧ (s.onGrove f).trigouts = s.trigouts ∧ (s.onGrove f).mem = s.mem ∧
    (s.onGrove f).rings = s.rings ∧ (s.onGrove f).ring4 = s.ring4 ∧ (s.onGrove f).paths = s.paths ∧ (s.onGrove f).host = s.host ∧
    (s.onGrove f).events = s.events ∧ (s.onGrove f).fw = s.fw ∧ (s.onGrove f).shadows = s.shadows ∧ (s.onGrove f).stim = s.stim ∧
    (s.onGrove f).mon = s.mon ∧ (s.onGrove f).grove = f s.grove ∧ (s.onGrove f).link = s.link ∧ (s.onGrove f).readValues = s.readValues ∧
    (s.onGrove f).bar2Out = s.bar2Out ∧ (s.onGrove f).freeCount = s.freeCount ∧ (s.onGrove f).pending = s.pending := by
  and_intros <;> rfl

@[simp] theorem State.onBoard_parts (s : State) (f : Board → Board) :
    (s.onBoard f).now = s.now ∧ (s.onBoard f).is96 = s.is96 ∧ (s.onBoard f).board = f s.board ∧ (s.onBoard f).clock = s.clock ∧
    (s.onBoard f).inputs = s.inputs ∧ (s.onBoard f).quads = s.quads ∧ (s.onBoard f).banks = s.banks ∧ (s.onBoard f).cal = s.cal ∧
    (s.onBoard f).units = s.units ∧ (s.onBoard f).tagged = s.tagged ∧ (s.onBoard f).decided = s.decided ∧ (s.onBoard f).evaluated = s.evaluated ∧
    (s.onBoard f).groups = s.groups ∧ (s.onBoard f).accs = s.accs ∧ (s.onBoard f).trigouts = s.trigouts ∧ (s.onBoard f).mem = s.mem ∧
    (s.onBoard f).rings = s.rings ∧ (s.onBoard f).ring4 = s.ring4 ∧ (s.onBoard f).paths = s.paths ∧ (s.onBoard f).host = s.host ∧
    (s.onBoard f).events = s.events ∧ (s.onBoard f).fw = s.fw ∧ (s.onBoard f).shadows = s.shadows ∧ (s.onBoard f).stim = s.stim ∧
    (s.onBoard f).mon = s.mon ∧ (s.onBoard f).grove = s.grove ∧ (s.onBoard f).link = s.link ∧ (s.onBoard f).readValues = s.readValues ∧
    (s.onBoard f).bar2Out = s.bar2Out ∧ (s.onBoard f).freeCount = s.freeCount ∧ (s.onBoard f).pending = s.pending := by
  and_intros <;> rfl

@[simp] theorem State.onStim_parts (s : State) (f : Stim → Stim) :
    (s.onStim f).now = s.now ∧ (s.onStim f).is96 = s.is96 ∧ (s.onStim f).board = s.board ∧ (s.onStim f).clock = s.clock ∧
    (s.onStim f).inputs = s.inputs ∧ (s.onStim f).quads = s.quads ∧ (s.onStim f).banks = s.banks ∧ (s.onStim f).cal = s.cal ∧
    (s.onStim f).units = s.units ∧ (s.onStim f).tagged = s.tagged ∧ (s.onStim f).decided = s.decided ∧ (s.onStim f).evaluated = s.evaluated ∧
    (s.onStim f).groups = s.groups ∧ (s.onStim f).accs = s.accs ∧ (s.onStim f).trigouts = s.trigouts ∧ (s.onStim f).mem = s.mem ∧
    (s.onStim f).rings = s.rings ∧ (s.onStim f).ring4 = s.ring4 ∧ (s.onStim f).paths = s.paths ∧ (s.onStim f).host = s.host ∧
    (s.onStim f).events = s.events ∧ (s.onStim f).fw = s.fw ∧ (s.onStim f).shadows = s.shadows ∧ (s.onStim f).stim = f s.stim ∧
    (s.onStim f).mon = s.mon ∧ (s.onStim f).grove = s.grove ∧ (s.onStim f).link = s.link ∧ (s.onStim f).readValues = s.readValues ∧
    (s.onStim f).bar2Out = s.bar2Out ∧ (s.onStim f).freeCount = s.freeCount ∧ (s.onStim f).pending = s.pending := by
  and_intros <;> rfl

@[simp] theorem State.onMon_parts (s : State) (f : Monitor → Monitor) :
    (s.onMon f).now = s.now ∧ (s.onMon f).is96 = s.is96 ∧ (s.onMon f).board = s.board ∧ (s.onMon f).clock = s.clock ∧ (s.onMon f).inputs = s.inputs ∧
    (s.onMon f).quads = s.quads ∧ (s.onMon f).banks = s.banks ∧ (s.onMon f).cal = s.cal ∧ (s.onMon f).units = s.units ∧
    (s.onMon f).tagged = s.tagged ∧ (s.onMon f).decided = s.decided ∧ (s.onMon f).evaluated = s.evaluated ∧ (s.onMon f).groups = s.groups ∧
    (s.onMon f).accs = s.accs ∧ (s.onMon f).trigouts = s.trigouts ∧ (s.onMon f).mem = s.mem ∧ (s.onMon f).rings = s.rings ∧
    (s.onMon f).ring4 = s.ring4 ∧ (s.onMon f).paths = s.paths ∧ (s.onMon f).host = s.host ∧ (s.onMon f).events = s.events ∧ (s.onMon f).fw = s.fw ∧
    (s.onMon f).shadows = s.shadows ∧ (s.onMon f).stim = s.stim ∧ (s.onMon f).mon = f s.mon ∧ (s.onMon f).grove = s.grove ∧
    (s.onMon f).link = s.link ∧ (s.onMon f).readValues = s.readValues ∧ (s.onMon f).bar2Out = s.bar2Out ∧ (s.onMon f).freeCount = s.freeCount ∧
    (s.onMon f).pending = s.pending := by
  and_intros <;> rfl

@[simp] theorem State.onCal_parts (s : State) (f : Cal → Cal) :
    (s.onCal f).now = s.now ∧ (s.onCal f).is96 = s.is96 ∧ (s.onCal f).board = s.board ∧ (s.onCal f).clock = s.clock ∧ (s.onCal f).inputs = s.inputs ∧
    (s.onCal f).quads = s.quads ∧ (s.onCal f).banks = s.banks ∧ (s.onCal f).cal = f s.cal ∧ (s.onCal f).units = s.units ∧
    (s.onCal f).tagged = s.tagged ∧ (s.onCal f).decided = s.decided ∧ (s.onCal f).evaluated = s.evaluated ∧ (s.onCal f).groups = s.groups ∧
    (s.onCal f).accs = s.accs ∧ (s.onCal f).trigouts = s.trigouts ∧ (s.onCal f).mem = s.mem ∧ (s.onCal f).rings = s.rings ∧
    (s.onCal f).ring4 = s.ring4 ∧ (s.onCal f).paths = s.paths ∧ (s.onCal f).host = s.host ∧ (s.onCal f).events = s.events ∧ (s.onCal f).fw = s.fw ∧
    (s.onCal f).shadows = s.shadows ∧ (s.onCal f).stim = s.stim ∧ (s.onCal f).mon = s.mon ∧ (s.onCal f).grove = s.grove ∧ (s.onCal f).link = s.link ∧
    (s.onCal f).readValues = s.readValues ∧ (s.onCal f).bar2Out = s.bar2Out ∧ (s.onCal f).freeCount = s.freeCount ∧ (s.onCal f).pending = s.pending := by
  and_intros <;> rfl

@[simp] theorem State.onFw_parts (s : State) (f : Firmware → Firmware) :
    (s.onFw f).now = s.now ∧ (s.onFw f).is96 = s.is96 ∧ (s.onFw f).board = s.board ∧ (s.onFw f).clock = s.clock ∧ (s.onFw f).inputs = s.inputs ∧
    (s.onFw f).quads = s.quads ∧ (s.onFw f).banks = s.banks ∧ (s.onFw f).cal = s.cal ∧ (s.onFw f).units = s.units ∧ (s.onFw f).tagged = s.tagged ∧
    (s.onFw f).decided = s.decided ∧ (s.onFw f).evaluated = s.evaluated ∧ (s.onFw f).groups = s.groups ∧ (s.onFw f).accs = s.accs ∧
    (s.onFw f).trigouts = s.trigouts ∧ (s.onFw f).mem = s.mem ∧ (s.onFw f).rings = s.rings ∧ (s.onFw f).ring4 = s.ring4 ∧
    (s.onFw f).paths = s.paths ∧ (s.onFw f).host = s.host ∧ (s.onFw f).events = s.events ∧ (s.onFw f).fw = f s.fw ∧ (s.onFw f).shadows = s.shadows ∧
    (s.onFw f).stim = s.stim ∧ (s.onFw f).mon = s.mon ∧ (s.onFw f).grove = s.grove ∧ (s.onFw f).link = s.link ∧
    (s.onFw f).readValues = s.readValues ∧ (s.onFw f).bar2Out = s.bar2Out ∧ (s.onFw f).freeCount = s.freeCount ∧ (s.onFw f).pending = s.pending := by
  and_intros <;> rfl

@[simp] theorem State.onHost_parts (s : State) (f : HostPort → HostPort) :
    (s.onHost f).now = s.now ∧ (s.onHost f).is96 = s.is96 ∧ (s.onHost f).board = s.board ∧ (s.onHost f).clock = s.clock ∧
    (s.onHost f).inputs = s.inputs ∧ (s.onHost f).quads = s.quads ∧ (s.onHost f).banks = s.banks ∧ (s.onHost f).cal = s.cal ∧
    (s.onHost f).units = s.units ∧ (s.onHost f).tagged = s.tagged ∧ (s.onHost f).decided = s.decided ∧ (s.onHost f).evaluated = s.evaluated ∧
    (s.onHost f).groups = s.groups ∧ (s.onHost f).accs = s.accs ∧ (s.onHost f).trigouts = s.trigouts ∧ (s.onHost f).mem = s.mem ∧
    (s.onHost f).rings = s.rings ∧ (s.onHost f).ring4 = s.ring4 ∧ (s.onHost f).paths = s.paths ∧ (s.onHost f).host = f s.host ∧
    (s.onHost f).events = s.events ∧ (s.onHost f).fw = s.fw ∧ (s.onHost f).shadows = s.shadows ∧ (s.onHost f).stim = s.stim ∧
    (s.onHost f).mon = s.mon ∧ (s.onHost f).grove = s.grove ∧ (s.onHost f).link = s.link ∧ (s.onHost f).readValues = s.readValues ∧
    (s.onHost f).bar2Out = s.bar2Out ∧ (s.onHost f).freeCount = s.freeCount ∧ (s.onHost f).pending = s.pending := by
  and_intros <;> rfl

@[simp] theorem State.onEvents_parts (s : State) (f : Events → Events) :
    (s.onEvents f).now = s.now ∧ (s.onEvents f).is96 = s.is96 ∧ (s.onEvents f).board = s.board ∧ (s.onEvents f).clock = s.clock ∧
    (s.onEvents f).inputs = s.inputs ∧ (s.onEvents f).quads = s.quads ∧ (s.onEvents f).banks = s.banks ∧ (s.onEvents f).cal = s.cal ∧
    (s.onEvents f).units = s.units ∧ (s.onEvents f).tagged = s.tagged ∧ (s.onEvents f).decided = s.decided ∧ (s.onEvents f).evaluated = s.evaluated ∧
    (s.onEvents f).groups = s.groups ∧ (s.onEvents f).accs = s.accs ∧ (s.onEvents f).trigouts = s.trigouts ∧ (s.onEvents f).mem = s.mem ∧
    (s.onEvents f).rings = s.rings ∧ (s.onEvents f).ring4 = s.ring4 ∧ (s.onEvents f).paths = s.paths ∧ (s.onEvents f).host = s.host ∧
    (s.onEvents f).events = f s.events ∧ (s.onEvents f).fw = s.fw ∧ (s.onEvents f).shadows = s.shadows ∧ (s.onEvents f).stim = s.stim ∧
    (s.onEvents f).mon = s.mon ∧ (s.onEvents f).grove = s.grove ∧ (s.onEvents f).link = s.link ∧ (s.onEvents f).readValues = s.readValues ∧
    (s.onEvents f).bar2Out = s.bar2Out ∧ (s.onEvents f).freeCount = s.freeCount ∧ (s.onEvents f).pending = s.pending := by
  and_intros <;> rfl

@[simp] theorem State.onRing4_parts (s : State) (f : CplRing → CplRing) :
    (s.onRing4 f).now = s.now ∧ (s.onRing4 f).is96 = s.is96 ∧ (s.onRing4 f).board = s.board ∧ (s.onRing4 f).clock = s.clock ∧
    (s.onRing4 f).inputs = s.inputs ∧ (s.onRing4 f).quads = s.quads ∧ (s.onRing4 f).banks = s.banks ∧ (s.onRing4 f).cal = s.cal ∧
    (s.onRing4 f).units = s.units ∧ (s.onRing4 f).tagged = s.tagged ∧ (s.onRing4 f).decided = s.decided ∧ (s.onRing4 f).evaluated = s.evaluated ∧
    (s.onRing4 f).groups = s.groups ∧ (s.onRing4 f).accs = s.accs ∧ (s.onRing4 f).trigouts = s.trigouts ∧ (s.onRing4 f).mem = s.mem ∧
    (s.onRing4 f).rings = s.rings ∧ (s.onRing4 f).ring4 = f s.ring4 ∧ (s.onRing4 f).paths = s.paths ∧ (s.onRing4 f).host = s.host ∧
    (s.onRing4 f).events = s.events ∧ (s.onRing4 f).fw = s.fw ∧ (s.onRing4 f).shadows = s.shadows ∧ (s.onRing4 f).stim = s.stim ∧
    (s.onRing4 f).mon = s.mon ∧ (s.onRing4 f).grove = s.grove ∧ (s.onRing4 f).link = s.link ∧ (s.onRing4 f).readValues = s.readValues ∧
    (s.onRing4 f).bar2Out = s.bar2Out ∧ (s.onRing4 f).freeCount = s.freeCount ∧ (s.onRing4 f).pending = s.pending := by
  and_intros <;> rfl

@[simp] theorem State.linkOut_parts (s : State) (l : List HostWrite) :
    (s.linkOut l).now = s.now ∧ (s.linkOut l).is96 = s.is96 ∧ (s.linkOut l).board = s.board ∧ (s.linkOut l).clock = s.clock ∧
    (s.linkOut l).inputs = s.inputs ∧ (s.linkOut l).quads = s.quads ∧ (s.linkOut l).banks = s.banks ∧ (s.linkOut l).cal = s.cal ∧
    (s.linkOut l).units = s.units ∧ (s.linkOut l).tagged = s.tagged ∧ (s.linkOut l).decided = s.decided ∧ (s.linkOut l).evaluated = s.evaluated ∧
    (s.linkOut l).groups = s.groups ∧ (s.linkOut l).accs = s.accs ∧ (s.linkOut l).trigouts = s.trigouts ∧ (s.linkOut l).mem = s.mem ∧
    (s.linkOut l).rings = s.rings ∧ (s.linkOut l).ring4 = s.ring4 ∧ (s.linkOut l).paths = s.paths ∧ (s.linkOut l).host = s.host ∧
    (s.linkOut l).events = s.events ∧ (s.linkOut l).fw = s.fw ∧ (s.linkOut l).shadows = s.shadows ∧ (s.linkOut l).stim = s.stim ∧
    (s.linkOut l).mon = s.mon ∧ (s.linkOut l).grove = s.grove ∧ (s.linkOut l).link = l ++ s.link ∧ (s.linkOut l).readValues = s.readValues ∧
    (s.linkOut l).bar2Out = s.bar2Out ∧ (s.linkOut l).freeCount = s.freeCount ∧ (s.linkOut l).pending = s.pending := by
  and_intros <;> rfl

@[simp] theorem State.allQuads_parts (s : State) (f : Quad → Quad) :
    (s.allQuads f).now = s.now ∧ (s.allQuads f).is96 = s.is96 ∧ (s.allQuads f).board = s.board ∧ (s.allQuads f).clock = s.clock ∧
    (s.allQuads f).inputs = s.inputs ∧ (s.allQuads f).quads = s.quads.map f ∧ (s.allQuads f).banks = s.banks ∧ (s.allQuads f).cal = s.cal ∧
    (s.allQuads f).units = s.units ∧ (s.allQuads f).tagged = s.tagged ∧ (s.allQuads f).decided = s.decided ∧ (s.allQuads f).evaluated = s.evaluated ∧
    (s.allQuads f).groups = s.groups ∧ (s.allQuads f).accs = s.accs ∧ (s.allQuads f).trigouts = s.trigouts ∧ (s.allQuads f).mem = s.mem ∧
    (s.allQuads f).rings = s.rings ∧ (s.allQuads f).ring4 = s.ring4 ∧ (s.allQuads f).paths = s.paths ∧ (s.allQuads f).host = s.host ∧
    (s.allQuads f).events = s.events ∧ (s.allQuads f).fw = s.fw ∧ (s.allQuads f).shadows = s.shadows ∧ (s.allQuads f).stim = s.stim ∧
    (s.allQuads f).mon = s.mon ∧ (s.allQuads f).grove = s.grove ∧ (s.allQuads f).link = s.link ∧ (s.allQuads f).readValues = s.readValues ∧
    (s.allQuads f).bar2Out = s.bar2Out ∧ (s.allQuads f).freeCount = s.freeCount ∧ (s.allQuads f).pending = s.pending := by
  and_intros <;> rfl

@[simp] theorem State.allBanks_parts (s : State) (f : Bank → Bank) :
    (s.allBanks f).now = s.now ∧ (s.allBanks f).is96 = s.is96 ∧ (s.allBanks f).board = s.board ∧ (s.allBanks f).clock = s.clock ∧
    (s.allBanks f).inputs = s.inputs ∧ (s.allBanks f).quads = s.quads ∧ (s.allBanks f).banks = s.banks.map f ∧ (s.allBanks f).cal = s.cal ∧
    (s.allBanks f).units = s.units ∧ (s.allBanks f).tagged = s.tagged ∧ (s.allBanks f).decided = s.decided ∧ (s.allBanks f).evaluated = s.evaluated ∧
    (s.allBanks f).groups = s.groups ∧ (s.allBanks f).accs = s.accs ∧ (s.allBanks f).trigouts = s.trigouts ∧ (s.allBanks f).mem = s.mem ∧
    (s.allBanks f).rings = s.rings ∧ (s.allBanks f).ring4 = s.ring4 ∧ (s.allBanks f).paths = s.paths ∧ (s.allBanks f).host = s.host ∧
    (s.allBanks f).events = s.events ∧ (s.allBanks f).fw = s.fw ∧ (s.allBanks f).shadows = s.shadows ∧ (s.allBanks f).stim = s.stim ∧
    (s.allBanks f).mon = s.mon ∧ (s.allBanks f).grove = s.grove ∧ (s.allBanks f).link = s.link ∧ (s.allBanks f).readValues = s.readValues ∧
    (s.allBanks f).bar2Out = s.bar2Out ∧ (s.allBanks f).freeCount = s.freeCount ∧ (s.allBanks f).pending = s.pending := by
  and_intros <;> rfl

@[simp] theorem State.allUnits_parts (s : State) (f : TUnit → TUnit) :
    (s.allUnits f).now = s.now ∧ (s.allUnits f).is96 = s.is96 ∧ (s.allUnits f).board = s.board ∧ (s.allUnits f).clock = s.clock ∧
    (s.allUnits f).inputs = s.inputs ∧ (s.allUnits f).quads = s.quads ∧ (s.allUnits f).banks = s.banks ∧ (s.allUnits f).cal = s.cal ∧
    (s.allUnits f).units = s.units.map f ∧ (s.allUnits f).tagged = s.tagged ∧ (s.allUnits f).decided = s.decided ∧
    (s.allUnits f).evaluated = s.evaluated ∧ (s.allUnits f).groups = s.groups ∧ (s.allUnits f).accs = s.accs ∧ (s.allUnits f).trigouts = s.trigouts ∧
    (s.allUnits f).mem = s.mem ∧ (s.allUnits f).rings = s.rings ∧ (s.allUnits f).ring4 = s.ring4 ∧ (s.allUnits f).paths = s.paths ∧
    (s.allUnits f).host = s.host ∧ (s.allUnits f).events = s.events ∧ (s.allUnits f).fw = s.fw ∧ (s.allUnits f).shadows = s.shadows ∧
    (s.allUnits f).stim = s.stim ∧ (s.allUnits f).mon = s.mon ∧ (s.allUnits f).grove = s.grove ∧ (s.allUnits f).link = s.link ∧
    (s.allUnits f).readValues = s.readValues ∧ (s.allUnits f).bar2Out = s.bar2Out ∧ (s.allUnits f).freeCount = s.freeCount ∧
    (s.allUnits f).pending = s.pending := by
  and_intros <;> rfl

@[simp] theorem State.allRings_parts (s : State) (f : Ring → Ring) :
    (s.allRings f).now = s.now ∧ (s.allRings f).is96 = s.is96 ∧ (s.allRings f).board = s.board ∧ (s.allRings f).clock = s.clock ∧
    (s.allRings f).inputs = s.inputs ∧ (s.allRings f).quads = s.quads ∧ (s.allRings f).banks = s.banks ∧ (s.allRings f).cal = s.cal ∧
    (s.allRings f).units = s.units ∧ (s.allRings f).tagged = s.tagged ∧ (s.allRings f).decided = s.decided ∧ (s.allRings f).evaluated = s.evaluated ∧
    (s.allRings f).groups = s.groups ∧ (s.allRings f).accs = s.accs ∧ (s.allRings f).trigouts = s.trigouts ∧ (s.allRings f).mem = s.mem ∧
    (s.allRings f).rings = s.rings.map f ∧ (s.allRings f).ring4 = s.ring4 ∧ (s.allRings f).paths = s.paths ∧ (s.allRings f).host = s.host ∧
    (s.allRings f).events = s.events ∧ (s.allRings f).fw = s.fw ∧ (s.allRings f).shadows = s.shadows ∧ (s.allRings f).stim = s.stim ∧
    (s.allRings f).mon = s.mon ∧ (s.allRings f).grove = s.grove ∧ (s.allRings f).link = s.link ∧ (s.allRings f).readValues = s.readValues ∧
    (s.allRings f).bar2Out = s.bar2Out ∧ (s.allRings f).freeCount = s.freeCount ∧ (s.allRings f).pending = s.pending := by
  and_intros <;> rfl

@[simp] theorem State.onTagged_parts (s : State) (f : List Tagged → List Tagged) :
    (s.onTagged f).now = s.now ∧ (s.onTagged f).is96 = s.is96 ∧ (s.onTagged f).board = s.board ∧ (s.onTagged f).clock = s.clock ∧
    (s.onTagged f).inputs = s.inputs ∧ (s.onTagged f).quads = s.quads ∧ (s.onTagged f).banks = s.banks ∧ (s.onTagged f).cal = s.cal ∧
    (s.onTagged f).units = s.units ∧ (s.onTagged f).tagged = f s.tagged ∧ (s.onTagged f).decided = s.decided ∧
    (s.onTagged f).evaluated = s.evaluated ∧ (s.onTagged f).groups = s.groups ∧ (s.onTagged f).accs = s.accs ∧ (s.onTagged f).trigouts = s.trigouts ∧
    (s.onTagged f).mem = s.mem ∧ (s.onTagged f).rings = s.rings ∧ (s.onTagged f).ring4 = s.ring4 ∧ (s.onTagged f).paths = s.paths ∧
    (s.onTagged f).host = s.host ∧ (s.onTagged f).events = s.events ∧ (s.onTagged f).fw = s.fw ∧ (s.onTagged f).shadows = s.shadows ∧
    (s.onTagged f).stim = s.stim ∧ (s.onTagged f).mon = s.mon ∧ (s.onTagged f).grove = s.grove ∧ (s.onTagged f).link = s.link ∧
    (s.onTagged f).readValues = s.readValues ∧ (s.onTagged f).bar2Out = s.bar2Out ∧ (s.onTagged f).freeCount = s.freeCount ∧
    (s.onTagged f).pending = s.pending := by
  and_intros <;> rfl

@[simp] theorem State.noteDecided_parts (s : State) (c : Nat) :
    (s.noteDecided c).now = s.now ∧ (s.noteDecided c).is96 = s.is96 ∧ (s.noteDecided c).board = s.board ∧ (s.noteDecided c).clock = s.clock ∧
    (s.noteDecided c).inputs = s.inputs ∧ (s.noteDecided c).quads = s.quads ∧ (s.noteDecided c).banks = s.banks ∧ (s.noteDecided c).cal = s.cal ∧
    (s.noteDecided c).units = s.units ∧ (s.noteDecided c).tagged = s.tagged ∧ (s.noteDecided c).decided = max s.decided c ∧
    (s.noteDecided c).evaluated = s.evaluated ∧ (s.noteDecided c).groups = s.groups ∧ (s.noteDecided c).accs = s.accs ∧
    (s.noteDecided c).trigouts = s.trigouts ∧ (s.noteDecided c).mem = s.mem ∧ (s.noteDecided c).rings = s.rings ∧ (s.noteDecided c).ring4 = s.ring4 ∧
    (s.noteDecided c).paths = s.paths ∧ (s.noteDecided c).host = s.host ∧ (s.noteDecided c).events = s.events ∧ (s.noteDecided c).fw = s.fw ∧
    (s.noteDecided c).shadows = s.shadows ∧ (s.noteDecided c).stim = s.stim ∧ (s.noteDecided c).mon = s.mon ∧ (s.noteDecided c).grove = s.grove ∧
    (s.noteDecided c).link = s.link ∧ (s.noteDecided c).readValues = s.readValues ∧ (s.noteDecided c).bar2Out = s.bar2Out ∧
    (s.noteDecided c).freeCount = s.freeCount ∧ (s.noteDecided c).pending = s.pending := by
  and_intros <;> rfl

@[simp] theorem State.noteEvaluated_parts (s : State) (c : Nat) :
    (s.noteEvaluated c).now = s.now ∧ (s.noteEvaluated c).is96 = s.is96 ∧ (s.noteEvaluated c).board = s.board ∧ (s.noteEvaluated c).clock = s.clock ∧
    (s.noteEvaluated c).inputs = s.inputs ∧ (s.noteEvaluated c).quads = s.quads ∧ (s.noteEvaluated c).banks = s.banks ∧
    (s.noteEvaluated c).cal = s.cal ∧ (s.noteEvaluated c).units = s.units ∧ (s.noteEvaluated c).tagged = s.tagged ∧
    (s.noteEvaluated c).decided = s.decided ∧ (s.noteEvaluated c).evaluated = max s.evaluated c ∧ (s.noteEvaluated c).groups = s.groups ∧
    (s.noteEvaluated c).accs = s.accs ∧ (s.noteEvaluated c).trigouts = s.trigouts ∧ (s.noteEvaluated c).mem = s.mem ∧
    (s.noteEvaluated c).rings = s.rings ∧ (s.noteEvaluated c).ring4 = s.ring4 ∧ (s.noteEvaluated c).paths = s.paths ∧
    (s.noteEvaluated c).host = s.host ∧ (s.noteEvaluated c).events = s.events ∧ (s.noteEvaluated c).fw = s.fw ∧
    (s.noteEvaluated c).shadows = s.shadows ∧ (s.noteEvaluated c).stim = s.stim ∧ (s.noteEvaluated c).mon = s.mon ∧
    (s.noteEvaluated c).grove = s.grove ∧ (s.noteEvaluated c).link = s.link ∧ (s.noteEvaluated c).readValues = s.readValues ∧
    (s.noteEvaluated c).bar2Out = s.bar2Out ∧ (s.noteEvaluated c).freeCount = s.freeCount ∧ (s.noteEvaluated c).pending = s.pending := by
  and_intros <;> rfl

@[simp] theorem State.noteTime_parts (s : State) (t : Nat) :
    (s.noteTime t).now = max s.now t ∧ (s.noteTime t).is96 = s.is96 ∧ (s.noteTime t).board = s.board ∧ (s.noteTime t).clock = s.clock ∧
    (s.noteTime t).inputs = s.inputs ∧ (s.noteTime t).quads = s.quads ∧ (s.noteTime t).banks = s.banks ∧ (s.noteTime t).cal = s.cal ∧
    (s.noteTime t).units = s.units ∧ (s.noteTime t).tagged = s.tagged ∧ (s.noteTime t).decided = s.decided ∧ (s.noteTime t).evaluated = s.evaluated ∧
    (s.noteTime t).groups = s.groups ∧ (s.noteTime t).accs = s.accs ∧ (s.noteTime t).trigouts = s.trigouts ∧ (s.noteTime t).mem = s.mem ∧
    (s.noteTime t).rings = s.rings ∧ (s.noteTime t).ring4 = s.ring4 ∧ (s.noteTime t).paths = s.paths ∧ (s.noteTime t).host = s.host ∧
    (s.noteTime t).events = s.events ∧ (s.noteTime t).fw = s.fw ∧ (s.noteTime t).shadows = s.shadows ∧ (s.noteTime t).stim = s.stim ∧
    (s.noteTime t).mon = s.mon ∧ (s.noteTime t).grove = s.grove ∧ (s.noteTime t).link = s.link ∧ (s.noteTime t).readValues = s.readValues ∧
    (s.noteTime t).bar2Out = s.bar2Out ∧ (s.noteTime t).freeCount = s.freeCount ∧ (s.noteTime t).pending = s.pending := by
  and_intros <;> rfl

@[simp] theorem State.bar2Returns_parts (s : State) (b : Bytes) :
    (s.bar2Returns b).now = s.now ∧ (s.bar2Returns b).is96 = s.is96 ∧ (s.bar2Returns b).board = s.board ∧ (s.bar2Returns b).clock = s.clock ∧
    (s.bar2Returns b).inputs = s.inputs ∧ (s.bar2Returns b).quads = s.quads ∧ (s.bar2Returns b).banks = s.banks ∧ (s.bar2Returns b).cal = s.cal ∧
    (s.bar2Returns b).units = s.units ∧ (s.bar2Returns b).tagged = s.tagged ∧ (s.bar2Returns b).decided = s.decided ∧
    (s.bar2Returns b).evaluated = s.evaluated ∧ (s.bar2Returns b).groups = s.groups ∧ (s.bar2Returns b).accs = s.accs ∧
    (s.bar2Returns b).trigouts = s.trigouts ∧ (s.bar2Returns b).mem = s.mem ∧ (s.bar2Returns b).rings = s.rings ∧ (s.bar2Returns b).ring4 = s.ring4 ∧
    (s.bar2Returns b).paths = s.paths ∧ (s.bar2Returns b).host = s.host ∧ (s.bar2Returns b).events = s.events ∧ (s.bar2Returns b).fw = s.fw ∧
    (s.bar2Returns b).shadows = s.shadows ∧ (s.bar2Returns b).stim = s.stim ∧ (s.bar2Returns b).mon = s.mon ∧ (s.bar2Returns b).grove = s.grove ∧
    (s.bar2Returns b).link = s.link ∧ (s.bar2Returns b).readValues = s.readValues ∧ (s.bar2Returns b).bar2Out = b ∧
    (s.bar2Returns b).freeCount = s.freeCount ∧ (s.bar2Returns b).pending = s.pending := by
  and_intros <;> rfl

@[simp] theorem State.drawn_parts (s : State) (n : Nat) :
    (s.drawn n).now = s.now ∧ (s.drawn n).is96 = s.is96 ∧ (s.drawn n).board = s.board ∧ (s.drawn n).clock = s.clock ∧ (s.drawn n).inputs = s.inputs ∧
    (s.drawn n).quads = s.quads ∧ (s.drawn n).banks = s.banks ∧ (s.drawn n).cal = s.cal ∧ (s.drawn n).units = s.units ∧
    (s.drawn n).tagged = s.tagged ∧ (s.drawn n).decided = s.decided ∧ (s.drawn n).evaluated = s.evaluated ∧ (s.drawn n).groups = s.groups ∧
    (s.drawn n).accs = s.accs ∧ (s.drawn n).trigouts = s.trigouts ∧ (s.drawn n).mem = s.mem ∧ (s.drawn n).rings = s.rings ∧
    (s.drawn n).ring4 = s.ring4 ∧ (s.drawn n).paths = s.paths ∧ (s.drawn n).host = s.host ∧ (s.drawn n).events = s.events ∧ (s.drawn n).fw = s.fw ∧
    (s.drawn n).shadows = s.shadows ∧ (s.drawn n).stim = s.stim ∧ (s.drawn n).mon = s.mon ∧ (s.drawn n).grove = s.grove ∧ (s.drawn n).link = s.link ∧
    (s.drawn n).readValues = s.readValues ∧ (s.drawn n).bar2Out = s.bar2Out ∧ (s.drawn n).freeCount = s.freeCount + n ∧
    (s.drawn n).pending = s.pending := by
  and_intros <;> rfl

@[simp] theorem State.returns_parts (s : State) (r : Requester) (v : Nat) :
    (s.returns r v).now = s.now ∧ (s.returns r v).is96 = s.is96 ∧ (s.returns r v).board = s.board ∧ (s.returns r v).clock = s.clock ∧
    (s.returns r v).inputs = s.inputs ∧ (s.returns r v).quads = s.quads ∧ (s.returns r v).banks = s.banks ∧ (s.returns r v).cal = s.cal ∧
    (s.returns r v).units = s.units ∧ (s.returns r v).tagged = s.tagged ∧ (s.returns r v).decided = s.decided ∧
    (s.returns r v).evaluated = s.evaluated ∧ (s.returns r v).groups = s.groups ∧ (s.returns r v).accs = s.accs ∧
    (s.returns r v).trigouts = s.trigouts ∧ (s.returns r v).mem = s.mem ∧ (s.returns r v).rings = s.rings ∧ (s.returns r v).ring4 = s.ring4 ∧
    (s.returns r v).paths = s.paths ∧ (s.returns r v).host = s.host ∧ (s.returns r v).events = s.events ∧ (s.returns r v).fw = s.fw ∧
    (s.returns r v).shadows = s.shadows ∧ (s.returns r v).stim = s.stim ∧ (s.returns r v).mon = s.mon ∧ (s.returns r v).grove = s.grove ∧
    (s.returns r v).link = s.link ∧ (s.returns r v).readValues = vmod s.readValues r.idx (fun _ => v) ∧ (s.returns r v).bar2Out = s.bar2Out ∧
    (s.returns r v).freeCount = s.freeCount ∧ (s.returns r v).pending = s.pending := by
  and_intros <;> rfl

@[simp] theorem State.onShadow_parts (s : State) (r : Requester) (f : Shadow → Shadow) :
    (s.onShadow r f).now = s.now ∧ (s.onShadow r f).is96 = s.is96 ∧ (s.onShadow r f).board = s.board ∧ (s.onShadow r f).clock = s.clock ∧
    (s.onShadow r f).inputs = s.inputs ∧ (s.onShadow r f).quads = s.quads ∧ (s.onShadow r f).banks = s.banks ∧ (s.onShadow r f).cal = s.cal ∧
    (s.onShadow r f).units = s.units ∧ (s.onShadow r f).tagged = s.tagged ∧ (s.onShadow r f).decided = s.decided ∧
    (s.onShadow r f).evaluated = s.evaluated ∧ (s.onShadow r f).groups = s.groups ∧ (s.onShadow r f).accs = s.accs ∧
    (s.onShadow r f).trigouts = s.trigouts ∧ (s.onShadow r f).mem = s.mem ∧ (s.onShadow r f).rings = s.rings ∧ (s.onShadow r f).ring4 = s.ring4 ∧
    (s.onShadow r f).paths = s.paths ∧ (s.onShadow r f).host = s.host ∧ (s.onShadow r f).events = s.events ∧ (s.onShadow r f).fw = s.fw ∧
    (s.onShadow r f).shadows = vmod s.shadows r.idx f ∧ (s.onShadow r f).stim = s.stim ∧ (s.onShadow r f).mon = s.mon ∧
    (s.onShadow r f).grove = s.grove ∧ (s.onShadow r f).link = s.link ∧ (s.onShadow r f).readValues = s.readValues ∧
    (s.onShadow r f).bar2Out = s.bar2Out ∧ (s.onShadow r f).freeCount = s.freeCount ∧ (s.onShadow r f).pending = s.pending := by
  and_intros <;> rfl

end Sys2Proof.Machine
end

