-- ==== Sys2Proof/Laws/Command.lean ====
section
/-!
SUPPORT. What becomes of a command that reaches an engine on which nothing else waits: it is examined at once, and its effect, its reply and nothing else follow.
-/
namespace Sys2Proof.Machine

theorem State.drain_idle (s : State) (n : Nat) (h : s.nextHead = none) : State.drain n s = s := by
  cases n with
  | zero => rfl
  | succ n => simp [State.drain, h]

theorem State.nextHead_none (s : State) (h : ∀ p, s.headReady p = none) : s.nextHead = none := by
  simp [State.nextHead, List.findSome?, h]

theorem State.serve_idle (s : State) (n : Nat) (h : s.fw.callQueue = []) : State.serve n s = s := by
  cases n with
  | zero => rfl
  | succ n => simp [State.serve, h]

theorem State.settleSubmits_idle (s : State) (h : ∀ c : Fin 4, (s.fw.cores.get c).submit = none) : s.settleSubmits = s := by
  simp [State.settleSubmits, State.each, four, h]

/-- On an idle engine nothing more happens. -/
theorem State.settle_idle (s : State) (h : s.idle) : s.settle = s := by
  obtain ⟨h1, h2, h3⟩ := h
  have hd : s.drainAll = s := State.drain_idle s 800 (State.nextHead_none s h1)
  rw [State.settle, hd, State.serve_idle s 8 h2, hd, State.settleSubmits_idle s h3]

/-- Two states have the same commands and calls waiting, in the same mode. -/
def State.waitsAs (s t : State) : Prop :=
  (∀ p, (t.path p).queue = (s.path p).queue) ∧ t.board.boot = s.board.boot ∧ t.fw.restart = s.fw.restart ∧
    t.fw.callQueue = s.fw.callQueue ∧ ∀ c : Fin 4, (t.fw.cores.get c).submit = (s.fw.cores.get c).submit

theorem State.waitsAs_refl (s : State) : s.waitsAs s := ⟨fun _ => rfl, rfl, rfl, rfl, fun _ => rfl⟩

theorem State.waitsAs_trans {s t u : State} (h : s.waitsAs t) (k : t.waitsAs u) : s.waitsAs u :=
  ⟨fun p => (k.1 p).trans (h.1 p), k.2.1.trans h.2.1, k.2.2.1.trans h.2.2.1, k.2.2.2.1.trans h.2.2.2.1,
    fun c => (k.2.2.2.2 c).trans (h.2.2.2.2 c)⟩

/-- An operation that leaves the paths, the board and the firmware alone leaves what waits as it is. -/
theorem Frame.waitsAs {ps : List Part} {s t : State} (h : Frame ps s t)
    (w : (ps.contains .paths || ps.contains .board || ps.contains .fw) = false) : s.waitsAs t := by
  simp only [Bool.or_eq_false_iff] at w
  have h1 := h.rest .paths w.1.1
  have h2 := h.rest .board w.1.2
  have h3 := h.rest .fw w.2
  simp only [Part.same] at h1 h2 h3
  refine ⟨fun p => ?_, ?_, ?_, ?_, fun c => ?_⟩
  · simp only [State.path, h1]
  · rw [h2]
  · rw [h3]
  · rw [h3]
  · rw [h3]

theorem State.examines_as {s t : State} (h : s.waitsAs t) (e : Entry) : t.examines e = s.examines e := by
  simp [State.examines, h.2.1, h.2.2.1]

theorem State.headReady_as {s t : State} (h : s.waitsAs t) (p : Path) : t.headReady p = s.headReady p := by
  simp only [State.headReady, h.1 p, State.examines_as h]

theorem State.idle_as {s t : State} (h : s.waitsAs t) (k : s.idle) : t.idle :=
  ⟨fun p => (State.headReady_as h p).trans (k.1 p), h.2.2.2.1.trans k.2.1, fun c => (h.2.2.2.2 c).trans (k.2.2 c)⟩

theorem vmod_vmod {α : Type} {n : Nat} (v : Vector α n) (i : Fin n) (f g : α → α) : vmod (vmod v i f) i g = vmod v i fun x => g (f x) := by
  ext j hj
  by_cases h : i.val = j
  · subst h
    have := vmod_get_self v i f
    simp [vmod]
    exact congrArg g this
  · simp [vmod, h]

theorem State.onPath_onPath (s : State) (p : Path) (f g : PathState → PathState) : (s.onPath p f).onPath p g = s.onPath p fun x => g (f x) := by
  simp only [State.onPath]
  rw [vmod_vmod]

theorem vmod_congr {α : Type} {n : Nat} (v : Vector α n) (i : Fin n) (f g : α → α) (h : f (v.get i) = g (v.get i)) : vmod v i f = vmod v i g := by
  simp only [vmod, h]

theorem State.onPath_congr (s : State) (p : Path) (f g : PathState → PathState) (h : f (s.path p) = g (s.path p)) : s.onPath p f = s.onPath p g := by
  simp only [State.onPath]
  rw [vmod_congr _ _ _ _ h]

/-- The state before the turn is noted. -/
def State.arrived (s : State) (h : Hdr) (opcode : Nat) (payload : Bytes) : State :=
  (s.advance h.tick).onPath h.path fun p => { p.record h.tag h.gen with queue := [newEntry h opcode payload (s.advance h.tick).now false 0 0] }

theorem State.Reaches.route {s : State} {h : Hdr} {op : Nat} (k : s.Reaches h op) (b : Bytes) : (s.advance h.tick).route6 h op b = .here := by
  unfold State.route6
  have hm : (s.advance h.tick).member h.dest.toNat = s.member h.dest.toNat := rfl
  have hr : (s.advance h.tick).ringOn = s.ringOn := rfl
  have hg : (s.advance h.tick).grove = s.grove := rfl
  rcases k.dest with ⟨g, d⟩ | ⟨g, d, m, n⟩
  · simp [g, hg, d]
  · have hn : (decide (h.path = .pcie) && s.ringOn && decide (s.grove.role = .manager)) = false := by
      cases hh : (decide (h.path = .pcie) && s.ringOn && decide (s.grove.role = .manager)) with
      | false => rfl
      | true => simp only [Bool.and_eq_true, decide_eq_true_eq] at hh; exact absurd ⟨hh.1.1, hh.1.2, hh.2⟩ n
    simp only [g, hm, m, hr, hg, hn]
    simp

/-- A packet that reaches its path comes to step 7 of R335. -/
theorem State.Reaches.enters {s : State} {h : Hdr} {op : Nat} (k : s.Reaches h op) (b : Bytes) (hb : b.length % 4 = 0 ∧ b.length ≤ 4096) :
    s.arrive h op b = (s.advance h.tick).enqueue (newEntry h op b (s.advance h.tick).now false 0 0) := by
  have hq : ((s.advance h.tick).path h.path).queue = [] := k.alone
  have hbt : (s.advance h.tick).board.boot = s.board.boot := rfl
  have hsrc : (s.advance h.tick).sourceOk h = true := k.source
  unfold State.arrive
  simp only [hbt, k.awake.1, k.awake.2, or_self, if_false, hq, List.length_nil]
  rw [if_neg (by omega), if_neg (by omega), if_neg (by
    rintro ⟨h1, h2, h3⟩; exact h3 (k.sapling h1 h2))]
  have e1 : ¬ (h.flags.toNat % 8 ≠ 0 ∨ (h.group = true ∧ h.dest.toNat < 0xFF00)) := by
    rintro (h1 | ⟨h1, h2⟩)
    · exact h1 k.flags.1
    · rcases k.dest with ⟨g, _⟩ | ⟨_, d, _⟩
      · rw [g] at h1; exact Bool.noConfusion h1
      · omega
  generalize he : newEntry h op b (s.advance h.tick).now false 0 0 = e
  have eh : e.hdr = h := by rw [← he]; rfl
  have eo : e.opcode = op := by rw [← he]; rfl
  have ep : e.payload = b := by rw [← he]; rfl
  unfold State.receive
  simp only [eh, eo, ep]
  rw [if_neg e1, if_neg (by rw [hsrc]; decide), k.route b]

theorem State.Hears.arrive {s : State} {h : Hdr} {op : Nat} (k : s.Hears h op) (b : Bytes) (hb : b.length % 4 = 0 ∧ b.length ≤ 4096) :
    s.arrive h op b = s.arrived h op b := by
  rw [k.enters b hb]
  have hq : ((s.advance h.tick).path h.path).queue = [] := k.alone
  generalize he : newEntry h op b (s.advance h.tick).now false 0 0 = e
  have eh : e.hdr = h := by rw [← he]; rfl
  unfold State.enqueue
  simp only [eh]
  have hend : ((s.advance h.tick).onPath h.path fun p => { (p.record h.tag h.gen) with queue := p.queue ++ [e] }) = s.arrived h op b := by
    rw [State.arrived, he]
    apply State.onPath_congr
    simp only [hq, PathState.record, List.nil_append]
  have := k.fresh
  cases hl : ((s.advance h.tick).path h.path).lastGen h.tag with
  | none => simpa using hend
  | some g => simpa [this g hl] using hend

theorem newerGen_irrefl (g : Nat) : newerGen g g = false := by
  simp [newerGen]

theorem PathState.lastGen_record (p : PathState) (tag gen : Nat) : (p.record tag gen).lastGen tag = some gen := by
  simp only [PathState.lastGen, PathState.record, List.find?_append]
  have : (p.tags.filter fun x => match x with | (t, _) => decide (t ≠ tag)).find? (fun x => match x with | (t, _) => decide (t = tag)) = none := by
    rw [List.find?_eq_none]
    rintro ⟨a, b⟩ hm
    simp at hm
    simpa using hm.2
  rw [this]
  simp

theorem State.Hears.examines {s : State} {h : Hdr} {op : Nat} (k : s.Hears h op) (b : Bytes) (t : State) (ht : t.board.boot = s.board.boot)
    (hf : t.fw.restart = s.fw.restart) (n : Nat) : t.examines (newEntry h op b n false 0 0) = true := by
  have h1 := k.awake
  have h2 := k.sapwood
  unfold State.examines
  rw [ht, hf]
  cases hb : s.board.boot <;> simp_all [newEntry]

/-- Of three paths in order of turn, the one with a command ready is next. -/
theorem State.nextHead_some (s : State) (p : Path) (e : Entry) (h : s.headReady p = some e) (k : ∀ q, q ≠ p → s.headReady q = none) :
    s.nextHead = some (p, e) := by
  have hn : ∀ n, pathAt n = p ∨ s.headReady (pathAt n) = none := fun n => by
    by_cases hh : pathAt n = p
    · exact Or.inl hh
    · exact Or.inr (k _ hh)
  have hp : pathAt (s.fw.turn + 1) = p ∨ pathAt (s.fw.turn + 2) = p ∨ pathAt (s.fw.turn + 3) = p := by
    unfold pathAt
    have : s.fw.turn % 3 = 0 ∨ s.fw.turn % 3 = 1 ∨ s.fw.turn % 3 = 2 := by omega
    rcases this with t | t | t
    · have a : (s.fw.turn + 1) % 3 = 1 := by omega
      have b : (s.fw.turn + 2) % 3 = 2 := by omega
      have c : (s.fw.turn + 3) % 3 = 0 := by omega
      rw [a, b, c]; cases p <;> simp
    · have a : (s.fw.turn + 1) % 3 = 2 := by omega
      have b : (s.fw.turn + 2) % 3 = 0 := by omega
      have c : (s.fw.turn + 3) % 3 = 1 := by omega
      rw [a, b, c]; cases p <;> simp
    · have a : (s.fw.turn + 1) % 3 = 0 := by omega
      have b : (s.fw.turn + 2) % 3 = 1 := by omega
      have c : (s.fw.turn + 3) % 3 = 2 := by omega
      rw [a, b, c]; cases p <;> simp
  have h1 := hn (s.fw.turn + 1)
  have h2 := hn (s.fw.turn + 2)
  have h3 := hn (s.fw.turn + 3)
  unfold State.nextHead
  simp only [List.findSome?]
  by_cases a : pathAt (s.fw.turn + 1) = p
  · rw [a, h]; rfl
  · have a' := h1.resolve_left a
    rw [a']
    by_cases b : pathAt (s.fw.turn + 2) = p
    · rw [b, h]; rfl
    · have b' := h2.resolve_left b
      rw [b']
      have c : pathAt (s.fw.turn + 3) = p := by
        rcases hp with x | x | x
        · exact absurd x a
        · exact absurd x b
        · exact x
      rw [c, h]; rfl

theorem State.Hears.next {s : State} {h : Hdr} {op : Nat} (k : s.Hears h op) (b : Bytes) :
    (s.arrived h op b).nextHead = some (h.path, newEntry h op b (s.advance h.tick).now false 0 0) := by
  apply State.nextHead_some
  · unfold State.headReady
    have : ((s.arrived h op b).path h.path).queue = [newEntry h op b (s.advance h.tick).now false 0 0] := by
      simp [State.arrived]
    rw [this]
    have he : (s.arrived h op b).examines (newEntry h op b (s.advance h.tick).now false 0 0) = true := k.examines b _ rfl rfl _
    simp only [he]
    rfl
  · intro q hq
    have hn := k.idle.1 q
    have : ((s.arrived h op b).path q).queue = (s.path q).queue := by
      unfold State.arrived
      rw [State.path_onPath_ne _ _ _ _ (Ne.symm hq)]
      rfl
    have he : ∀ e, (s.arrived h op b).examines e = s.examines e := fun e => rfl
    unfold State.headReady at hn ⊢
    rw [this]
    simp only [he]
    exact hn

theorem State.Hears.drain {s : State} {h : Hdr} {op : Nat} (k : s.Hears h op) (b : Bytes) (n : Nat) :
    State.drain (n + 1) (s.arrived h op b) =
      State.drain n ((s.heard h op b).judgeEntry h.path (newEntry h op b (s.advance h.tick).now false 0 0)) := by
  rw [State.drain, k.next b]
  simp only [State.examine]
  have ho : ((((s.arrived h op b).onFw fun w => { w with turn := h.path.idx.val }).path h.path).outdated
      (newEntry h op b (s.advance h.tick).now false 0 0)) = false := by
    have hp : (((s.arrived h op b).onFw fun w => { w with turn := h.path.idx.val }).path h.path).lastGen h.tag = some h.gen := by
      have : (((s.arrived h op b).onFw fun w => { w with turn := h.path.idx.val }).path h.path).tags = (((s.advance h.tick).path h.path).record h.tag h.gen).tags := by
        show ((s.arrived h op b).path h.path).tags = _
        simp [State.arrived]
      unfold PathState.lastGen
      rw [this]
      exact PathState.lastGen_record _ _ _
    unfold PathState.outdated
    have e1 : (newEntry h op b (s.advance h.tick).now false 0 0).hdr = h := rfl
    rw [e1, hp]
    simp
  rw [ho, if_neg (by decide)]
  rfl

theorem State.heard_queue (s : State) (h : Hdr) (op : Nat) (b : Bytes) :
    ((s.heard h op b).path h.path).queue = [newEntry h op b (s.advance h.tick).now false 0 0] := by
  have := State.path_onPath_self (s.advance h.tick) h.path fun p => { p.record h.tag h.gen with queue := [newEntry h op b (s.advance h.tick).now false 0 0] }
  show ((((s.advance h.tick).onPath h.path _)).path h.path).queue = _
  rw [this]

theorem State.heard_path_ne (s : State) (h : Hdr) (op : Nat) (b : Bytes) (q : Path) (k : h.path ≠ q) : (s.heard h op b).path q = s.path q := by
  show (((s.advance h.tick).onPath h.path _)).path q = _
  rw [State.path_onPath_ne _ _ _ _ k]
  rfl

/-- A reply that leaves changes no queue. -/
theorem State.handReply_waits (s : State) (p : Path) (pkt : Bytes) (t a n e : Nat) (h : ∀ c : Fin 4, (s.fw.cores.get c).submit = none) :
    s.waitsAs (s.handReply p pkt t a n e) := by
  have h1 : s.waitsAs (s.onPath p fun x => { x with lastReply := pkt }) := by
    refine ⟨fun q => ?_, rfl, rfl, rfl, fun _ => rfl⟩
    by_cases k : p = q
    · subst k; simp
    · rw [State.path_onPath_ne _ _ _ _ k]
  refine State.waitsAs_trans h1 ?_
  unfold State.handReply
  cases p with
  | pcie =>
    simp only
    split
    · split
      · exact ⟨fun _ => rfl, rfl, rfl, rfl, fun _ => rfl⟩
      · exact ⟨fun _ => rfl, rfl, rfl, rfl, fun _ => rfl⟩
    · exact ⟨fun _ => rfl, rfl, rfl, rfl, fun _ => rfl⟩
  | bough =>
    simp only
    exact (Laws.sendUp_frame _ _).waitsAs rfl
  | mailbox =>
    simp only
    have : (s.onPath .mailbox fun x => { x with lastReply := pkt }).submitCore t = none := by
      unfold State.submitCore
      rw [List.find?_eq_none]
      intro c _
      show ¬ ((s.fw.cores.get c).submit.any _ = true)
      rw [h c]; simp
    rw [State.submitReply, this]
    exact State.waitsAs_refl _

/-- After an answered command the queues stand as before it but for its own. -/
theorem State.answered_queue (s : State) (h : Hdr) (op eng : Nat) (r : Reply) (k : ∀ c : Fin 4, (s.fw.cores.get c).submit = none) :
    ((s.answered h op eng r).path h.path).queue = [] ∧ (∀ q, h.path ≠ q → ((s.answered h op eng r).path q).queue = (s.path q).queue) ∧
    (s.answered h op eng r).board.boot = s.board.boot ∧ (s.answered h op eng r).fw.restart = s.fw.restart ∧
    (s.answered h op eng r).fw.callQueue = s.fw.callQueue ∧ ∀ c : Fin 4, ((s.answered h op eng r).fw.cores.get c).submit = none := by
  have key : ∀ t : State, (s.onPath h.path fun p => { p with queue := [], cnt := { p.cnt with executed := p.cnt.executed + 1 } }).waitsAs t →
      (t.path h.path).queue = [] ∧ (∀ q, h.path ≠ q → (t.path q).queue = (s.path q).queue) ∧
      t.board.boot = s.board.boot ∧ t.fw.restart = s.fw.restart ∧ t.fw.callQueue = s.fw.callQueue ∧ ∀ c : Fin 4, (t.fw.cores.get c).submit = none := by
    rintro t ⟨a, b, c, d, e⟩
    refine ⟨?_, fun q hq => ?_, b, c, d, fun x => (e x).trans (k x)⟩
    · rw [a]; simp
    · rw [a, State.path_onPath_ne _ _ _ _ hq]
  unfold State.answered
  simp only
  split
  · split
    · exact key _ ⟨fun _ => rfl, rfl, rfl, rfl, fun _ => rfl⟩
    · exact key _ (State.waitsAs_refl _)
  · exact key _ (State.handReply_waits _ _ _ _ _ _ _ k)

/-- After a heard command was answered, the engine is idle again where its effect left what waits alone. -/
theorem State.Hears.idle_answered {s : State} {h : Hdr} {op : Nat} (k : s.Hears h op) (b : Bytes) (u : State) (hu : (s.heard h op b).waitsAs u) (eng : Nat) (r : Reply) :
    (u.answered h op eng r).idle := by
  have sub : ∀ c : Fin 4, (u.fw.cores.get c).submit = none := fun c => (hu.2.2.2.2 c).trans (k.idle.2.2 c)
  obtain ⟨a, b', c, d, e, f⟩ := State.answered_queue u h op eng r sub
  refine ⟨fun q => ?_, e.trans (hu.2.2.2.1.trans k.idle.2.1), f⟩
  by_cases hq : h.path = q
  · subst hq; simp [State.headReady, a]
  · have hr := k.idle.1 q
    have hqq : ((u.answered h op eng r).path q).queue = (s.path q).queue := by
      rw [b' q hq, hu.1 q, State.heard_path_ne _ _ _ _ _ hq]
    have hb : (u.answered h op eng r).board.boot = s.board.boot := c.trans hu.2.1
    have hf : (u.answered h op eng r).fw.restart = s.fw.restart := d.trans hu.2.2.1
    have he : ∀ e, (u.answered h op eng r).examines e = s.examines e := fun e => by simp [State.examines, hb, hf]
    unfold State.headReady at hr ⊢
    rw [hqq]
    simp only [he]
    exact hr

theorem State.flush_nil (n : Nat) (p : Path) (s : State) (h : (s.path p).queue = []) : State.flush n p s = s := by
  cases n with
  | zero => rfl
  | succ n => simp [State.flush, h]

/-- The reply to the one command in a queue leaves, with something counted. -/
theorem State.answerFirst_counted (s : State) (h : Hdr) (op : Nat) (b : Bytes) (n eng : Nat) (r : Reply) (f : PathCounters → PathCounters)
    (hq : (s.path h.path).queue = [newEntry h op b n false 0 0]) (hop : op ≠ 0x10000) (hs : ∀ c : Fin 4, (s.fw.cores.get c).submit = none) :
    State.answerFirst (s.countPath h.path f) h.path (newEntry h op b n false 0 0) eng r =
      if r.status = 0 ∧ h.quiet = true then (if h.path = .pcie ∧ ¬ s.ringOn then (s.onPath h.path fun p => { p with queue := [], cnt := f p.cnt }).onHost
        fun k => { k with bootBusy := false } else s.onPath h.path fun p => { p with queue := [], cnt := f p.cnt })
      else (s.onPath h.path fun p => { p with queue := [], cnt := f p.cnt }).handReply h.path (s.replyPacket h op eng r) h.ticket.toNat 0 0 0 := by
  have e1 : (newEntry h op b n false 0 0).hdr = h := rfl
  show State.flush 800 h.path ((s.onPath h.path fun p => { p with cnt := f p.cnt }).onPath h.path
    fun p => p.onFirst fun x => x.answer (s.replyPacket h op eng r) (decide (r.status = 0))) = _
  rw [State.onPath_onPath]
  generalize hx : (newEntry h op b n false 0 0).answer (s.replyPacket h op eng r) (decide (r.status = 0)) = x
  have x1 : x.phase = .answered := by rw [← hx]; rfl
  have x2 : x.opcode = op := by rw [← hx]; rfl
  have x3 : x.reply = if r.status = 0 ∧ h.quiet = true then none else some (s.replyPacket h op eng r) := by
    rw [← hx]; simp [Entry.answer, e1]
  have x4 : x.hdr = h ∧ x.replyAddr = 0 ∧ x.replyBytes = 0 ∧ x.after = 0 := by rw [← hx]; exact ⟨rfl, rfl, rfl, rfl⟩
  rw [State.onPath_congr s h.path _ (fun p => { p with queue := [x], cnt := f p.cnt }) (by
    simp only [PathState.onFirst, hq, modFirst]
    have : (newEntry h op b n false 0 0).phase = .queued := rfl
    rw [if_pos (by simp [this])]
    rw [← hx])]
  have hfl : ∀ t : State, (s.onPath h.path fun p => { p with queue := [], cnt := f p.cnt }).waitsAs t →
      State.flush 799 h.path t = t := fun t ht => State.flush_nil _ _ _ (by rw [ht.1]; simp)
  rw [State.flush]
  simp only [State.path_onPath_self]
  rw [if_pos x1, x2, if_neg hop, x3, State.onPath_onPath]
  by_cases hc : r.status = 0 ∧ h.quiet = true
  · simp only [if_pos hc]
    by_cases h2 : h.path = .pcie ∧ ¬ s.ringOn = true
    · have h2' : h.path = .pcie ∧ ¬ (s.onPath h.path fun p => { p with queue := [x], cnt := f p.cnt }).ringOn = true := h2
      rw [if_pos h2, if_pos h2']
      exact hfl _ ⟨fun _ => rfl, rfl, rfl, rfl, fun _ => rfl⟩
    · have h2' : ¬ (h.path = .pcie ∧ ¬ (s.onPath h.path fun p => { p with queue := [x], cnt := f p.cnt }).ringOn = true) := h2
      rw [if_neg h2, if_neg h2']
      exact hfl _ (State.waitsAs_refl _)
  · simp only [if_neg hc, x4]
    exact hfl _ (State.handReply_waits _ _ _ _ _ _ _ hs)

/-- The reply to the one command in a queue leaves. -/
theorem State.answerFirst_lone (s : State) (h : Hdr) (op : Nat) (b : Bytes) (n eng : Nat) (r : Reply)
    (hq : (s.path h.path).queue = [newEntry h op b n false 0 0]) (hop : op ≠ 0x10000) (hs : ∀ c : Fin 4, (s.fw.cores.get c).submit = none) :
    State.answerFirst (s.countPath h.path fun c => { c with executed := c.executed + 1 }) h.path (newEntry h op b n false 0 0) eng r = s.answered h op eng r :=
  s.answerFirst_counted h op b n eng r _ hq hop hs

/-- A command that the engine hears, whose card finds nothing against it, and whose reply is ready: its effect, its reply, and what its card does after the reply. -/
theorem State.Hears.done {s : State} {h : Hdr} {op : Nat} (k : s.Hears h op) (b : Bytes) (hb : b.length % 4 = 0 ∧ b.length ≤ 4096) (c : Card)
    (hop : op ≠ 0x10000) (hc : cardOf op b = some c) (hj : c.judge h b (s.heard h op b) = none) (u : State) (r : Reply)
    (hr : c.run h (s.heard h op b) = (u, .done r)) (hq : ∀ p, (u.path p).queue = ((s.heard h op b).path p).queue)
    (hs : ∀ c : Fin 4, (u.fw.cores.get c).submit = none)
    (hi : (c.after (u.answered h op s.engineState r)).idle) :
    s.command h op b = c.after (u.answered h op s.engineState r) := by
  have hrun : (s.heard h op b).judgeEntry h.path (newEntry h op b (s.advance h.tick).now false 0 0) = c.after (u.answered h op s.engineState r) := by
    unfold State.judgeEntry
    have e0 : (newEntry h op b (s.advance h.tick).now false 0 0).opcode = op := rfl
    have e1 : (newEntry h op b (s.advance h.tick).now false 0 0).payload = b := rfl
    have e2 : (newEntry h op b (s.advance h.tick).now false 0 0).hdr = h := rfl
    simp only [e0, e1, e2, hc, hj]
    unfold State.runCard
    simp only [e2, hr]
    have he : (s.heard h op b).engineState = s.engineState := rfl
    rw [he]
    have hq' : (u.path h.path).queue = [newEntry h op b (s.advance h.tick).now false 0 0] := by rw [hq, State.heard_queue]
    rw [State.answerFirst_lone u h op b _ _ r hq' hop hs]
  unfold State.command
  rw [k.arrive b hb]
  have hd : State.drainAll (s.arrived h op b) = c.after (u.answered h op s.engineState r) := by
    unfold State.drainAll
    rw [k.drain b 799, hrun]
    exact State.drain_idle _ _ (State.nextHead_none _ hi.1)
  have hd2 : State.drainAll (c.after (u.answered h op s.engineState r)) = c.after (u.answered h op s.engineState r) :=
    State.drain_idle _ _ (State.nextHead_none _ hi.1)
  unfold State.settle
  rw [hd, State.serve_idle _ 8 hi.2.1, hd2, State.settleSubmits_idle _ hi.2.2]

/-- The same for a command whose card does nothing after its reply. -/
theorem State.Hears.ran {s : State} {h : Hdr} {op : Nat} (k : s.Hears h op) (b : Bytes) (hb : b.length % 4 = 0 ∧ b.length ≤ 4096) (c : Card)
    (hop : op ≠ 0x10000) (hc : cardOf op b = some c) (ha : c.after = id) (hj : c.judge h b (s.heard h op b) = none) (u : State) (r : Reply)
    (hr : c.run h (s.heard h op b) = (u, .done r)) (hu : (s.heard h op b).waitsAs u) :
    s.command h op b = u.answered h op s.engineState r := by
  have hi : (c.after (u.answered h op s.engineState r)).idle := by rw [ha]; exact k.idle_answered b u hu _ _
  have := k.done b hb c hop hc hj u r hr hu.1 (fun c => (hu.2.2.2.2 c).trans (k.idle.2.2 c)) hi
  rw [this, ha]; rfl

/-- A command that the engine hears, whose card finds nothing against it, and whose reply waits. -/
theorem State.Hears.held {s : State} {h : Hdr} {op : Nat} (k : s.Hears h op) (b : Bytes) (hb : b.length % 4 = 0 ∧ b.length ≤ 4096) (c : Card)
    (hc : cardOf op b = some c) (ha : c.after = id) (hj : c.judge h b (s.heard h op b) = none) (u : State) (kind : HeldKind)
    (hr : c.run h (s.heard h op b) = (u, .held kind)) (hu : (s.heard h op b).waitsAs u) :
    s.command h op b = u.holding h s.engineState kind := by
  have hrun : (s.heard h op b).judgeEntry h.path (newEntry h op b (s.advance h.tick).now false 0 0) = u.holding h s.engineState kind := by
    unfold State.judgeEntry
    have e0 : (newEntry h op b (s.advance h.tick).now false 0 0).opcode = op := rfl
    have e1 : (newEntry h op b (s.advance h.tick).now false 0 0).payload = b := rfl
    have e2 : (newEntry h op b (s.advance h.tick).now false 0 0).hdr = h := rfl
    simp only [e0, e1, e2, hc, hj]
    unfold State.runCard
    simp only [e2, hr, ha, id]
    have he : (s.heard h op b).engineState = s.engineState := rfl
    rw [he]
    unfold State.holdFirst State.countPath
    rw [State.onPath_onPath]
    unfold State.holding
    apply State.onPath_congr
    have hq' : (u.path h.path).queue = [newEntry h op b (s.advance h.tick).now false 0 0] := by rw [hu.1, State.heard_queue]
    simp only [PathState.onFirst, hq', modFirst]
    have : (newEntry h op b (s.advance h.tick).now false 0 0).phase = .queued := rfl
    rw [if_pos (by simp [this])]
    rfl
  have hi : (u.holding h s.engineState kind).idle := by
    refine ⟨fun q => ?_, ?_, fun c => (hu.2.2.2.2 c).trans (k.idle.2.2 c)⟩
    · by_cases hq : h.path = q
      · subst hq
        have hq' : (u.path h.path).queue = [newEntry h op b (s.advance h.tick).now false 0 0] := by rw [hu.1, State.heard_queue]
        simp [State.headReady, State.holding, hq']
      · have hr := k.idle.1 q
        have hqq : ((u.holding h s.engineState kind).path q).queue = (s.path q).queue := by
          unfold State.holding
          rw [State.path_onPath_ne _ _ _ _ hq, hu.1 q, State.heard_path_ne _ _ _ _ _ hq]
        have hb' : (u.holding h s.engineState kind).board.boot = s.board.boot := hu.2.1
        have hf : (u.holding h s.engineState kind).fw.restart = s.fw.restart := hu.2.2.1
        have he : ∀ e, (u.holding h s.engineState kind).examines e = s.examines e := fun e => by simp [State.examines, hb', hf]
        unfold State.headReady at hr ⊢
        rw [hqq]
        simp only [he]
        exact hr
    · exact hu.2.2.2.1.trans k.idle.2.1
  unfold State.command
  rw [k.arrive b hb]
  have hd : State.drainAll (s.arrived h op b) = u.holding h s.engineState kind := by
    unfold State.drainAll
    rw [k.drain b 799, hrun]
    exact State.drain_idle _ _ (State.nextHead_none _ hi.1)
  have hd2 : State.drainAll (u.holding h s.engineState kind) = u.holding h s.engineState kind :=
    State.drain_idle _ _ (State.nextHead_none _ hi.1)
  unfold State.settle
  rw [hd, State.serve_idle _ 8 hi.2.1, hd2, State.settleSubmits_idle _ hi.2.2]

/-- A card finds nothing against a command. -/
theorem Card.judge_none (c : Card) (h : Hdr) (b : Bytes) (s : State) (h1 : headerOk h = true) (h2 : c.reservedOk = true) (h3 : c.admits h = true)
    (h4 : c.sizeOk = true) (h5 : c.busy s = none) (h6 : s.engineState ∈ c.states) (h7 : c.checks s = none) : c.judge h b s = none := by
  simp [Card.judge, h1, h2, h3, h4, h5, h6, h7]

/-- A heard command whose card finds nothing against it and whose effect leaves the paths, the board and the firmware alone takes effect and is answered. -/
theorem State.Hears.does {s : State} {h : Hdr} {op : Nat} (k : s.Hears h op) {b : Bytes} (c : Card) {ps : List Part} {u : State} {r : Reply}
    (hb : b.length % 4 = 0 ∧ b.length ≤ 4096) (hop : op ≠ 0x10000) (hc : cardOf op b = some c) (ha : c.after = id)
    (hf : Frame ps (s.heard h op b) (c.run h (s.heard h op b)).1) (w : (ps.contains .paths || ps.contains .board || ps.contains .fw) = false)
    (h2 : c.reservedOk = true) (h3 : c.admits h = true) (h4 : c.sizeOk = true) (h5 : c.busy (s.heard h op b) = none)
    (h6 : s.engineState ∈ c.states) (h7 : c.checks (s.heard h op b) = none) (hr : c.run h (s.heard h op b) = (u, .done r)) :
    s.command h op b = u.answered h op s.engineState r := by
  have hu := hf.waitsAs w
  rw [hr] at hu
  exact k.ran b hb c hop hc ha (c.judge_none h b _ k.flags.2 h2 h3 h4 h5 h6 h7) u r hr hu

/-- The same for a command whose reply waits. -/
theorem State.Hears.holds {s : State} {h : Hdr} {op : Nat} (k : s.Hears h op) {b : Bytes} (c : Card) {ps : List Part} {u : State} {kind : HeldKind}
    (hb : b.length % 4 = 0 ∧ b.length ≤ 4096) (hc : cardOf op b = some c) (ha : c.after = id)
    (hf : Frame ps (s.heard h op b) (c.run h (s.heard h op b)).1) (w : (ps.contains .paths || ps.contains .board || ps.contains .fw) = false)
    (h2 : c.reservedOk = true) (h3 : c.admits h = true) (h4 : c.sizeOk = true) (h5 : c.busy (s.heard h op b) = none)
    (h6 : s.engineState ∈ c.states) (h7 : c.checks (s.heard h op b) = none) (hr : c.run h (s.heard h op b) = (u, .held kind)) :
    s.command h op b = u.holding h s.engineState kind := by
  have hu := hf.waitsAs w
  rw [hr] at hu
  exact k.held b hb c hc ha (c.judge_none h b _ k.flags.2 h2 h3 h4 h5 h6 h7) u kind hr hu

/-- A command turned away leaves nothing that can go on. -/
theorem State.turned_idle (s : State) (h : Hdr) (op : Nat) (b : Bytes) (r : Reply) (k : s.Hears h op) : (s.turned h op b r).idle := by
  have hs : ∀ c : Fin 4, ((s.heard h op b).fw.cores.get c).submit = none := k.idle.2.2
  generalize hx : ((s.heard h op b).onPath h.path fun p => { p with
    queue := [], cnt := { p.cnt with badPackets := p.cnt.badPackets + (if r.status = 4 then 1 else 0)
                                     stateReplies := p.cnt.stateReplies + (if r.status = 2 then 1 else 0) } }) = x
  have hw : x.waitsAs (s.turned h op b r) := by
    unfold State.turned
    rw [hx]
    exact State.handReply_waits _ _ _ _ _ _ _ (by rw [← hx]; exact hs)
  refine State.idle_as hw ⟨fun q => ?_, by rw [← hx]; exact k.idle.2.1, by rw [← hx]; exact hs⟩
  by_cases hq : h.path = q
  · subst hq
    have : (x.path h.path).queue = [] := by rw [← hx]; simp
    simp [State.headReady, this]
  · have h1 := k.idle.1 q
    have hqq : (x.path q).queue = (s.path q).queue := by
      rw [← hx, State.path_onPath_ne _ _ _ _ hq, State.heard_path_ne _ _ _ _ _ hq]
    have he : ∀ e, x.examines e = s.examines e := fun e => by rw [← hx]; rfl
    unfold State.headReady at h1 ⊢
    rw [hqq]
    simp only [he]
    exact h1

/-- A command that the engine hears and whose card finds something against it is turned away. -/
theorem State.Hears.turns {s : State} {h : Hdr} {op : Nat} (k : s.Hears h op) {b : Bytes} (hb : b.length % 4 = 0 ∧ b.length ≤ 4096) (hop : op ≠ 0x10000) {r : Reply}
    (hr : r.status ≠ 0) {c : Card} (hc : cardOf op b = some c) (hj : c.judge h b (s.heard h op b) = some r) (ho : c.onRefused r (s.heard h op b) = s.heard h op b) :
    s.command h op b = s.turned h op b r := by
  have hrun : (s.heard h op b).judgeEntry h.path (newEntry h op b (s.advance h.tick).now false 0 0) = s.turned h op b r := by
    unfold State.judgeEntry
    have e0 : (newEntry h op b (s.advance h.tick).now false 0 0).opcode = op := rfl
    have e1 : (newEntry h op b (s.advance h.tick).now false 0 0).payload = b := rfl
    have e2 : (newEntry h op b (s.advance h.tick).now false 0 0).hdr = h := rfl
    simp only [e0, e1, e2, hc, hj, ho]
    unfold State.turnAway
    dsimp only
    rw [State.answerFirst_counted _ h op b _ _ r _ (State.heard_queue _ _ _ _) hop k.idle.2.2, if_neg (fun q => hr q.1)]
    rfl
  have hi := s.turned_idle h op b r k
  unfold State.command
  rw [k.arrive b hb]
  have hd : State.drainAll (s.arrived h op b) = s.turned h op b r := by
    unfold State.drainAll
    rw [k.drain b 799, hrun]
    exact State.drain_idle _ _ (State.nextHead_none _ hi.1)
  have hd2 : State.drainAll (s.turned h op b r) = s.turned h op b r := State.drain_idle _ _ (State.nextHead_none _ hi.1)
  unfold State.settle
  rw [hd, State.serve_idle _ 8 hi.2.1, hd2, State.settleSubmits_idle _ hi.2.2]

/-- Clearing a path's tags leaves what waits as it is. -/
theorem State.tags_waits (s : State) (p : Path) (f : List (Nat × Nat) → List (Nat × Nat)) : s.waitsAs (s.onPath p fun x => { x with tags := f x.tags }) := by
  refine ⟨fun q => ?_, rfl, rfl, rfl, fun _ => rfl⟩
  by_cases k : p = q
  · subst k; simp
  · rw [State.path_onPath_ne _ _ _ _ k]

theorem State.clearBoughTags_waits (s : State) : s.waitsAs s.clearBoughTags := State.tags_waits s .bough fun _ => []

theorem State.applySetup_waits (s : State) : s.waitsAs s.applySetup := by
  unfold State.applySetup
  split
  · exact State.waitsAs_refl s
  · split
    · exact State.waitsAs_refl s
    · exact State.tags_waits s .pcie fun _ => []

theorem State.leaveOrphan_waits (s : State) (role : Role) (epoch manager : Nat) : s.waitsAs (s.leaveOrphan role epoch manager) := by
  unfold State.leaveOrphan
  have h1 : s.waitsAs ((s.onGrove fun g => { g with role := role, epoch := epoch, manager := manager, hasManager := true }).clearBoughTags) :=
    State.waitsAs_trans ((Laws.onGrove_frame s _).waitsAs rfl) (State.clearBoughTags_waits _)
  dsimp only
  split
  · exact State.waitsAs_trans h1 ((Laws.raise_frame _ _).waitsAs rfl)
  · exact h1

/-- The engine right after RESET has nothing waiting. -/
theorem State.toReset_idle (s : State) : s.toReset.leaveReset.idle := by
  have h : s.toReset.idle := ⟨fun p => by cases p <;> rfl, rfl, fun c => by
    have : c = 0 ∨ c = 1 ∨ c = 2 ∨ c = 3 := by omega
    rcases this with rfl | rfl | rfl | rfl <;> rfl⟩
  unfold State.leaveReset
  split
  · exact ⟨fun p => by cases p <;> rfl, rfl, h.2.2⟩
  · exact h

end Sys2Proof.Machine
end

