-- ==== Sys2Proof/Laws/Calls.lean ====
section
/-!
SUPPORT. What becomes of a service call that is served at once: its effect, its end, and nothing else where nothing waits.
-/
namespace Sys2Proof.Machine

theorem State.drainAll_idle (s : State) (h : ∀ p, s.headReady p = none) : s.drainAll = s := State.drain_idle s 800 (State.nextHead_none s h)

theorem State.onFw_onFw (s : State) (f g : Firmware → Firmware) : (s.onFw f).onFw g = s.onFw fun w => g (f w) := rfl

/-- The window of a core changes, and of what waits nothing does, where the core still submits what it did. -/
theorem State.onCore_waits (s : State) (c : Fin 4) (f : Core → Core) (h : ∀ k, (f k).submit = k.submit) : s.waitsAs (s.onCore c f) := by
  refine ⟨fun _ => rfl, rfl, rfl, rfl, fun d => ?_⟩
  show ((vmod s.fw.cores c f).get d).submit = _
  rw [vmod_get]
  split
  · next e => rw [h, e]
  · rfl

theorem State.onCore_onCore (s : State) (c : Fin 4) (f g : Core → Core) : (s.onCore c f).onCore c g = s.onCore c fun k => g (f k) := by
  simp only [State.onCore, State.onFw]
  rw [vmod_vmod]

theorem State.called_waits (s : State) (t : Nat) (core : Fin 4) (func : Nat) (args : List Nat) : s.waitsAs (s.called t core func args) :=
  State.onCore_waits _ _ _ fun _ => rfl

theorem State.called_func (s : State) (t : Nat) (core : Fin 4) (func : Nat) (args : List Nat) :
    ((s.called t core func args).fw.cores.get core).func = func := by
  show ((vmod (s.advance t).fw.cores core _).get core).func = func
  rw [vmod_get_self]

theorem State.called_args (s : State) (t : Nat) (core : Fin 4) (func : Nat) (args : List Nat) (i : Nat) (h : i < args.length) :
    ((s.called t core func args).fw.cores.get core).args.getD i 0 = args.getD i 0 := by
  show (((vmod (s.advance t).fw.cores core _).get core).args).getD i 0 = _
  rw [vmod_get_self]
  show (args ++ _).getD i 0 = _
  simp [List.getD, List.getElem?_append_left h]

theorem State.callWaits_onCore (s : State) (c : Fin 4) (f : Core → Core) (h : ∀ k, (f k).waits = k.waits) : (s.onCore c f).callWaits = s.callWaits := by
  have e : ∀ t : State, t.callWaits = (List.finRange 4).any fun i => (t.fw.cores.get i).waits.isSome := by
    intro t
    rw [State.callWaits, Bool.eq_iff_iff, Vector.any_eq_true, List.any_eq_true]
    exact ⟨fun ⟨i, hi, hw⟩ => ⟨⟨i, hi⟩, List.mem_finRange _, hw⟩, fun ⟨i, _, hw⟩ => ⟨i.val, i.isLt, hw⟩⟩
  rw [e, e]
  congr 1
  funext d
  show ((vmod s.fw.cores c f).get d).waits.isSome = _
  rw [vmod_get]
  split
  · next ed => rw [h, ed]
  · rfl

/-- A call on an engine on which nothing waits is served at once; then what waited goes on. -/
theorem State.Calls.served {s : State} {core : Fin 4} (k : s.Calls core) (t func : Nat) (args : List Nat) :
    s.event t (fun v => v.serviceCall core func args) = .next ((s.called t core func args).serveOne core).goesOn := by
  have hq : (s.advance t).fw.callQueue = [] := k.idle.2.1
  have hs : (s.advance t).sapwood = true := k.sapwood
  have hp : ((s.advance t).fw.cores.get core).pending = false := k.free
  have hY : ((s.advance t).onCore core fun k => { k with args := args ++ k.args.drop args.length }).onCore core (fun k => { k with pending := true, func := func }) =
      s.called t core func args := by
    rw [State.onCore_onCore]; rfl
  have hcq : (s.called t core func args).fw.callQueue = [] := hq
  have hX : (s.advance t).serviceCall core func args =
      ((s.called t core func args).onFw fun w => { w with callQueue := [core.val] }).settle := by
    unfold State.serviceCall
    rw [hs, if_neg (by decide)]
    dsimp only
    rw [hp, if_neg (by decide), hY]
    simp only [State.onFw, hcq, List.nil_append]
  have hY' : ((s.called t core func args).onFw fun w => { w with callQueue := [core.val] }).onFw (fun w => { w with callQueue := [] }) = s.called t core func args := by
    have : ∀ u : State, u.fw.callQueue = [] → (u.onFw fun w => { w with callQueue := [core.val] }).onFw (fun w => { w with callQueue := [] }) = u := by
      intro u hu
      show { u with fw := { u.fw with callQueue := [] } } = u
      have e : { u.fw with callQueue := [] } = u.fw := by
        have : u.fw = { u.fw with callQueue := u.fw.callQueue } := rfl
        rw [hu] at this; exact this.symm
      rw [e]
    exact this _ hcq
  have hready : ∀ p, ((s.called t core func args).onFw fun w => { w with callQueue := [core.val] }).headReady p = none := by
    intro p
    have : ((s.called t core func args).onFw fun w => { w with callQueue := [core.val] }).headReady p = (s.called t core func args).headReady p := rfl
    rw [this, State.headReady_as (s.called_waits t core func args)]
    exact k.idle.1 p
  have hw : ((s.called t core func args).onFw fun w => { w with callQueue := [core.val] }).callWaits = false := by
    show (s.called t core func args).callWaits = false
    unfold State.called
    rw [State.callWaits_onCore (s.advance t) core (fun k => { k with args := args ++ k.args.drop args.length, pending := true, func := func }) fun _ => rfl]
    exact k.alone
  have hsw : ((s.called t core func args).onFw fun w => { w with callQueue := [core.val] }).sapwood = true := k.sapwood
  have hserve : State.serve 8 ((s.called t core func args).onFw fun w => { w with callQueue := [core.val] }) =
      State.serve 7 ((s.called t core func args).serveOne core) := by
    rw [State.serve, hsw, hw]
    have : ((s.called t core func args).onFw fun w => { w with callQueue := [core.val] }).fw.callQueue = [core.val] := rfl
    rw [if_neg (by decide), this]
    dsimp only
    rw [hY']
    have : Fin.ofNat 4 core.val = core := by apply Fin.ext; simp
    rw [this]
  unfold State.event
  dsimp only
  rw [hX]
  refine congrArg Host.Outcome.next (congrArg State.settle ?_)
  rw [State.settle, State.drainAll_idle _ hready, hserve]

theorem State.goesOn_idle (s : State) (h : s.idle) : s.goesOn = s := by
  unfold State.goesOn
  rw [State.serve_idle s 7 h.2.1, State.drainAll_idle s h.1, State.settleSubmits_idle s h.2.2, State.settle_idle s h]

/-- A call that returns leaves nothing waiting where its effect did not. -/
theorem State.endCall_idle {s : State} (h : s.idle) (core : Fin 4) (func : Nat) (v : Served) (n : ∀ k, v = .waits k → True) : (s.endCall core func v).idle := by
  have hw : s.waitsAs (s.onFw fun w => w.count func v) := ⟨fun _ => rfl, rfl, rfl, rfl, fun _ => rfl⟩
  have h1 := State.idle_as hw h
  unfold State.endCall
  dsimp only
  split
  · refine ⟨fun p => ?_, h1.2.1, fun c => ?_⟩
    · exact h1.1 p
    · show ((vmod s.fw.cores core _).get c).submit = none
      rw [vmod_get]
      split
      · rfl
      · exact h1.2.2 c
  · exact State.idle_as (State.onCore_waits _ _ _ fun _ => rfl) h1
  · exact h1
  · exact h1

/-- A call served at once whose effect leaves what waits as it is. -/
theorem State.Calls.serves {s : State} {core : Fin 4} (k : s.Calls core) {i : Instr} {t func : Nat} {args : List Nat} {effect : State → State} {v : Served}
    (row : exec i s = s.event t fun v => v.serviceCall core func args)
    (run : (s.called t core func args).serveFunc core func = (effect (s.called t core func args), v))
    (w : (s.called t core func args).waitsAs (effect (s.called t core func args))) : s.Serves i t core func args v effect := by
  unfold State.Serves
  rw [row, k.served]
  have : (s.called t core func args).serveOne core = (effect (s.called t core func args)).endCall core func v := by
    unfold State.serveOne
    rw [State.called_func]
    dsimp only
    rw [run]
  rw [this, State.goesOn_idle]
  exact State.endCall_idle (State.idle_as (State.waitsAs_trans (s.called_waits t core func args) w) k.idle) core func v fun _ _ => trivial

/-- A call served at once, and what waited goes on. -/
theorem State.Calls.servesThen {s : State} {core : Fin 4} (k : s.Calls core) {i : Instr} {t func : Nat} {args : List Nat} {effect : State → State} {v : Served}
    (row : exec i s = s.event t fun v => v.serviceCall core func args)
    (run : (s.called t core func args).serveFunc core func = (effect (s.called t core func args), v)) :
    s.ServesThen i t core func args v effect := by
  unfold State.ServesThen
  rw [row, k.served]
  unfold State.serveOne
  rw [State.called_func]
  dsimp only
  rw [run]

end Sys2Proof.Machine
end

