-- ==== Sys2Proof/Laws/FrameRows.lean ====
section
/-!
SUPPORT. What each row other than a command can change, one lemma each.
-/
set_option maxRecDepth 2000
namespace Sys2Proof.Laws
open Sys2Proof.Machine

theorem execLockWindowEnd_changes (t : Nat) (loop : WhichLoop) (count : Nat) (word : Nat) (s : State) : s.ChangesThen t [.clock, .rings, .ring4, .paths, .host, .events, .fw, .grove, .link] (execLockWindowEnd t loop count word s) := by
  unfold execLockWindowEnd
  unfold State.event
  refine .inr ⟨_, rfl, ?_⟩
  repeat' first
    | exact rfl
    | with_reducible apply Frame.refl
    | with_reducible apply Frame.step (mainWindow_frame _ _ _)
    | with_reducible apply Frame.step (fallbackLost_frame _)
    | split
    | dsimp only

theorem execLockLost_changes (t : Nat) (loop : WhichLoop) (s : State) : s.ChangesThen t [.clock, .rings, .events, .grove, .link] (execLockLost t loop s) := by
  unfold execLockLost
  unfold State.event
  refine .inr ⟨_, rfl, ?_⟩
  repeat' first
    | exact rfl
    | with_reducible apply Frame.refl
    | with_reducible apply Frame.step (fallbackLost_frame _)
    | with_reducible apply Frame.step (mainLost_frame _)
    | split
    | dsimp only

theorem execBandSearchDone_changes (t : Nat) (band : Nat) (fine : Nat) (gain : Nat) (s : State) : s.Changes t [.clock] (execBandSearchDone t band fine gain s) := by
  unfold execBandSearchDone
  refine .inr ⟨_, rfl, ?_⟩
  repeat' first
    | exact rfl
    | with_reducible apply Frame.refl
    | with_reducible apply Frame.step (onClock_frame _ _)
    | split
    | dsimp only

theorem execAcquisitionDone_changes (t : Nat) (s : State) : s.Changes t [.clock] (execAcquisitionDone t s) := by
  unfold execAcquisitionDone
  refine .inr ⟨_, rfl, ?_⟩
  repeat' first
    | exact rfl
    | with_reducible apply Frame.refl
    | with_reducible apply Frame.step (onClock_frame _ _)
    | split
    | dsimp only

theorem execCommonStart_changes (t : Nat) (s : State) : s.Changes t [.board, .clock, .quads, .events, .grove, .link] (execCommonStart t s) := by
  unfold execCommonStart
  refine .inr ⟨_, rfl, ?_⟩
  repeat' first
    | exact rfl
    | with_reducible apply Frame.refl
    | with_reducible apply Frame.step (startCommon_frame _ _)
    | split
    | dsimp only

theorem execSyncEdge_changes (t : Nat) (high : Bool) (fraction : BitVec 32) (s : State) : s.Changes t [.clock, .events, .grove, .link] (execSyncEdge t high fraction s) := by
  unfold execSyncEdge
  refine .inr ⟨_, rfl, ?_⟩
  repeat' first
    | exact rfl
    | with_reducible apply Frame.refl
    | with_reducible apply Frame.step (syncRealign_frame _ _ _)
    | with_reducible apply Frame.step (onClock_frame _ _)
    | split
    | dsimp only

theorem execSyncTimeout_changes (t : Nat) (s : State) : s.Changes t [.clock, .events, .grove, .link] (execSyncTimeout t s) := by
  unfold execSyncTimeout
  refine .inr ⟨_, rfl, ?_⟩
  repeat' first
    | exact rfl
    | with_reducible apply Frame.refl
    | with_reducible apply Frame.step (raise_frame _ _)
    | with_reducible apply Frame.step (onClock_frame _ _)
    | split
    | dsimp only

theorem execPlanHopTimeout_changes (t : Nat) (s : State) : s.ChangesThen t [.clock, .ring4, .paths, .host, .fw, .grove, .link] (execPlanHopTimeout t s) := by
  unfold execPlanHopTimeout
  unfold State.event
  refine .inr ⟨_, rfl, ?_⟩
  repeat' first
    | exact rfl
    | with_reducible apply Frame.refl
    | with_reducible apply Frame.step (hopEnds_frame _)
    | split
    | dsimp only

theorem execRefLost_changes (t : Nat) (s : State) : s.Changes t [.clock, .cal, .rings, .events, .grove, .link] (execRefLost t s) := by
  unfold execRefLost
  refine .inr ⟨_, rfl, ?_⟩
  repeat' first
    | exact rfl
    | with_reducible apply Frame.refl
    | with_reducible apply Frame.step (referenceLost_frame _)
    | split
    | dsimp only

theorem execRefReturned_changes (t : Nat) (phase : Int) (offset : Int) (s : State) : s.Changes t [.clock, .events, .grove, .link] (execRefReturned t phase offset s) := by
  unfold execRefReturned
  refine .inr ⟨_, rfl, ?_⟩
  repeat' first
    | exact rfl
    | with_reducible apply Frame.refl
    | with_reducible apply Frame.step (referenceBack_frame _ _ _)
    | split
    | dsimp only

theorem execSlewEnd_changes (t : Nat) (phase : Int) (s : State) : s.Changes t [.clock, .rings, .events, .grove, .link] (execSlewEnd t phase s) := by
  unfold execSlewEnd
  refine .inr ⟨_, rfl, ?_⟩
  repeat' first
    | exact rfl
    | with_reducible apply Frame.refl
    | with_reducible apply Frame.step (slewDone_frame _ _)
    | split
    | dsimp only

theorem execFallbackSwitch_changes (t : Nat) (s : State) : s.Changes t [.clock, .cal, .events, .grove, .link] (execFallbackSwitch t s) := by
  unfold execFallbackSwitch
  refine .inr ⟨_, rfl, ?_⟩
  repeat' first
    | exact rfl
    | with_reducible apply Frame.refl
    | with_reducible apply Frame.step (switchTo_frame _ _ _ _)
    | with_reducible apply Frame.step (runNoRefin_frame _)
    | with_reducible apply Frame.step (scheduleStop_frame _)
    | with_reducible apply Frame.step (onClock_frame _ _)
    | split
    | dsimp only

theorem execClockRestore_changes (t : Nat) (s : State) : s.Changes t [.clock, .events, .grove, .link] (execClockRestore t s) := by
  unfold execClockRestore
  refine .inr ⟨_, rfl, ?_⟩
  repeat' first
    | exact rfl
    | with_reducible apply Frame.refl
    | with_reducible apply Frame.step (switchTo_frame _ _ _ _)
    | split
    | dsimp only

theorem execFallbackStandby_changes (t : Nat) (s : State) : s.Changes t [.clock] (execFallbackStandby t s) := by
  unfold execFallbackStandby
  refine .inr ⟨_, rfl, ?_⟩
  repeat' first
    | exact rfl
    | with_reducible apply Frame.refl
    | with_reducible apply Frame.step (onClock_frame _ _)
    | split
    | dsimp only

theorem execSampleClockStop_changes (t : Nat) (s : State) : s.Changes t [.clock, .inputs, .quads, .cal, .units, .tagged, .decided, .evaluated, .groups, .accs, .trigouts, .mem, .rings, .events, .stim, .grove, .link, .freeCount] (execSampleClockStop t s) := by
  unfold execSampleClockStop
  refine .inr ⟨_, rfl, ?_⟩
  repeat' first
    | exact rfl
    | with_reducible apply Frame.refl
    | with_reducible apply Frame.step (stopClocks_frame _ _)
    | split
    | dsimp only

theorem execSampleClockRestart_changes (t : Nat) (uncertainty : Nat) (s : State) : s.Changes t [.clock, .banks, .events, .grove, .link] (execSampleClockRestart t uncertainty s) := by
  unfold execSampleClockRestart
  refine .inr ⟨_, rfl, ?_⟩
  repeat' first
    | exact rfl
    | with_reducible apply Frame.refl
    | with_reducible apply Frame.step (restartClocks_frame _ _ _)
    | split
    | dsimp only

theorem execXoLost_changes (t : Nat) (s : State) : s.ChangesThen t [.board, .clock, .quads, .cal, .mem, .ring4, .paths, .host, .events, .fw, .grove, .link] (execXoLost t s) := by
  unfold execXoLost
  unfold State.event
  refine .inr ⟨_, rfl, ?_⟩
  repeat' first
    | exact rfl
    | with_reducible apply Frame.refl
    | with_reducible apply Frame.step (fatal_frame _ _ _ _ _)
    | with_reducible apply Frame.step (onClock_frame _ _)
    | split
    | dsimp only

theorem execKeeperTrim_changes (t : Nat) (step : Nat) (s : State) : s.Changes t [.clock] (execKeeperTrim t step s) := by
  unfold execKeeperTrim
  refine .inr ⟨_, rfl, ?_⟩
  repeat' first
    | exact rfl
    | with_reducible apply Frame.refl
    | with_reducible apply Frame.step (onClock_frame _ _)
    | split
    | dsimp only

theorem execSqRephaseDone_changes (t : Nat) (s : State) : s.ChangesThen t [.clock, .ring4, .paths, .host, .fw, .stim, .grove, .link] (execSqRephaseDone t s) := by
  unfold execSqRephaseDone
  unfold State.event
  refine .inr ⟨_, rfl, ?_⟩
  repeat' first
    | exact rfl
    | with_reducible apply Frame.refl
    | with_reducible apply Frame.step (seqEnabled_frame _)
    | with_reducible apply Frame.step (onClock_frame _ _)
    | split
    | dsimp only

theorem execSampleLinkBlock_changes (t : Nat) (bank : Fin 16) (data : LinkData) (s : State) : s.ChangesThen t [.board, .clock, .inputs, .quads, .banks, .cal, .units, .tagged, .decided, .evaluated, .groups, .accs, .trigouts, .mem, .rings, .ring4, .paths, .host, .events, .fw, .stim, .grove, .link, .freeCount] (execSampleLinkBlock t bank data s) := by
  unfold execSampleLinkBlock
  split
  · exact .inl rfl
  unfold State.event
  refine .inr ⟨_, rfl, ?_⟩
  repeat' first
    | exact rfl
    | with_reducible apply Frame.refl
    | with_reducible apply Frame.step (linkBlock_frame _ _ _)
    | split
    | dsimp only

theorem execNak_changes (t : Nat) (bank : Fin 16) (s : State) : s.Changes t [.banks] (execNak t bank s) := by
  unfold execNak
  refine .inr ⟨_, rfl, ?_⟩
  repeat' first
    | exact rfl
    | with_reducible apply Frame.refl
    | with_reducible apply Frame.step (onBank_frame _ _ _)
    | split
    | dsimp only

theorem execLinkResend_changes (t : Nat) (bank : Fin 16) (s : State) : s.Changes t [.banks] (execLinkResend t bank s) := by
  unfold execLinkResend
  refine .inr ⟨_, rfl, ?_⟩
  repeat' first
    | exact rfl
    | with_reducible apply Frame.refl
    | with_reducible apply Frame.step (onBank_frame _ _ _)
    | split
    | dsimp only

theorem execAlignmentFifoRelease_changes (t : Nat) (bank : Fin 16) (overrun : Bool) (s : State) : s.Changes t [.banks, .groups, .accs, .trigouts, .mem, .events, .grove, .link, .freeCount] (execAlignmentFifoRelease t bank overrun s) := by
  unfold execAlignmentFifoRelease
  refine .inr ⟨_, rfl, ?_⟩
  repeat' first
    | exact rfl
    | with_reducible apply Frame.refl
    | with_reducible apply Frame.step (ringWrite_frame _ _ _)
    | with_reducible apply Frame.step (release_frame _ _ _)
    | split
    | dsimp only

theorem execLinkRetrainDone_changes (t : Nat) (bank : Fin 16) (ok : Bool) (s : State) : s.ChangesThen t [.board, .clock, .quads, .banks, .cal, .mem, .ring4, .paths, .host, .fw, .grove, .link] (execLinkRetrainDone t bank ok s) := by
  unfold execLinkRetrainDone
  unfold State.event
  refine .inr ⟨_, rfl, ?_⟩
  repeat' first
    | exact rfl
    | with_reducible apply Frame.refl
    | with_reducible apply Frame.step (retrainFailed_frame _ _)
    | with_reducible apply Frame.step (onBank_frame _ _ _)
    | split
    | dsimp only

theorem execBankReturned_changes (t : Nat) (bank : Fin 16) (s : State) : s.Changes t [.banks, .events, .grove, .link] (execBankReturned t bank s) := by
  unfold execBankReturned
  refine .inr ⟨_, rfl, ?_⟩
  repeat' first
    | exact rfl
    | with_reducible apply Frame.refl
    | with_reducible apply Frame.step (raise_frame _ _)
    | with_reducible apply Frame.step (onBank_frame _ _ _)
    | split
    | dsimp only

theorem execSliceSubstitution_changes (t : Nat) (bank : Fin 16) (pos : Fin 32) (s : State) : s.Changes t [.banks] (execSliceSubstitution t bank pos s) := by
  unfold execSliceSubstitution
  refine .inr ⟨_, rfl, ?_⟩
  repeat' first
    | exact rfl
    | with_reducible apply Frame.refl
    | with_reducible apply Frame.step (onBank_frame _ _ _)
    | split
    | dsimp only

theorem execBackgroundEstimate_changes (t : Nat) (bank : Fin 16) (est : SliceEstimate) (s : State) : s.Changes t [.quads, .banks, .events, .grove, .link] (execBackgroundEstimate t bank est s) := by
  unfold execBackgroundEstimate
  refine .inr ⟨_, rfl, ?_⟩
  repeat' first
    | exact rfl
    | with_reducible apply Frame.refl
    | with_reducible apply Frame.step (bgEstimate_frame _ _ _)
    | split
    | dsimp only

theorem execQuadPoweringDone_changes (t : Nat) (q : Fin 4) (s : State) : s.Changes t [.quads] (execQuadPoweringDone t q s) := by
  unfold execQuadPoweringDone
  refine .inr ⟨_, rfl, ?_⟩
  repeat' first
    | exact rfl
    | with_reducible apply Frame.refl
    | exact Frame.refl _ _
    | with_reducible apply quadStep_frame
    | split
    | intro _
    | dsimp only

theorem execQuadTrainingDone_changes (t : Nat) (q : Fin 4) (s : State) : s.Changes t [.quads, .banks] (execQuadTrainingDone t q s) := by
  unfold execQuadTrainingDone
  refine .inr ⟨_, rfl, ?_⟩
  repeat' first
    | exact rfl
    | with_reducible apply Frame.refl
    | with_reducible apply Frame.step (trainLinks_frame _ _)
    | with_reducible apply quadStep_frame
    | split
    | intro _
    | dsimp only

theorem execQuadConverged_changes (t : Nat) (q : Fin 4) (s : State) : s.Changes t [.board, .quads, .events, .grove, .link] (execQuadConverged t q s) := by
  unfold execQuadConverged
  refine .inr ⟨_, rfl, ?_⟩
  repeat' first
    | exact rfl
    | with_reducible apply Frame.refl
    | with_reducible apply Frame.step (quadReady_frame _ _)
    | with_reducible apply quadStep_frame
    | split
    | intro _
    | dsimp only

theorem execQuadRetimingDone_changes (t : Nat) (q : Fin 4) (s : State) : s.ChangesThen t [.quads, .banks, .ring4, .paths, .host, .fw, .grove, .link] (execQuadRetimingDone t q s) := by
  unfold execQuadRetimingDone
  unfold State.event
  refine .inr ⟨_, rfl, ?_⟩
  repeat' first
    | exact rfl
    | with_reducible apply Frame.refl
    | with_reducible apply Frame.step (trainLinks_frame _ _)
    | with_reducible apply Frame.step (finish_frame _ _ _)
    | with_reducible apply quadStep_frame
    | split
    | intro _
    | dsimp only

theorem execInputSettled_changes (t : Nat) (input : Fin 16) (s : State) : s.ChangesThen t [.ring4, .paths, .host, .fw, .grove, .link] (execInputSettled t input s) := by
  unfold execInputSettled
  unfold State.event
  refine .inr ⟨_, rfl, ?_⟩
  repeat' first
    | exact rfl
    | with_reducible apply Frame.refl
    | with_reducible apply Frame.step (finish_frame _ _ _)
    | split
    | dsimp only

theorem execTriggerUnitDecision_changes (t : Nat) (s : State) : s.Changes t [.inputs, .units, .tagged, .decided, .evaluated, .groups, .accs, .trigouts, .mem, .rings, .events, .stim, .grove, .link, .freeCount] (execTriggerUnitDecision t s) := by
  unfold execTriggerUnitDecision
  refine .inr ⟨_, rfl, ?_⟩
  repeat' first
    | exact rfl
    | with_reducible apply Frame.refl
    | with_reducible apply Frame.step (decideTo_frame _ _)
    | split
    | dsimp only

theorem execTaggedEventDelivery_changes (t : Nat) (s : State) : s.Changes t [.inputs, .units, .tagged, .decided, .evaluated, .groups, .accs, .trigouts, .mem, .rings, .events, .stim, .grove, .link, .freeCount] (execTaggedEventDelivery t s) := by
  unfold execTaggedEventDelivery
  refine .inr ⟨_, rfl, ?_⟩
  repeat' first
    | exact rfl
    | with_reducible apply Frame.refl
    | with_reducible apply Frame.step (decideTo_frame _ _)
    | split
    | dsimp only

theorem execTriginEdge_changes (t : Nat) (pin : Fin 4) (level : Bool) (tick : Nat) (fraction : BitVec 32) (s : State) : s.Changes t [.board, .units, .tagged] (execTriginEdge t pin level tick fraction s) := by
  unfold execTriginEdge
  refine .inr ⟨_, rfl, ?_⟩
  repeat' first
    | exact rfl
    | with_reducible apply Frame.refl
    | with_reducible apply Frame.step (triginEdge_frame _ _ _ _)
    | split
    | dsimp only

theorem execSwTriggerDue_changes (t : Nat) (unit : Fin 8) (s : State) : s.Changes t [.units, .tagged] (execSwTriggerDue t unit s) := by
  unfold execSwTriggerDue
  refine .inr ⟨_, rfl, ?_⟩
  repeat' first
    | exact rfl
    | with_reducible apply Frame.refl
    | with_reducible apply Frame.step (tag_frame _ _)
    | with_reducible apply Frame.step (onUnit_frame _ _ _)
    | split
    | dsimp only

theorem execTrigoutPulseStart_changes (t : Nat) (out : Fin 4) (s : State) : s.Changes t [.trigouts] (execTrigoutPulseStart t out s) := by
  unfold execTrigoutPulseStart
  refine .inr ⟨_, rfl, ?_⟩
  repeat' first
    | exact rfl
    | with_reducible apply Frame.refl
    | with_reducible apply Frame.step (onOut_frame _ _ _)
    | split
    | dsimp only

theorem execTrigoutPulseEnd_changes (t : Nat) (out : Fin 4) (s : State) : s.Changes t [.trigouts] (execTrigoutPulseEnd t out s) := by
  unfold execTrigoutPulseEnd
  refine .inr ⟨_, rfl, ?_⟩
  repeat' first
    | exact rfl
    | with_reducible apply Frame.refl
    | with_reducible apply Frame.step (onOut_frame _ _ _)
    | split
    | dsimp only

theorem execTrigoutLevelChange_changes (t : Nat) (out : Fin 4) (s : State) : s.Changes t [.trigouts] (execTrigoutLevelChange t out s) := by
  unfold execTrigoutLevelChange
  refine .inr ⟨_, rfl, ?_⟩
  repeat' first
    | exact rfl
    | with_reducible apply Frame.refl
    | with_reducible apply Frame.step (onOut_frame _ _ _)
    | split
    | dsimp only

theorem execFillComplete_changes (t : Nat) (g : Fin 4) (s : State) : s.Changes t [.inputs, .units, .tagged, .decided, .evaluated, .groups, .accs, .trigouts, .mem, .rings, .events, .stim, .grove, .link, .freeCount] (execFillComplete t g s) := by
  unfold execFillComplete
  refine .inr ⟨_, rfl, ?_⟩
  repeat' first
    | exact rfl
    | with_reducible apply Frame.refl
    | with_reducible apply Frame.step (fillEnds_frame _ _)
    | with_reducible apply Frame.step (decideTo_frame _ _)
    | split
    | dsimp only

theorem execHoldoffExpiry_changes (t : Nat) (g : Fin 4) (s : State) : s.Changes t [.inputs, .units, .tagged, .decided, .evaluated, .groups, .accs, .trigouts, .mem, .rings, .events, .stim, .grove, .link, .freeCount] (execHoldoffExpiry t g s) := by
  unfold execHoldoffExpiry
  refine .inr ⟨_, rfl, ?_⟩
  repeat' first
    | exact rfl
    | with_reducible apply Frame.refl
    | with_reducible apply Frame.step (decideTo_frame _ _)
    | with_reducible apply Frame.step (setGroupState_frame _ _ _)
    | split
    | dsimp only

theorem execRecordBlockWritten_changes (t : Nat) (g : Fin 4) (taint : Option (Nat × Nat)) (s : State) : s.Changes t [.groups, .mem, .events, .grove, .link] (execRecordBlockWritten t g taint s) := by
  unfold execRecordBlockWritten
  refine .inr ⟨_, rfl, ?_⟩
  repeat' first
    | exact rfl
    | with_reducible apply Frame.refl
    | with_reducible apply Frame.step (streamData_frame _ _ _ _)
    | with_reducible apply Frame.step (segmentBlock_frame _ _ _ _)
    | with_reducible apply Frame.step (taintRecord_frame _ _ _)
    | split
    | dsimp only

theorem execRecordComplete_changes (t : Nat) (g : Fin 4) (s : State) : s.Changes t [.inputs, .units, .tagged, .decided, .evaluated, .groups, .accs, .trigouts, .mem, .rings, .events, .stim, .grove, .link, .freeCount] (execRecordComplete t g s) := by
  unfold execRecordComplete
  refine .inr ⟨_, rfl, ?_⟩
  repeat' first
    | exact rfl
    | with_reducible apply Frame.refl
    | with_reducible apply Frame.step (completeRecord_frame _ _ _ _)
    | with_reducible apply Frame.step (decideTo_frame _ _)
    | split
    | dsimp only

theorem execAccumulationCommit_changes (t : Nat) (g : Fin 4) (s : State) : s.Changes t [.inputs, .units, .tagged, .decided, .evaluated, .groups, .accs, .trigouts, .mem, .rings, .events, .stim, .grove, .link, .freeCount] (execAccumulationCommit t g s) := by
  unfold execAccumulationCommit
  refine .inr ⟨_, rfl, ?_⟩
  repeat' first
    | exact rfl
    | with_reducible apply Frame.refl
    | with_reducible apply Frame.step (commitRecord_frame _ _ _ _ _)
    | with_reducible apply Frame.step (decideTo_frame _ _)
    | split
    | dsimp only

theorem execSnapshotComplete_changes (t : Nat) (g : Fin 4) (s : State) : s.Changes t [.accs, .mem, .rings] (execSnapshotComplete t g s) := by
  unfold execSnapshotComplete
  refine .inr ⟨_, rfl, ?_⟩
  repeat' first
    | exact rfl
    | with_reducible apply Frame.refl
    | with_reducible apply Frame.step (addItem_frame _ _ _)
    | with_reducible apply Frame.step (onMem_frame _ _ ?_)
    | with_reducible apply Frame.step (onAcc_frame _ _ _)
    | split
    | (intro _ h; exact h)
    | (intro h; exact h)
    | (intro m h; exact put_wf _ _ _ h)
    | (intro m h; exact putBlocks_wf _ _ _ h)
    | dsimp only

theorem execMemRequest_changes (t : Nat) (port : Fin 23) (unit : Nat) (access : MemAccess) (level : Nat) (s : State) : s.Changes t [.mem, .freeCount] (execMemRequest t port unit access level s) := by
  unfold execMemRequest
  split
  · exact .inl rfl
  refine .inr ⟨_, rfl, ?_⟩
  repeat' first
    | exact rfl
    | with_reducible apply Frame.refl
    | with_reducible apply Frame.step (memRequest_frame _ _ _ _ _)
    | split
    | dsimp only

theorem execMemReadReturn_changes (t : Nat) (port : Fin 23) (ecc : Ecc) (s : State) : s.Changes t [.accs, .mem, .events, .grove, .link, .freeCount] (execMemReadReturn t port ecc s) := by
  unfold execMemReadReturn
  refine .inr ⟨_, rfl, ?_⟩
  repeat' first
    | exact rfl
    | with_reducible apply Frame.refl
    | with_reducible apply Frame.step (readReturn_frame _ _ _)
    | split
    | dsimp only

theorem execRefreshDue_changes (t : Nat) (pc : Fin 128) (s : State) : s.Changes t [.mem] (execRefreshDue t pc s) := by
  unfold execRefreshDue
  refine .inr ⟨_, rfl, ?_⟩
  repeat' first
    | exact rfl
    | with_reducible apply Frame.refl
    | with_reducible apply Frame.step (refreshDue_frame _ _)
    | split
    | dsimp only

theorem execStackTempReading_changes (t : Nat) (stack : Fin 4) (temp : Int) (s : State) : s.ChangesThen t [.board, .clock, .quads, .cal, .mem, .ring4, .paths, .host, .events, .fw, .grove, .link] (execStackTempReading t stack temp s) := by
  unfold execStackTempReading
  unfold State.event
  refine .inr ⟨_, rfl, ?_⟩
  repeat' first
    | exact rfl
    | with_reducible apply Frame.refl
    | with_reducible apply Frame.step (stackTemp_frame _ _ _)
    | with_reducible apply Frame.step (fatal_frame _ _ _ _ _)
    | split
    | dsimp only

theorem execNeighbourRefreshForced_changes (t : Nat) (pc : Fin 128) (s : State) : s.Changes t [.mem] (execNeighbourRefreshForced t pc s) := by
  unfold execNeighbourRefreshForced
  refine .inr ⟨_, rfl, ?_⟩
  repeat' first
    | exact rfl
    | with_reducible apply Frame.refl
    | with_reducible apply Frame.step (onMem_frame _ _ ?_)
    | split
    | (intro _ h; exact h)
    | (intro h; exact h)
    | (intro m h; exact put_wf _ _ _ h)
    | (intro m h; exact putBlocks_wf _ _ _ h)
    | dsimp only

theorem execStripeReinitDone_changes (t : Nat) (g : Fin 5) (s : State) : s.ChangesThen t [.inputs, .quads, .banks, .cal, .units, .tagged, .decided, .evaluated, .groups, .accs, .trigouts, .mem, .rings, .ring4, .paths, .host, .events, .fw, .stim, .grove, .link, .freeCount] (execStripeReinitDone t g s) := by
  unfold execStripeReinitDone
  unfold State.event
  refine .inr ⟨_, rfl, ?_⟩
  repeat' first
    | exact rfl
    | with_reducible apply Frame.refl
    | with_reducible apply Frame.step (seqReinit_frame _)
    | with_reducible apply Frame.step (armReinit_frame _ _)
    | split
    | dsimp only

theorem execMemClockRelocked_changes (t : Nat) (s : State) : s.ChangesThen t [.mem, .ring4, .paths, .host, .events, .fw, .grove, .link] (execMemClockRelocked t s) := by
  unfold execMemClockRelocked
  unfold State.event
  refine .inr ⟨_, rfl, ?_⟩
  repeat' first
    | exact rfl
    | with_reducible apply Frame.refl
    | with_reducible apply Frame.step (relocked_frame _)
    | split
    | dsimp only

theorem execTrainingPassDone_changes (t : Nat) (failed : BitVec 4) (s : State) : s.ChangesThen t [.board, .clock, .quads, .cal, .mem, .ring4, .paths, .host, .events, .fw, .grove, .link] (execTrainingPassDone t failed s) := by
  unfold execTrainingPassDone
  unfold State.event
  refine .inr ⟨_, rfl, ?_⟩
  repeat' first
    | exact rfl
    | with_reducible apply Frame.refl
    | with_reducible apply Frame.step (passDone_frame _ _)
    | split
    | dsimp only

theorem execMemInitDone_changes (t : Nat) (failed : Option (Fin 4)) (s : State) : s.ChangesThen t [.board, .clock, .quads, .cal, .mem, .ring4, .paths, .host, .fw, .grove, .link] (execMemInitDone t failed s) := by
  unfold execMemInitDone
  unfold State.event
  refine .inr ⟨_, rfl, ?_⟩
  repeat' first
    | exact rfl
    | with_reducible apply Frame.refl
    | with_reducible apply Frame.step (memInitEnds_frame _ _)
    | split
    | dsimp only

theorem execPageTimerExpiry_changes (t : Nat) (pc : Fin 128) (s : State) : s.Changes t [.mem] (execPageTimerExpiry t pc s) := by
  unfold execPageTimerExpiry
  refine .inr ⟨_, rfl, ?_⟩
  repeat' first
    | exact rfl
    | with_reducible apply Frame.refl
    | with_reducible apply Frame.step (onMem_frame _ _ ?_)
    | split
    | (intro _ h; exact h)
    | (intro h; exact h)
    | (intro m h; exact put_wf _ _ _ h)
    | (intro m h; exact putBlocks_wf _ _ _ h)
    | dsimp only

theorem execBar2Access_changes (t : Nat) (offset : Nat) (access : Bar2Op) (s : State) : s.Changes t [.mem, .stim, .bar2Out, .freeCount] (execBar2Access t offset access s) := by
  unfold execBar2Access
  split
  · exact .inl rfl
  refine .inr ⟨_, rfl, ?_⟩
  repeat' first
    | exact rfl
    | with_reducible apply Frame.refl
    | with_reducible apply Frame.step (bar2Access_frame _ _ _)
    | split
    | dsimp only

theorem execDescriptorTake_changes (t : Nat) (g : Fin 4) (desc : Bytes) (s : State) : s.Changes t [.rings] (execDescriptorTake t g desc s) := by
  unfold execDescriptorTake
  split
  · exact .inl rfl
  refine .inr ⟨_, rfl, ?_⟩
  repeat' first
    | exact rfl
    | with_reducible apply Frame.refl
    | with_reducible apply Frame.step (takeDescriptor_frame _ _ _)
    | split
    | dsimp only

theorem execReadoutBlockRead_changes (t : Nat) (g : Fin 4) (damaged : Option Bytes) (s : State) : s.Changes t [.groups, .accs, .mem, .rings, .link, .freeCount] (execReadoutBlockRead t g damaged s) := by
  unfold execReadoutBlockRead
  split
  · exact .inl rfl
  refine .inr ⟨_, rfl, ?_⟩
  repeat' first
    | exact rfl
    | with_reducible apply Frame.refl
    | with_reducible apply Frame.step (readBlock_frame _ _ _)
    | split
    | dsimp only

theorem execCompletionPost_changes (t : Nat) (ring : Fin 5) (lane : CplLane) (s : State) : s.ChangesThen t [.board, .clock, .inputs, .quads, .banks, .cal, .units, .tagged, .decided, .evaluated, .groups, .accs, .trigouts, .mem, .rings, .ring4, .paths, .host, .events, .fw, .shadows, .stim, .mon, .grove, .link] (execCompletionPost t ring lane s) := by
  unfold execCompletionPost
  unfold State.event
  refine .inr ⟨_, rfl, ?_⟩
  repeat' first
    | exact rfl
    | with_reducible apply Frame.refl
    | with_reducible apply Frame.step (postCompletion_frame _ _ _)
    | split
    | dsimp only

theorem execStreamFlushTimeout_changes (t : Nat) (g : Fin 4) (s : State) : s.Changes t [.rings] (execStreamFlushTimeout t g s) := by
  unfold execStreamFlushTimeout
  refine .inr ⟨_, rfl, ?_⟩
  repeat' first
    | exact rfl
    | with_reducible apply Frame.refl
    | with_reducible apply Frame.step (flushStream_frame _ _)
    | split
    | dsimp only

theorem execIrqTimerExpiry_changes (t : Nat) (ring : Fin 5) (s : State) : s.Changes t [.rings, .ring4, .link] (execIrqTimerExpiry t ring s) := by
  unfold execIrqTimerExpiry
  refine .inr ⟨_, rfl, ?_⟩
  repeat' first
    | exact rfl
    | with_reducible apply Frame.refl
    | with_reducible apply Frame.step (irqTimerDue_frame _ _)
    | split
    | dsimp only

theorem execCalDrainDone_changes (t : Nat) (s : State) : s.Changes t [.cal] (execCalDrainDone t s) := by
  unfold execCalDrainDone
  refine .inr ⟨_, rfl, ?_⟩
  repeat' first
    | exact rfl
    | with_reducible apply Frame.refl
    | with_reducible apply Frame.step (nextQuad_frame _)
    | with_reducible apply Frame.step (onCal_frame _ _ ?_)
    | split
    | (intro _ h; exact h)
    | (intro h; exact h)
    | dsimp only

theorem execCalDrainTimeout_changes (t : Nat) (s : State) : s.Changes t [.cal, .groups] (execCalDrainTimeout t s) := by
  unfold execCalDrainTimeout
  refine .inr ⟨_, rfl, ?_⟩
  repeat' first
    | exact rfl
    | with_reducible apply Frame.refl
    | with_reducible apply Frame.step (endDrain_frame _ _)
    | split
    | dsimp only

theorem execCalLeakageEnd_changes (t : Nat) (q : Fin 4) (squares : List Nat) (s : State) : s.Changes t [.quads, .cal, .events, .grove, .link] (execCalLeakageEnd t q squares s) := by
  unfold execCalLeakageEnd
  split
  · exact .inl rfl
  refine .inr ⟨_, rfl, ?_⟩
  repeat' first
    | exact rfl
    | with_reducible apply Frame.refl
    | with_reducible apply Frame.step (leakageEnds_frame _ _ _)
    | split
    | dsimp only

theorem execCalIsolateEnd_changes (t : Nat) (q : Fin 4) (s : State) : s.Changes t [.quads, .cal] (execCalIsolateEnd t q s) := by
  unfold execCalIsolateEnd
  refine .inr ⟨_, rfl, ?_⟩
  repeat' first
    | exact rfl
    | with_reducible apply Frame.refl
    | with_reducible apply Frame.step (runTo_frame _ _ _ _ _)
    | with_reducible apply Frame.step (onQuad_frame _ _ _)
    | split
    | dsimp only

theorem execCalSourceSettled_changes (t : Nat) (q : Fin 4) (s : State) : s.Changes t [.cal] (execCalSourceSettled t q s) := by
  unfold execCalSourceSettled
  refine .inr ⟨_, rfl, ?_⟩
  repeat' first
    | exact rfl
    | with_reducible apply Frame.refl
    | with_reducible apply Frame.step (runTo_frame _ _ _ _ _)
    | split
    | dsimp only

theorem execCalRefTransferEnd_changes (t : Nat) (q : Fin 4) (caldc : Int) (s : State) : s.Changes t [.cal] (execCalRefTransferEnd t q caldc s) := by
  unfold execCalRefTransferEnd
  refine .inr ⟨_, rfl, ?_⟩
  repeat' first
    | exact rfl
    | with_reducible apply Frame.refl
    | with_reducible apply Frame.step (runTo_frame _ _ _ _ _)
    | split
    | dsimp only

theorem execCalRunAEnd_changes (t : Nat) (q : Fin 4) (s : State) : s.Changes t [.cal] (execCalRunAEnd t q s) := by
  unfold execCalRunAEnd
  refine .inr ⟨_, rfl, ?_⟩
  repeat' first
    | exact rfl
    | with_reducible apply Frame.refl
    | with_reducible apply Frame.step (runTo_frame _ _ _ _ _)
    | split
    | dsimp only

theorem execCalRunBEnd_changes (t : Nat) (q : Fin 4) (agree : Bool) (s : State) : s.Changes t [.cal] (execCalRunBEnd t q agree s) := by
  unfold execCalRunBEnd
  refine .inr ⟨_, rfl, ?_⟩
  repeat' first
    | exact rfl
    | with_reducible apply Frame.refl
    | with_reducible apply Frame.step (runTo_frame _ _ _ _ _)
    | split
    | dsimp only

theorem execCalCompareEnd_changes (t : Nat) (q : Fin 4) (point : Bytes) (s : State) : s.Changes t [.quads, .cal] (execCalCompareEnd t q point s) := by
  unfold execCalCompareEnd
  split
  · exact .inl rfl
  refine .inr ⟨_, rfl, ?_⟩
  repeat' first
    | exact rfl
    | with_reducible apply Frame.refl
    | with_reducible apply Frame.step (compareEnds_frame _ _ _)
    | split
    | dsimp only

theorem execCalRestoreEnd_changes (t : Nat) (q : Fin 4) (s : State) : s.Changes t [.cal] (execCalRestoreEnd t q s) := by
  unfold execCalRestoreEnd
  refine .inr ⟨_, rfl, ?_⟩
  repeat' first
    | exact rfl
    | with_reducible apply Frame.refl
    | with_reducible apply Frame.step (nextQuad_frame _)
    | with_reducible apply Frame.step (onCal_frame _ _ ?_)
    | split
    | (intro _ h; exact h)
    | (intro h; exact h)
    | dsimp only

theorem execCalStopDone_changes (t : Nat) (q : Fin 4) (s : State) : s.Changes t [.quads, .cal] (execCalStopDone t q s) := by
  unfold execCalStopDone
  refine .inr ⟨_, rfl, ?_⟩
  repeat' first
    | exact rfl
    | with_reducible apply Frame.refl
    | with_reducible apply Frame.step (runTo_frame _ _ _ _ _)
    | with_reducible apply Frame.step (nextQuad_frame _)
    | with_reducible apply Frame.step (returnSwitch_frame _ _ _)
    | split
    | dsimp only

theorem execCalHeldWordsEnd_changes (t : Nat) (q : Fin 4) (s : State) : s.Changes t [.cal] (execCalHeldWordsEnd t q s) := by
  unfold execCalHeldWordsEnd
  refine .inr ⟨_, rfl, ?_⟩
  repeat' first
    | exact rfl
    | with_reducible apply Frame.refl
    | with_reducible apply Frame.step (nextQuad_frame _)
    | split
    | dsimp only

theorem execCalResultsFormed_changes (t : Nat) (s : State) : s.ChangesThen t [.inputs, .quads, .banks, .cal, .units, .tagged, .decided, .evaluated, .groups, .accs, .trigouts, .mem, .rings, .events, .stim, .grove, .link, .freeCount] (execCalResultsFormed t s) := by
  unfold execCalResultsFormed
  unfold State.event
  refine .inr ⟨_, rfl, ?_⟩
  repeat' first
    | exact rfl
    | with_reducible apply Frame.refl
    | with_reducible apply Frame.step (formResults_frame _ _)
    | split
    | dsimp only

theorem execHeldTriggerResume_changes (t : Nat) (q : Fin 4) (s : State) : s.Changes t [.quads] (execHeldTriggerResume t q s) := by
  unfold execHeldTriggerResume
  refine .inr ⟨_, rfl, ?_⟩
  repeat' first
    | exact rfl
    | with_reducible apply Frame.refl
    | with_reducible apply Frame.step (onQuad_frame _ _ _)
    | split
    | dsimp only

theorem execSwitchTimeout_changes (t : Nat) (q : Fin 4) (s : State) : s.Changes t [.quads, .cal] (execSwitchTimeout t q s) := by
  unfold execSwitchTimeout
  refine .inr ⟨_, rfl, ?_⟩
  repeat' first
    | exact rfl
    | with_reducible apply Frame.refl
    | with_reducible apply Frame.step (abortRun_frame _)
    | with_reducible apply Frame.step (returnSwitch_frame _ _ _)
    | split
    | dsimp only

theorem execChangeover_changes (t : Nat) (q : Fin 4) (s : State) : s.Changes t [.inputs, .quads, .banks, .cal, .units, .tagged, .decided, .evaluated, .groups, .accs, .trigouts, .mem, .rings, .events, .stim, .grove, .link, .freeCount] (execChangeover t q s) := by
  unfold execChangeover
  refine .inr ⟨_, rfl, ?_⟩
  repeat' first
    | exact rfl
    | with_reducible apply Frame.refl
    | with_reducible apply Frame.step (enterBg_frame _ _ _)
    | with_reducible apply Frame.step (enterSet_frame _ _)
    | with_reducible apply Frame.step (decideTo_frame _ _)
    | split
    | dsimp only

theorem execGatherReopen_changes (t : Nat) (g : Fin 4) (s : State) : s.Changes t [.inputs, .units, .tagged, .decided, .evaluated, .groups, .accs, .trigouts, .mem, .rings, .events, .stim, .grove, .link, .freeCount] (execGatherReopen t g s) := by
  unfold execGatherReopen
  refine .inr ⟨_, rfl, ?_⟩
  repeat' first
    | exact rfl
    | with_reducible apply Frame.refl
    | with_reducible apply Frame.step (decideTo_frame _ _)
    | with_reducible apply Frame.step (onGroup_frame _ _ _)
    | split
    | dsimp only

theorem execBgGatherDue_changes (t : Nat) (q : Fin 4) (s : State) : s.Changes t [.inputs, .quads, .units, .tagged, .decided, .evaluated, .groups, .accs, .trigouts, .mem, .rings, .events, .stim, .grove, .link, .freeCount] (execBgGatherDue t q s) := by
  unfold execBgGatherDue
  refine .inr ⟨_, rfl, ?_⟩
  repeat' first
    | exact rfl
    | with_reducible apply Frame.refl
    | with_reducible apply Frame.step (openGather_frame _ _)
    | split
    | dsimp only

theorem execQuadTempReading_changes (t : Nat) (q : Fin 4) (temp : Int) (s : State) : s.Changes t [.quads] (execQuadTempReading t q temp s) := by
  unfold execQuadTempReading
  refine .inr ⟨_, rfl, ?_⟩
  repeat' first
    | exact rfl
    | with_reducible apply Frame.refl
    | with_reducible apply Frame.step (judgeBg_frame _ _)
    | with_reducible apply Frame.step (onQuad_frame _ _ _)
    | split
    | dsimp only

theorem execStimStartInstant_changes (t : Nat) (ch : Fin 2) (s : State) : s.Changes t [.events, .stim, .grove, .link] (execStimStartInstant t ch s) := by
  unfold execStimStartInstant
  refine .inr ⟨_, rfl, ?_⟩
  repeat' first
    | exact rfl
    | with_reducible apply Frame.refl
    | with_reducible apply Frame.step (startInstant_frame _ _)
    | split
    | dsimp only

theorem execStimDecisionPoint_changes (t : Nat) (ch : Fin 2) (s : State) : s.Changes t [.stim] (execStimDecisionPoint t ch s) := by
  unfold execStimDecisionPoint
  refine .inr ⟨_, rfl, ?_⟩
  repeat' first
    | exact rfl
    | with_reducible apply Frame.refl
    | with_reducible apply Frame.step (decisionPoint_frame _ _)
    | split
    | dsimp only

theorem execStimBoundary_changes (t : Nat) (ch : Fin 2) (s : State) : s.Changes t [.events, .stim, .grove, .link] (execStimBoundary t ch s) := by
  unfold execStimBoundary
  refine .inr ⟨_, rfl, ?_⟩
  repeat' first
    | exact rfl
    | with_reducible apply Frame.refl
    | with_reducible apply Frame.step (boundary_frame _ _)
    | split
    | dsimp only

theorem execStimEntryEffect_changes (t : Nat) (ch : Fin 2) (starved : Bool) (s : State) : s.Changes t [.events, .stim, .grove, .link] (execStimEntryEffect t ch starved s) := by
  unfold execStimEntryEffect
  refine .inr ⟨_, rfl, ?_⟩
  repeat' first
    | exact rfl
    | with_reducible apply Frame.refl
    | with_reducible apply Frame.step (entryEffect_frame _ _ _)
    | split
    | dsimp only

theorem execStimStopRampStart_changes (t : Nat) (ch : Fin 2) (s : State) : s.Changes t [.stim] (execStimStopRampStart t ch s) := by
  unfold execStimStopRampStart
  refine .inr ⟨_, rfl, ?_⟩
  repeat' first
    | exact rfl
    | with_reducible apply Frame.refl
    | with_reducible apply Frame.step (stopRampStart_frame _ _)
    | split
    | dsimp only

theorem execStimStopRampEnd_changes (t : Nat) (ch : Fin 2) (s : State) : s.Changes t [.events, .stim, .grove, .link] (execStimStopRampEnd t ch s) := by
  unfold execStimStopRampEnd
  refine .inr ⟨_, rfl, ?_⟩
  repeat' first
    | exact rfl
    | with_reducible apply Frame.refl
    | with_reducible apply Frame.step (stopRampEnd_frame _ _)
    | split
    | dsimp only

theorem execStimMuteRampEnd_changes (t : Nat) (ch : Fin 2) (s : State) : s.Changes t [.stim] (execStimMuteRampEnd t ch s) := by
  unfold execStimMuteRampEnd
  refine .inr ⟨_, rfl, ?_⟩
  repeat' first
    | exact rfl
    | with_reducible apply Frame.refl
    | with_reducible apply Frame.step (muteRampEnd_frame _ _)
    | split
    | dsimp only

theorem execSegmentReadbackDone_changes (t : Nat) (s : State) : s.ChangesThen t [.mem, .ring4, .paths, .host, .fw, .stim, .grove, .link, .freeCount] (execSegmentReadbackDone t s) := by
  unfold execSegmentReadbackDone
  unfold State.event
  refine .inr ⟨_, rfl, ?_⟩
  repeat' first
    | exact rfl
    | with_reducible apply Frame.refl
    | with_reducible apply Frame.step (readbackDone_frame _)
    | split
    | dsimp only

theorem execMonConversion_changes (t : Nat) (slot : Fin 16) (code : BitVec 12) (ovr : Bool) (s : State) : s.ChangesThen t [.board, .clock, .quads, .cal, .units, .tagged, .mem, .ring4, .paths, .host, .events, .fw, .mon, .grove, .link] (execMonConversion t slot code ovr s) := by
  unfold execMonConversion
  unfold State.event
  refine .inr ⟨_, rfl, ?_⟩
  repeat' first
    | exact rfl
    | with_reducible apply Frame.refl
    | with_reducible apply Frame.step (monSlot_frame _ _ _ _)
    | split
    | dsimp only

theorem execMonRefSettled_changes (t : Nat) (s : State) : s.Changes t [.mon] (execMonRefSettled t s) := by
  unfold execMonRefSettled
  refine .inr ⟨_, rfl, ?_⟩
  repeat' first
    | exact rfl
    | with_reducible apply Frame.refl
    | with_reducible apply Frame.step (onMon_frame _ _ ?_)
    | split
    | (intro _ h; exact h)
    | (intro h; exact h)
    | dsimp only

theorem execRailFault_changes (t : Nat) (rail : Fin 12) (s : State) : s.ChangesThen t [.board, .clock, .quads, .cal, .mem, .ring4, .paths, .host, .events, .fw, .grove, .link] (execRailFault t rail s) := by
  unfold execRailFault
  unfold State.event
  refine .inr ⟨_, rfl, ?_⟩
  repeat' first
    | exact rfl
    | with_reducible apply Frame.refl
    | with_reducible apply Frame.step (fatal_frame _ _ _ _ _)
    | split
    | dsimp only

theorem execPwrOkRise_changes (t : Nat) (straps : BitVec 2) (s : State) : s.Changes t [.board] (execPwrOkRise t straps s) := by
  unfold execPwrOkRise
  refine .inr ⟨_, rfl, ?_⟩
  repeat' first
    | exact rfl
    | with_reducible apply Frame.refl
    | with_reducible apply Frame.step (leaveReset_frame _)
    | with_reducible apply Frame.step (onBoard_frame _ _)
    | split
    | dsimp only

theorem execPwrOkFall_changes (t : Nat) (s : State) : s.Changes t [.board, .clock, .inputs, .quads, .banks, .cal, .units, .tagged, .decided, .evaluated, .groups, .accs, .trigouts, .mem, .rings, .ring4, .paths, .host, .events, .fw, .shadows, .stim, .mon, .grove] (execPwrOkFall t s) := by
  unfold execPwrOkFall
  refine .inr ⟨_, rfl, ?_⟩
  repeat' first
    | exact rfl
    | with_reducible apply Frame.refl
    | with_reducible apply Frame.step (toReset_frame _)
    | with_reducible apply Frame.step (onBoard_frame _ _)
    | split
    | dsimp only

theorem execPerstNAssert_changes (t : Nat) (s : State) : s.Changes t [.board, .clock, .inputs, .quads, .banks, .cal, .units, .tagged, .decided, .evaluated, .groups, .accs, .trigouts, .mem, .rings, .ring4, .paths, .host, .events, .fw, .shadows, .stim, .mon, .grove] (execPerstNAssert t s) := by
  unfold execPerstNAssert
  refine .inr ⟨_, rfl, ?_⟩
  repeat' first
    | exact rfl
    | with_reducible apply Frame.refl
    | with_reducible apply Frame.step (toReset_frame _)
    | with_reducible apply Frame.step (onBoard_frame _ _)
    | split
    | dsimp only

theorem execPerstNRelease_changes (t : Nat) (s : State) : s.Changes t [.board] (execPerstNRelease t s) := by
  unfold execPerstNRelease
  refine .inr ⟨_, rfl, ?_⟩
  repeat' first
    | exact rfl
    | with_reducible apply Frame.refl
    | with_reducible apply Frame.step (leaveReset_frame _)
    | with_reducible apply Frame.step (onBoard_frame _ _)
    | split
    | dsimp only

theorem execSelftestDone_changes (t : Nat) (result : SelfTest) (s : State) : s.ChangesThen t [.board, .clock, .quads, .cal, .mem, .ring4, .paths, .host, .events, .fw, .grove, .link] (execSelftestDone t result s) := by
  unfold execSelftestDone
  unfold State.event
  refine .inr ⟨_, rfl, ?_⟩
  repeat' first
    | exact rfl
    | with_reducible apply Frame.refl
    | with_reducible apply Frame.step (selftest_frame _ _)
    | with_reducible apply Frame.step (takeHeldBoot_frame _)
    | split
    | dsimp only

theorem execLockTimeout_changes (t : Nat) (s : State) : s.ChangesThen t [.board, .clock, .quads, .cal, .mem, .ring4, .paths, .host, .fw, .grove, .link] (execLockTimeout t s) := by
  unfold execLockTimeout
  unfold State.event
  refine .inr ⟨_, rfl, ?_⟩
  repeat' first
    | exact rfl
    | with_reducible apply Frame.refl
    | with_reducible apply Frame.step (bootFail_frame _ _ _)
    | split
    | dsimp only

theorem execQuadStartTimeout_changes (t : Nat) (q : Fin 4) (s : State) : s.ChangesThen t [.board, .clock, .quads, .cal, .mem, .ring4, .paths, .host, .fw, .grove, .link] (execQuadStartTimeout t q s) := by
  unfold execQuadStartTimeout
  unfold State.event
  refine .inr ⟨_, rfl, ?_⟩
  repeat' first
    | exact rfl
    | with_reducible apply Frame.refl
    | with_reducible apply Frame.step (bootFail_frame _ _ _)
    | split
    | dsimp only

theorem execSelfCalStart_changes (t : Nat) (s : State) : s.Changes t [.cal] (execSelfCalStart t s) := by
  unfold execSelfCalStart
  refine .inr ⟨_, rfl, ?_⟩
  repeat' first
    | exact rfl
    | with_reducible apply Frame.refl
    | with_reducible apply Frame.step (selfStart_frame _)
    | split
    | dsimp only

theorem execSelfCalPhaseEnd_changes (t : Nat) (res : SelfPhaseEnd) (s : State) : s.ChangesThen t [.board, .clock, .inputs, .quads, .banks, .cal, .units, .tagged, .decided, .evaluated, .groups, .accs, .trigouts, .mem, .rings, .ring4, .paths, .host, .events, .fw, .stim, .grove, .link, .freeCount] (execSelfCalPhaseEnd t res s) := by
  unfold execSelfCalPhaseEnd
  split
  · exact .inl rfl
  unfold State.event
  refine .inr ⟨_, rfl, ?_⟩
  repeat' first
    | exact rfl
    | with_reducible apply Frame.refl
    | with_reducible apply Frame.step (selfPhaseEnds_frame _ _)
    | split
    | dsimp only

theorem execReadyCallTimeout_changes (t : Nat) (s : State) : s.ChangesThen t [.board, .clock, .quads, .cal, .mem, .ring4, .paths, .host, .fw, .grove, .link] (execReadyCallTimeout t s) := by
  unfold execReadyCallTimeout
  unfold State.event
  refine .inr ⟨_, rfl, ?_⟩
  repeat' first
    | exact rfl
    | with_reducible apply Frame.refl
    | with_reducible apply Frame.step (bootFail_frame _ _ _)
    | split
    | dsimp only

theorem execSmbIdent_changes (t : Nat) (s : State) : s.Changes t [.board] (execSmbIdent t s) := by
  unfold execSmbIdent
  refine .inr ⟨_, rfl, ?_⟩
  repeat' first
    | exact rfl
    | with_reducible apply Frame.refl
    | with_reducible apply Frame.step (smbRead_frame _ _ _)
    | split
    | dsimp only

theorem execSmbEngine_changes (t : Nat) (s : State) : s.Changes t [.board] (execSmbEngine t s) := by
  unfold execSmbEngine
  refine .inr ⟨_, rfl, ?_⟩
  repeat' first
    | exact rfl
    | with_reducible apply Frame.refl
    | with_reducible apply Frame.step (smbRead_frame _ _ _)
    | split
    | dsimp only

theorem execSmbBoot_changes (t : Nat) (s : State) : s.Changes t [.board] (execSmbBoot t s) := by
  unfold execSmbBoot
  refine .inr ⟨_, rfl, ?_⟩
  repeat' first
    | exact rfl
    | with_reducible apply Frame.refl
    | with_reducible apply Frame.step (smbRead_frame _ _ _)
    | split
    | dsimp only

theorem execSmbPins_changes (t : Nat) (s : State) : s.Changes t [.board] (execSmbPins t s) := by
  unfold execSmbPins
  refine .inr ⟨_, rfl, ?_⟩
  repeat' first
    | exact rfl
    | with_reducible apply Frame.refl
    | with_reducible apply Frame.step (smbRead_frame _ _ _)
    | split
    | dsimp only

theorem execSmbTemps_changes (t : Nat) (s : State) : s.Changes t [.board] (execSmbTemps t s) := by
  unfold execSmbTemps
  refine .inr ⟨_, rfl, ?_⟩
  repeat' first
    | exact rfl
    | with_reducible apply Frame.refl
    | with_reducible apply Frame.step (smbRead_frame _ _ _)
    | split
    | dsimp only

theorem execSmbUniqueId_changes (t : Nat) (s : State) : s.Changes t [.board] (execSmbUniqueId t s) := by
  unfold execSmbUniqueId
  refine .inr ⟨_, rfl, ?_⟩
  repeat' first
    | exact rfl
    | with_reducible apply Frame.refl
    | with_reducible apply Frame.step (smbRead_frame _ _ _)
    | split
    | dsimp only

theorem execSmbEvents_changes (t : Nat) (s : State) : s.Changes t [.board] (execSmbEvents t s) := by
  unfold execSmbEvents
  refine .inr ⟨_, rfl, ?_⟩
  repeat' first
    | exact rfl
    | with_reducible apply Frame.refl
    | with_reducible apply Frame.step (smbRead_frame _ _ _)
    | split
    | dsimp only

theorem execSmbWriteReject_changes (t : Nat) (s : State) : s.Changes t [.board] (execSmbWriteReject t s) := by
  unfold execSmbWriteReject
  refine .inr ⟨_, rfl, ?_⟩
  repeat' first
    | exact rfl
    | with_reducible apply Frame.refl
    | with_reducible apply Frame.step (onBoard_frame _ _)
    | split
    | dsimp only

theorem execSmbAlertResponse_changes (t : Nat) (s : State) : s.Changes t [.board] (execSmbAlertResponse t s) := by
  unfold execSmbAlertResponse
  refine .inr ⟨_, rfl, ?_⟩
  repeat' first
    | exact rfl
    | with_reducible apply Frame.refl
    | with_reducible apply Frame.step (alertResponse_frame _)
    | split
    | dsimp only

theorem execSmbusTimeout_changes (t : Nat) (s : State) : s.Changes t [.board] (execSmbusTimeout t s) := by
  unfold execSmbusTimeout
  refine .inr ⟨_, rfl, ?_⟩
  repeat' first
    | exact rfl
    | with_reducible apply Frame.refl
    | with_reducible apply Frame.step (onBoard_frame _ _)
    | split
    | dsimp only

theorem execTapReset_changes (t : Nat) (s : State) : s.Changes t [.board] (execTapReset t s) := by
  unfold execTapReset
  refine .inr ⟨_, rfl, ?_⟩
  repeat' first
    | exact rfl
    | with_reducible apply Frame.refl
    | with_reducible apply Frame.step (onBoard_frame _ _)
    | split
    | dsimp only

theorem execExtest_changes (t : Nat) (cells : BitVec 151) (s : State) : s.Changes t [.board] (execExtest t cells s) := by
  unfold execExtest
  refine .inr ⟨_, rfl, ?_⟩
  repeat' first
    | exact rfl
    | with_reducible apply Frame.refl
    | with_reducible apply Frame.step (tapLoad_frame _ _ _ _)
    | split
    | dsimp only

theorem execIdcode_changes (t : Nat) (s : State) : s.Changes t [.board] (execIdcode t s) := by
  unfold execIdcode
  refine .inr ⟨_, rfl, ?_⟩
  repeat' first
    | exact rfl
    | with_reducible apply Frame.refl
    | with_reducible apply Frame.step (tapLoad_frame _ _ _ _)
    | split
    | dsimp only

theorem execSamplePreload_changes (t : Nat) (pins : BitVec 151) (s : State) : s.Changes t [.board] (execSamplePreload t pins s) := by
  unfold execSamplePreload
  refine .inr ⟨_, rfl, ?_⟩
  repeat' first
    | exact rfl
    | with_reducible apply Frame.refl
    | with_reducible apply Frame.step (tapLoad_frame _ _ _ _)
    | split
    | dsimp only

theorem execClamp_changes (t : Nat) (s : State) : s.Changes t [.board] (execClamp t s) := by
  unfold execClamp
  refine .inr ⟨_, rfl, ?_⟩
  repeat' first
    | exact rfl
    | with_reducible apply Frame.refl
    | with_reducible apply Frame.step (tapLoad_frame _ _ _ _)
    | split
    | dsimp only

theorem execHighz_changes (t : Nat) (s : State) : s.Changes t [.board] (execHighz t s) := by
  unfold execHighz
  refine .inr ⟨_, rfl, ?_⟩
  repeat' first
    | exact rfl
    | with_reducible apply Frame.refl
    | with_reducible apply Frame.step (tapLoad_frame _ _ _ _)
    | split
    | dsimp only

theorem execExtestPulse_changes (t : Nat) (cells : BitVec 151) (s : State) : s.Changes t [.board] (execExtestPulse t cells s) := by
  unfold execExtestPulse
  refine .inr ⟨_, rfl, ?_⟩
  repeat' first
    | exact rfl
    | with_reducible apply Frame.refl
    | with_reducible apply Frame.step (tapLoad_frame _ _ _ _)
    | split
    | dsimp only

theorem execExtestTrain_changes (t : Nat) (cells : BitVec 151) (s : State) : s.Changes t [.board] (execExtestTrain t cells s) := by
  unfold execExtestTrain
  refine .inr ⟨_, rfl, ?_⟩
  repeat' first
    | exact rfl
    | with_reducible apply Frame.refl
    | with_reducible apply Frame.step (tapLoad_frame _ _ _ _)
    | split
    | dsimp only

theorem execBypass_changes (t : Nat) (s : State) : s.Changes t [.board] (execBypass t s) := by
  unfold execBypass
  refine .inr ⟨_, rfl, ?_⟩
  repeat' first
    | exact rfl
    | with_reducible apply Frame.refl
    | with_reducible apply Frame.step (tapLoad_frame _ _ _ _)
    | split
    | dsimp only

theorem execImageAuthDone_changes (t : Nat) (ok : Bool) (s : State) : s.ChangesThen t [.board, .clock, .mem, .ring4, .paths, .host, .fw, .grove, .link] (execImageAuthDone t ok s) := by
  unfold execImageAuthDone
  unfold State.event
  refine .inr ⟨_, rfl, ?_⟩
  repeat' first
    | exact rfl
    | with_reducible apply Frame.refl
    | with_reducible apply Frame.step (authDone_frame _ _)
    | split
    | dsimp only

theorem execLaneLockLost_changes (t : Nat) (port : Fin 5) (lane : Fin 4) (s : State) : s.ChangesThen t [.events, .grove, .link] (execLaneLockLost t port lane s) := by
  unfold execLaneLockLost
  unfold State.bough State.event
  refine .inr ⟨_, rfl, ?_⟩
  repeat' first
    | exact rfl
    | with_reducible apply Frame.refl
    | with_reducible apply Frame.step (lanesLost_frame _ _ _)
    | split
    | dsimp only

theorem execFastRetrainDone_changes (t : Nat) (port : Fin 5) (s : State) : s.ChangesThen t [.events, .grove, .link] (execFastRetrainDone t port s) := by
  unfold execFastRetrainDone
  unfold State.bough State.event
  refine .inr ⟨_, rfl, ?_⟩
  repeat' first
    | exact rfl
    | with_reducible apply Frame.refl
    | with_reducible apply Frame.step (retrained_frame _ _)
    | split
    | dsimp only

theorem execBlockLock_changes (t : Nat) (port : Fin 5) (lane : Fin 4) (s : State) : s.ChangesThen t [.grove] (execBlockLock t port lane s) := by
  unfold execBlockLock
  unfold State.bough State.event
  refine .inr ⟨_, rfl, ?_⟩
  repeat' first
    | exact rfl
    | with_reducible apply Frame.refl
    | with_reducible apply Frame.step (laneLock_frame _ _ _)
    | split
    | dsimp only

theorem execBoughBlockReceive_changes (t : Nat) (port : Fin 5) (block : Bytes) (s : State) : s.ChangesThen t [.events, .grove, .link] (execBoughBlockReceive t port block s) := by
  unfold execBoughBlockReceive
  unfold State.bough State.event
  refine .inr ⟨_, rfl, ?_⟩
  repeat' first
    | exact rfl
    | with_reducible apply Frame.refl
    | with_reducible apply Frame.step (blockIn_frame _ _ _)
    | split
    | dsimp only

theorem execBlockReplayTimeout_changes (t : Nat) (port : Fin 5) (s : State) : s.ChangesThen t [.events, .grove, .link] (execBlockReplayTimeout t port s) := by
  unfold execBlockReplayTimeout
  unfold State.bough State.event
  refine .inr ⟨_, rfl, ?_⟩
  repeat' first
    | exact rfl
    | with_reducible apply Frame.refl
    | with_reducible apply Frame.step (replayBlocks_frame _ _)
    | split
    | dsimp only

theorem execMessageAgeExpiry_changes (t : Nat) (port : Fin 5) (s : State) : s.ChangesThen t [.grove] (execMessageAgeExpiry t port s) := by
  unfold execMessageAgeExpiry
  unfold State.bough State.event
  refine .inr ⟨_, rfl, ?_⟩
  repeat' first
    | exact rfl
    | with_reducible apply Frame.refl
    | with_reducible apply Frame.step (ageExpiry_frame _ _)
    | split
    | dsimp only

theorem execUnicast_changes (t : Nat) (port : Fin 5) (s : State) : s.ChangesThen t [.ring4, .paths, .host, .fw, .grove, .link] (execUnicast t port s) := by
  unfold execUnicast
  unfold State.bough State.event
  refine .inr ⟨_, rfl, ?_⟩
  repeat' first
    | exact rfl
    | with_reducible apply Frame.refl
    | with_reducible apply Frame.step (unicast_frame _ _)
    | split
    | dsimp only

theorem execUp_changes (t : Nat) (port : Fin 5) (s : State) : s.ChangesThen t [.ring4, .events, .grove] (execUp t port s) := by
  unfold execUp
  unfold State.bough State.event
  refine .inr ⟨_, rfl, ?_⟩
  repeat' first
    | exact rfl
    | with_reducible apply Frame.refl
    | with_reducible apply Frame.step (upIn_frame _ _)
    | split
    | dsimp only

theorem execFlood_changes (t : Nat) (port : Fin 5) (s : State) : s.ChangesThen t [.ring4, .paths, .host, .fw, .grove, .link] (execFlood t port s) := by
  unfold execFlood
  unfold State.bough State.event
  refine .inr ⟨_, rfl, ?_⟩
  repeat' first
    | exact rfl
    | with_reducible apply Frame.refl
    | with_reducible apply Frame.step (floodIn_frame _ _)
    | split
    | dsimp only

theorem execPath_changes (t : Nat) (port : Fin 5) (s : State) : s.ChangesThen t [.ring4, .paths, .host, .fw, .grove, .link] (execPath t port s) := by
  unfold execPath
  unfold State.bough State.event
  refine .inr ⟨_, rfl, ?_⟩
  repeat' first
    | exact rfl
    | with_reducible apply Frame.refl
    | with_reducible apply Frame.step (pathIn_frame _ _)
    | split
    | dsimp only

theorem execHello_changes (t : Nat) (port : Fin 5) (s : State) : s.ChangesThen t [.events, .grove, .link] (execHello t port s) := by
  unfold execHello
  unfold State.bough State.event
  refine .inr ⟨_, rfl, ?_⟩
  repeat' first
    | exact rfl
    | with_reducible apply Frame.refl
    | with_reducible apply Frame.step (helloIn_frame _ _)
    | split
    | dsimp only

theorem execJoinAccept_changes (t : Nat) (port : Fin 5) (s : State) : s.ChangesThen t [.paths, .events, .grove, .link] (execJoinAccept t port s) := by
  unfold execJoinAccept
  unfold State.bough State.event
  refine .inr ⟨_, rfl, ?_⟩
  repeat' first
    | exact rfl
    | with_reducible apply Frame.refl
    | with_reducible apply Frame.step (joinAccept_frame _ _)
    | split
    | dsimp only

theorem execJoinRefuse_changes (t : Nat) (port : Fin 5) (s : State) : s.ChangesThen t [.events, .grove, .link] (execJoinRefuse t port s) := by
  unfold execJoinRefuse
  unfold State.bough State.event
  refine .inr ⟨_, rfl, ?_⟩
  repeat' first
    | exact rfl
    | with_reducible apply Frame.refl
    | with_reducible apply Frame.step (joinRefuse_frame _ _)
    | split
    | dsimp only

theorem execOrphanNotice_changes (t : Nat) (port : Fin 5) (s : State) : s.ChangesThen t [.events, .grove, .link] (execOrphanNotice t port s) := by
  unfold execOrphanNotice
  unfold State.bough State.event
  refine .inr ⟨_, rfl, ?_⟩
  repeat' first
    | exact rfl
    | with_reducible apply Frame.refl
    | with_reducible apply Frame.step (orphanNotice_frame _ _)
    | split
    | dsimp only

theorem execEpochSet_changes (t : Nat) (port : Fin 5) (s : State) : s.ChangesThen t [.paths, .events, .grove, .link] (execEpochSet t port s) := by
  unfold execEpochSet
  unfold State.bough State.event
  refine .inr ⟨_, rfl, ?_⟩
  repeat' first
    | exact rfl
    | with_reducible apply Frame.refl
    | with_reducible apply Frame.step (epochSet_frame _ _)
    | split
    | dsimp only

theorem execSaplingSet_changes (t : Nat) (port : Fin 5) (s : State) : s.ChangesThen t [.grove] (execSaplingSet t port s) := by
  unfold execSaplingSet
  unfold State.bough State.event
  refine .inr ⟨_, rfl, ?_⟩
  repeat' first
    | exact rfl
    | with_reducible apply Frame.refl
    | with_reducible apply Frame.step (saplingSet_frame _ _)
    | split
    | dsimp only

theorem execGroveTrigger_changes (t pseq origin : Nat) (tick : BitVec 64) (fraction gtn : BitVec 32) (s : State) : s.ChangesThen t [.inputs, .units, .tagged, .decided, .evaluated, .groups, .accs, .trigouts, .mem, .rings, .events, .stim, .grove, .link, .freeCount] (execGroveTrigger t pseq origin tick fraction gtn s) := by
  unfold execGroveTrigger
  unfold State.bough State.event
  refine .inr ⟨_, rfl, ?_⟩
  repeat' first
    | exact rfl
    | with_reducible apply Frame.refl
    | with_reducible apply Frame.step (groveTriggerIn_frame _ _ _ _ _ _)
    | split
    | dsimp only

theorem execTriggerRequest_changes (t : Nat) (port : Fin 4) (pseq origin : Nat) (tick : BitVec 64) (fraction : BitVec 32) (s : State) : s.ChangesThen t [.grove] (execTriggerRequest t port pseq origin tick fraction s) := by
  unfold execTriggerRequest
  unfold State.bough State.event
  refine .inr ⟨_, rfl, ?_⟩
  repeat' first
    | exact rfl
    | with_reducible apply Frame.refl
    | with_reducible apply Frame.step (requestIn_frame _ _ _ _ _ _)
    | split
    | dsimp only

theorem execGroveBroadcast_changes (t : Nat) (s : State) : s.ChangesThen t [.inputs, .units, .tagged, .decided, .evaluated, .groups, .accs, .trigouts, .mem, .rings, .events, .stim, .grove, .link, .freeCount] (execGroveBroadcast t s) := by
  unfold execGroveBroadcast
  unfold State.bough State.event
  refine .inr ⟨_, rfl, ?_⟩
  repeat' first
    | exact rfl
    | with_reducible apply Frame.refl
    | with_reducible apply Frame.step (groveBroadcast_frame _)
    | split
    | dsimp only

theorem execRequestForward_changes (t : Nat) (s : State) : s.ChangesThen t [.grove] (execRequestForward t s) := by
  unfold execRequestForward
  unfold State.bough State.event
  refine .inr ⟨_, rfl, ?_⟩
  repeat' first
    | exact rfl
    | with_reducible apply Frame.refl
    | with_reducible apply Frame.step (requestForward_frame _)
    | split
    | dsimp only

theorem execRangeReq_changes (t pseq : Nat) (t1 : BitVec 64) (t1frac number arrival turnaround : BitVec 32) (s : State) : s.ChangesThen t [.grove] (execRangeReq t pseq t1 t1frac number arrival turnaround s) := by
  unfold execRangeReq
  unfold State.bough State.event
  refine .inr ⟨_, rfl, ?_⟩
  repeat' first
    | exact rfl
    | with_reducible apply Frame.refl
    | with_reducible apply Frame.step (rangeReq_frame _ _ _ _ _ _ _)
    | split
    | dsimp only

theorem execRangeReply_changes (t : Nat) (port : Fin 4) (pseq : Nat) (turnaround arrival : BitVec 32) (s : State) : s.ChangesThen t [.grove] (execRangeReply t port pseq turnaround arrival s) := by
  unfold execRangeReply
  unfold State.bough State.event
  refine .inr ⟨_, rfl, ?_⟩
  repeat' first
    | exact rfl
    | with_reducible apply Frame.refl
    | with_reducible apply Frame.step (rangeReply_frame _ _ _ _ _)
    | split
    | dsimp only

theorem execRangeResult_changes (t pseq : Nat) (mean : BitVec 32) (s : State) : s.ChangesThen t [.clock, .events, .grove, .link] (execRangeResult t pseq mean s) := by
  unfold execRangeResult
  unfold State.bough State.event
  refine .inr ⟨_, rfl, ?_⟩
  repeat' first
    | exact rfl
    | with_reducible apply Frame.refl
    | with_reducible apply Frame.step (rangeResult_frame _ _ _)
    | split
    | dsimp only

theorem execPack_changes (t : Nat) (port : Fin 5) (pseq : Nat) (s : State) : s.ChangesThen t [.grove] (execPack t port pseq s) := by
  unfold execPack
  unfold State.bough State.event
  refine .inr ⟨_, rfl, ?_⟩
  repeat' first
    | exact rfl
    | with_reducible apply Frame.refl
    | with_reducible apply Frame.step (packIn_frame _ _ _)
    | split
    | dsimp only

theorem execPframeResend_changes (t : Nat) (port : Fin 5) (s : State) : s.ChangesThen t [.events, .grove, .link] (execPframeResend t port s) := by
  unfold execPframeResend
  unfold State.bough State.event
  refine .inr ⟨_, rfl, ?_⟩
  repeat' first
    | exact rfl
    | with_reducible apply Frame.refl
    | with_reducible apply Frame.step (resendFrame_frame _ _)
    | split
    | dsimp only

theorem execRangeExchange_changes (t : Nat) (port : Fin 4) (s : State) : s.ChangesThen t [.grove] (execRangeExchange t port s) := by
  unfold execRangeExchange
  unfold State.bough State.event
  refine .inr ⟨_, rfl, ?_⟩
  repeat' first
    | exact rfl
    | with_reducible apply Frame.refl
    | with_reducible apply Frame.step (rangeExchange_frame _ _)
    | split
    | dsimp only

theorem execRangeComplete_changes (t : Nat) (port : Fin 4) (s : State) : s.ChangesThen t [.events, .grove, .link] (execRangeComplete t port s) := by
  unfold execRangeComplete
  unfold State.bough State.event
  refine .inr ⟨_, rfl, ?_⟩
  repeat' first
    | exact rfl
    | with_reducible apply Frame.refl
    | with_reducible apply Frame.step (rangeComplete_frame _ _)
    | split
    | dsimp only

theorem execTrackingRange_changes (t : Nat) (port : Fin 4) (s : State) : s.ChangesThen t [.grove] (execTrackingRange t port s) := by
  unfold execTrackingRange
  unfold State.bough State.event
  refine .inr ⟨_, rfl, ?_⟩
  repeat' first
    | exact rfl
    | with_reducible apply Frame.refl
    | with_reducible apply Frame.step (trackingRange_frame _ _)
    | split
    | dsimp only

theorem execOrphanTimeout_changes (t : Nat) (s : State) : s.ChangesThen t [.events, .grove, .link] (execOrphanTimeout t s) := by
  unfold execOrphanTimeout
  unfold State.bough State.event
  refine .inr ⟨_, rfl, ?_⟩
  repeat' first
    | exact rfl
    | with_reducible apply Frame.refl
    | with_reducible apply Frame.step (orphanTimeout_frame _)
    | split
    | dsimp only

theorem execSaplingTimeout_changes (t : Nat) (s : State) : s.ChangesThen t [.events, .grove, .link] (execSaplingTimeout t s) := by
  unfold execSaplingTimeout
  unfold State.bough State.event
  refine .inr ⟨_, rfl, ?_⟩
  repeat' first
    | exact rfl
    | with_reducible apply Frame.refl
    | with_reducible apply Frame.step (saplingTimeout_frame _)
    | split
    | dsimp only

theorem execCommandReceive_changes (t : Nat) (path : Path) (desc packet : Bytes) (s : State) : s.ChangesThen t [.ring4, .paths, .host, .fw, .grove, .link] (execCommandReceive t path desc packet s) := by
  unfold execCommandReceive
  unfold State.event
  refine .inr ⟨_, rfl, ?_⟩
  repeat' first
    | exact rfl
    | with_reducible apply Frame.refl
    | with_reducible apply Frame.step (intake_frame _ _ _ _)
    | split
    | dsimp only

theorem execInterimNotice_changes (t : Nat) (path : Path) (index : Nat) (s : State) : s.ChangesThen t [.ring4, .paths, .grove] (execInterimNotice t path index s) := by
  unfold execInterimNotice
  unfold State.event
  refine .inr ⟨_, rfl, ?_⟩
  repeat' first
    | exact rfl
    | with_reducible apply Frame.refl
    | with_reducible apply Frame.step (sendNotice_frame _ _ _)
    | split
    | dsimp only

theorem execCmdTailDoorbell_changes (t : Nat) (value : BitVec 32) (s : State) : s.ChangesThen t [.rings, .ring4, .paths, .host, .fw, .shadows, .mon, .grove, .link] (execCmdTailDoorbell t value s) := by
  unfold execCmdTailDoorbell
  unfold State.event
  refine .inr ⟨_, rfl, ?_⟩
  repeat' first
    | exact rfl
    | with_reducible apply Frame.refl
    | with_reducible apply Frame.step (writeWindow_frame _ _ _ _ _)
    | split
    | dsimp only

theorem execBootDoorbell_changes (t : Nat) (value : BitVec 32) (s : State) : s.ChangesThen t [.rings, .ring4, .paths, .host, .fw, .shadows, .mon, .grove, .link] (execBootDoorbell t value s) := by
  unfold execBootDoorbell
  unfold State.event
  refine .inr ⟨_, rfl, ?_⟩
  repeat' first
    | exact rfl
    | with_reducible apply Frame.refl
    | with_reducible apply Frame.step (writeWindow_frame _ _ _ _ _)
    | split
    | dsimp only

theorem execDescTailDoorbell_changes (t : Nat) (g : Fin 4) (value : BitVec 32) (s : State) : s.ChangesThen t [.rings, .ring4, .paths, .host, .fw, .shadows, .mon, .grove, .link] (execDescTailDoorbell t g value s) := by
  unfold execDescTailDoorbell
  unfold State.event
  refine .inr ⟨_, rfl, ?_⟩
  repeat' first
    | exact rfl
    | with_reducible apply Frame.refl
    | with_reducible apply Frame.step (writeWindow_frame _ _ _ _ _)
    | split
    | dsimp only

theorem execCplHeadDoorbell_changes (t : Nat) (ring : Fin 5) (value : BitVec 32) (s : State) : s.ChangesThen t [.rings, .ring4, .paths, .host, .fw, .shadows, .mon, .grove, .link] (execCplHeadDoorbell t ring value s) := by
  unfold execCplHeadDoorbell
  unfold State.event
  refine .inr ⟨_, rfl, ?_⟩
  repeat' first
    | exact rfl
    | with_reducible apply Frame.refl
    | with_reducible apply Frame.step (writeWindow_frame _ _ _ _ _)
    | split
    | dsimp only

theorem execLowHalfRead_changes (t : Nat) (req : Requester) (offset : Nat) (s : State) : s.ChangesThen t [.banks, .mem, .shadows, .readValues] (execLowHalfRead t req offset s) := by
  unfold execLowHalfRead
  unfold State.event
  refine .inr ⟨_, rfl, ?_⟩
  repeat' first
    | exact rfl
    | with_reducible apply Frame.refl
    | with_reducible apply Frame.step (read32_frame _ _ _)
    | split
    | dsimp only

theorem execHighHalfRead_changes (t : Nat) (req : Requester) (offset : Nat) (s : State) : s.ChangesThen t [.banks, .mem, .shadows, .readValues] (execHighHalfRead t req offset s) := by
  unfold execHighHalfRead
  unfold State.event
  refine .inr ⟨_, rfl, ?_⟩
  repeat' first
    | exact rfl
    | with_reducible apply Frame.refl
    | with_reducible apply Frame.step (read32_frame _ _ _)
    | split
    | dsimp only

theorem execAtomic64Read_changes (t : Nat) (req : Requester) (offset : Nat) (s : State) : s.ChangesThen t [.banks, .mem, .readValues] (execAtomic64Read t req offset s) := by
  unfold execAtomic64Read
  unfold State.event
  refine .inr ⟨_, rfl, ?_⟩
  repeat' first
    | exact rfl
    | with_reducible apply Frame.refl
    | with_reducible apply Frame.step (read64_frame _ _ _)
    | split
    | dsimp only

theorem execRcFieldRead_changes (t : Nat) (req : Requester) (offset : Nat) (s : State) : s.ChangesThen t [.banks, .mem, .shadows, .readValues] (execRcFieldRead t req offset s) := by
  unfold execRcFieldRead
  unfold State.event
  refine .inr ⟨_, rfl, ?_⟩
  repeat' first
    | exact rfl
    | with_reducible apply Frame.refl
    | with_reducible apply Frame.step (read32_frame _ _ _)
    | split
    | dsimp only

theorem execHalfOrderClear_changes (t : Nat) (req : Requester) (value : BitVec 32) (s : State) : s.ChangesThen t [.rings, .ring4, .paths, .host, .fw, .shadows, .mon, .grove, .link] (execHalfOrderClear t req value s) := by
  unfold execHalfOrderClear
  unfold State.event
  refine .inr ⟨_, rfl, ?_⟩
  repeat' first
    | exact rfl
    | with_reducible apply Frame.refl
    | with_reducible apply Frame.step (writeWindow_frame _ _ _ _ _)
    | split
    | dsimp only

theorem execMonCtrlConvert_changes (t : Nat) (req : Requester) (value : BitVec 32) (s : State) : s.ChangesThen t [.rings, .ring4, .paths, .host, .fw, .shadows, .mon, .grove, .link] (execMonCtrlConvert t req value s) := by
  unfold execMonCtrlConvert
  unfold State.event
  refine .inr ⟨_, rfl, ?_⟩
  repeat' first
    | exact rfl
    | with_reducible apply Frame.refl
    | with_reducible apply Frame.step (writeWindow_frame _ _ _ _ _)
    | split
    | dsimp only

theorem execRegisterWrite_changes (t : Nat) (place : WritePlace) (wide : Bool) (value : BitVec 64) (s : State) : s.ChangesThen t Part.all (execRegisterWrite t place wide value s) := by
  unfold execRegisterWrite
  unfold State.event
  refine .inr ⟨_, rfl, ?_⟩
  repeat' first
    | exact rfl
    | with_reducible apply Frame.refl
    | with_reducible apply Frame.step (writeSapwood_frame _ _ _ _)
    | with_reducible apply Frame.step (writeWindow_frame _ _ _ _ _)
    | split
    | dsimp only

theorem execTake_changes (t : Nat) (core : Fin 4) (s : State) : s.ChangesThen t [.paths, .fw, .readValues] (execTake t core s) := by
  unfold execTake
  unfold State.event
  refine .inr ⟨_, rfl, ?_⟩
  repeat' first
    | exact rfl
    | with_reducible apply Frame.refl
    | with_reducible apply Frame.step (takeRead_frame _ _)
    | split
    | dsimp only

theorem execPost_changes (t : Nat) (_core : Fin 4) (value : BitVec 64) (s : State) : s.ChangesThen t [.ring4, .paths, .host, .fw, .grove, .link] (execPost t _core value s) := by
  unfold execPost
  unfold State.event
  refine .inr ⟨_, rfl, ?_⟩
  repeat' first
    | exact rfl
    | with_reducible apply Frame.refl
    | with_reducible apply Frame.step (postReply_frame _ _ _)
    | split
    | dsimp only

theorem execEventPost_changes (t : Nat) (_core : Fin 4) (addr : BitVec 64) (s : State) : s.ChangesThen t [.events, .grove] (execEventPost t _core addr s) := by
  unfold execEventPost
  unfold State.event
  refine .inr ⟨_, rfl, ?_⟩
  repeat' first
    | exact rfl
    | with_reducible apply Frame.refl
    | with_reducible apply Frame.step (eventPost_frame _ _)
    | split
    | dsimp only

theorem execCommit_changes (t : Nat) (_core : Fin 4) (value : BitVec 64) (s : State) : s.ChangesThen t Part.all (execCommit t _core value s) := by
  unfold execCommit
  unfold State.event
  refine .inr ⟨_, rfl, ?_⟩
  repeat' first
    | exact rfl
    | with_reducible apply Frame.refl
    | with_reducible apply Frame.step (commitWrite_frame _ _)
    | split
    | dsimp only

theorem execWdtKick_changes (t : Nat) (core : Fin 4) (s : State) : s.ChangesThen t [.fw] (execWdtKick t core s) := by
  unfold execWdtKick
  unfold State.event
  refine .inr ⟨_, rfl, ?_⟩
  repeat' first
    | exact rfl
    | with_reducible apply Frame.refl
    | with_reducible apply Frame.step (kick_frame _ _)
    | split
    | dsimp only

theorem execScOverrunClear_changes (t : Nat) (core : Fin 4) (value : BitVec 32) (s : State) : s.ChangesThen t Part.all (execScOverrunClear t core value s) := by
  unfold execScOverrunClear
  unfold State.event
  refine .inr ⟨_, rfl, ?_⟩
  repeat' first
    | exact rfl
    | with_reducible apply Frame.refl
    | with_reducible apply Frame.step (writeCore_frame _ _ _ _ _)
    | split
    | dsimp only

theorem execScClockPlan_changes (t : Nat) (core : Fin 4) (addr : BitVec 64) (s : State) : s.ChangesThen t Part.all (execScClockPlan t core addr s) := by
  unfold execScClockPlan
  unfold State.event
  refine .inr ⟨_, rfl, ?_⟩
  repeat' first
    | exact rfl
    | with_reducible apply Frame.refl
    | with_reducible apply Frame.step (serviceCall_frame _ _ _ _)
    | split
    | dsimp only

theorem execScClockSync_changes (t : Nat) (core : Fin 4) (syncTick timeout : BitVec 64) (s : State) : s.ChangesThen t Part.all (execScClockSync t core syncTick timeout s) := by
  unfold execScClockSync
  unfold State.event
  refine .inr ⟨_, rfl, ?_⟩
  repeat' first
    | exact rfl
    | with_reducible apply Frame.refl
    | with_reducible apply Frame.step (serviceCall_frame _ _ _ _)
    | split
    | dsimp only

theorem execScSlew_changes (t : Nat) (core : Fin 4) (deltaTicks deltaFs : BitVec 64) (s : State) : s.ChangesThen t Part.all (execScSlew t core deltaTicks deltaFs s) := by
  unfold execScSlew
  unfold State.event
  refine .inr ⟨_, rfl, ?_⟩
  repeat' first
    | exact rfl
    | with_reducible apply Frame.refl
    | with_reducible apply Frame.step (serviceCall_frame _ _ _ _)
    | split
    | dsimp only

theorem execScMemClock_changes (t : Nat) (core : Fin 4) (rate : BitVec 64) (s : State) : s.ChangesThen t Part.all (execScMemClock t core rate s) := by
  unfold execScMemClock
  unfold State.event
  refine .inr ⟨_, rfl, ?_⟩
  repeat' first
    | exact rfl
    | with_reducible apply Frame.refl
    | with_reducible apply Frame.step (serviceCall_frame _ _ _ _)
    | split
    | dsimp only

theorem execScQuadPower_changes (t : Nat) (core : Fin 4) (quad on : BitVec 64) (s : State) : s.ChangesThen t Part.all (execScQuadPower t core quad on s) := by
  unfold execScQuadPower
  unfold State.event
  refine .inr ⟨_, rfl, ?_⟩
  repeat' first
    | exact rfl
    | with_reducible apply Frame.refl
    | with_reducible apply Frame.step (serviceCall_frame _ _ _ _)
    | split
    | dsimp only

theorem execScCalOpen_changes (t : Nat) (core : Fin 4) (mask : BitVec 64) (s : State) : s.ChangesThen t Part.all (execScCalOpen t core mask s) := by
  unfold execScCalOpen
  unfold State.event
  refine .inr ⟨_, rfl, ?_⟩
  repeat' first
    | exact rfl
    | with_reducible apply Frame.refl
    | with_reducible apply Frame.step (serviceCall_frame _ _ _ _)
    | split
    | dsimp only

theorem execScCalSwitch_changes (t : Nat) (core : Fin 4) (quad position : BitVec 64) (s : State) : s.ChangesThen t Part.all (execScCalSwitch t core quad position s) := by
  unfold execScCalSwitch
  unfold State.event
  refine .inr ⟨_, rfl, ?_⟩
  repeat' first
    | exact rfl
    | with_reducible apply Frame.refl
    | with_reducible apply Frame.step (serviceCall_frame _ _ _ _)
    | split
    | dsimp only

theorem execScCalClose_changes (t : Nat) (core : Fin 4) (s : State) : s.ChangesThen t Part.all (execScCalClose t core s) := by
  unfold execScCalClose
  unfold State.event
  refine .inr ⟨_, rfl, ?_⟩
  repeat' first
    | exact rfl
    | with_reducible apply Frame.refl
    | with_reducible apply Frame.step (serviceCall_frame _ _ _ _)
    | split
    | dsimp only

theorem execScGroveIdentity_changes (t : Nat) (core : Fin 4) (devaddr role epoch bound : BitVec 64) (s : State) : s.ChangesThen t Part.all (execScGroveIdentity t core devaddr role epoch bound s) := by
  unfold execScGroveIdentity
  unfold State.event
  refine .inr ⟨_, rfl, ?_⟩
  repeat' first
    | exact rfl
    | with_reducible apply Frame.refl
    | with_reducible apply Frame.step (serviceCall_frame _ _ _ _)
    | split
    | dsimp only

theorem execScWdtConfig_changes (t : Nat) (core : Fin 4) (period park : BitVec 64) (s : State) : s.ChangesThen t Part.all (execScWdtConfig t core period park s) := by
  unfold execScWdtConfig
  unfold State.event
  refine .inr ⟨_, rfl, ?_⟩
  repeat' first
    | exact rfl
    | with_reducible apply Frame.refl
    | with_reducible apply Frame.step (serviceCall_frame _ _ _ _)
    | split
    | dsimp only

theorem execScReady_changes (t : Nat) (core : Fin 4) (s : State) : s.ChangesThen t Part.all (execScReady t core s) := by
  unfold execScReady
  unfold State.event
  refine .inr ⟨_, rfl, ?_⟩
  repeat' first
    | exact rfl
    | with_reducible apply Frame.refl
    | with_reducible apply Frame.step (serviceCall_frame _ _ _ _)
    | split
    | dsimp only

theorem execScSubmit_changes (t : Nat) (core : Fin 4) (packet length buffer size : BitVec 64) (s : State) : s.ChangesThen t Part.all (execScSubmit t core packet length buffer size s) := by
  unfold execScSubmit
  unfold State.event
  refine .inr ⟨_, rfl, ?_⟩
  repeat' first
    | exact rfl
    | with_reducible apply Frame.refl
    | with_reducible apply Frame.step (serviceCall_frame _ _ _ _)
    | split
    | dsimp only

theorem execScRestart_changes (t : Nat) (core : Fin 4) (pc : BitVec 64) (s : State) : s.ChangesThen t Part.all (execScRestart t core pc s) := by
  unfold execScRestart
  unfold State.event
  refine .inr ⟨_, rfl, ?_⟩
  repeat' first
    | exact rfl
    | with_reducible apply Frame.refl
    | with_reducible apply Frame.step (serviceCall_frame _ _ _ _)
    | split
    | dsimp only

theorem execScFault_changes (t : Nat) (core : Fin 4) (reason : BitVec 64) (s : State) : s.ChangesThen t Part.all (execScFault t core reason s) := by
  unfold execScFault
  unfold State.event
  refine .inr ⟨_, rfl, ?_⟩
  repeat' first
    | exact rfl
    | with_reducible apply Frame.refl
    | with_reducible apply Frame.step (serviceCall_frame _ _ _ _)
    | split
    | dsimp only

theorem execScKeys_changes (t : Nat) (core : Fin 4) (s : State) : s.ChangesThen t Part.all (execScKeys t core s) := by
  unfold execScKeys
  unfold State.event
  refine .inr ⟨_, rfl, ?_⟩
  repeat' first
    | exact rfl
    | with_reducible apply Frame.refl
    | with_reducible apply Frame.step (serviceCall_frame _ _ _ _)
    | split
    | dsimp only

theorem execWatchdogExpiry_changes (t : Nat) (core : Fin 4) (pc : BitVec 64) (s : State) : s.ChangesThen t [.board, .clock, .quads, .cal, .groups, .accs, .mem, .ring4, .paths, .host, .events, .fw, .stim, .grove, .link] (execWatchdogExpiry t core pc s) := by
  unfold execWatchdogExpiry
  unfold State.event
  refine .inr ⟨_, rfl, ?_⟩
  repeat' first
    | exact rfl
    | with_reducible apply Frame.refl
    | with_reducible apply Frame.step (restart_frame _ _ _ _ _)
    | split
    | dsimp only

theorem execFirewallFault_changes (t : Nat) (core : Fin 4) (pc addr : BitVec 64) (s : State) : s.ChangesThen t [.board, .clock, .quads, .cal, .groups, .accs, .mem, .ring4, .paths, .host, .events, .fw, .stim, .grove, .link] (execFirewallFault t core pc addr s) := by
  unfold execFirewallFault
  unfold State.event
  refine .inr ⟨_, rfl, ?_⟩
  repeat' first
    | exact rfl
    | with_reducible apply Frame.refl
    | with_reducible apply Frame.step (restart_frame _ _ _ _ _)
    | split
    | dsimp only

theorem execDoubleTrap_changes (t : Nat) (core : Fin 4) (pc : BitVec 64) (s : State) : s.ChangesThen t [.board, .clock, .quads, .cal, .groups, .accs, .mem, .ring4, .paths, .host, .events, .fw, .stim, .grove, .link] (execDoubleTrap t core pc s) := by
  unfold execDoubleTrap
  unfold State.event
  refine .inr ⟨_, rfl, ?_⟩
  repeat' first
    | exact rfl
    | with_reducible apply Frame.refl
    | with_reducible apply Frame.step (restart_frame _ _ _ _ _)
    | split
    | dsimp only

theorem execRestartVerifyDone_changes (t : Nat) (ok : Bool) (s : State) : s.ChangesThen t [.board, .clock, .quads, .cal, .mem, .ring4, .paths, .host, .events, .fw, .grove, .link] (execRestartVerifyDone t ok s) := by
  unfold execRestartVerifyDone
  unfold State.event
  refine .inr ⟨_, rfl, ?_⟩
  repeat' first
    | exact rfl
    | with_reducible apply Frame.refl
    | with_reducible apply Frame.step (verifyDone_frame _ _)
    | split
    | dsimp only

theorem execSapwoodReadyTimeout_changes (t : Nat) (s : State) : s.ChangesThen t [.board, .clock, .quads, .cal, .mem, .ring4, .paths, .host, .events, .fw, .grove, .link] (execSapwoodReadyTimeout t s) := by
  unfold execSapwoodReadyTimeout
  unfold State.event
  refine .inr ⟨_, rfl, ?_⟩
  repeat' first
    | exact rfl
    | with_reducible apply Frame.refl
    | with_reducible apply Frame.step (readyLate_frame _)
    | split
    | dsimp only

end Sys2Proof.Laws
end

