-- ==== Sys2Proof/Tests/Slice0.lean ====
section
/-!
SUPPORT. Tests of single steps, and for every statement with hypotheses a concrete state and operands that meet them.
Each theorem of a statement goes through its clauses in order; test values come from the worked figures of the spec or are computed by hand from its formulas.
-/
namespace Sys2Proof.Tests
open Sys2Proof Sys2Proof.Machine
set_option Elab.async false

/-- An engine in READY: powered, locked on its reference, its quads ready, its memory trained, Sapwood running, grove time begun at 0. -/
def ready : State := { State.reset with
  board := { Board.reset with boot := .run, pwrOk := true, perstReleased := true, ready := true, thermWatch := true }
  clock := { Clock.reset with
    loop := .locked, drive := .main, refPresent := true, xoPresent := true, refJudged := true, t0 := some 0 }
  quads := Vector.replicate 4 { Quad.reset with state := .ready, control := true }
  banks := Vector.replicate 16 { Bank.reset with link := { SampleLink.reset with up := true }, converged := true }
  mem := { Memory.reset with hbm := Vector.replicate 4 { Stack.reset with trained := true }, initDone := true }
  fw := { Firmware.reset with running := true } }

/-- The header of a command for this device on the PCIe path. -/
def host : Hdr := { tick := 1000, path := .pcie, flags := 0, ticket := 0x0011, dest := 0, source := 0, reserved := 0 }

/-- The same on the bough path. -/
def overBough : Hdr := { host with path := .bough }

/-- Nothing can go on by itself. -/
def still (s : State) : Bool :=
  [Path.pcie, .bough, .mailbox].all (fun p => (s.headReady p).isNone) && s.fw.callQueue.isEmpty && four.all fun c => (s.fw.cores.get c).submit.isNone

theorem idle_of {s : State} (k : still s = true) : s.idle := by
  simp only [still, Bool.and_eq_true, List.all_cons, List.all_nil, Bool.and_true, List.isEmpty_iff, Option.isNone_iff_eq_none, List.all_eq_true] at k
  obtain ⟨⟨⟨a, b, c⟩, d⟩, e⟩ := k
  exact ⟨fun p => by cases p <;> assumption, d, fun c => e c (by revert c; decide)⟩

/-- Nothing waits, and the header is that of a new command for this device. -/
def calm (s : State) (h : Hdr) : Bool :=
  still s && (s.path h.path).queue.isEmpty && s.board.boot != .reset && s.board.boot != .heartwood && s.fw.restart.isNone &&
    (s.grove.role != .sapling || h.path != .bough) && h.flags.toNat % 8 == 0 && headerOk h && s.sourceOk h && !h.group && h.dest.toNat == s.grove.devaddr &&
    ((s.path h.path).lastGen h.tag).isNone

/-- Such a command is heard. -/
theorem hears_of {s : State} {h : Hdr} {op : Nat} (k : calm s h = true) : s.Hears h op := by
  simp only [calm, Bool.and_eq_true, Bool.or_eq_true, bne_iff_ne, beq_iff_eq, List.isEmpty_iff, Option.isNone_iff_eq_none, Bool.not_eq_true'] at k
  obtain ⟨⟨⟨⟨⟨⟨⟨⟨⟨⟨⟨a, b⟩, f⟩, g⟩, i⟩, j⟩, l⟩, m⟩, n⟩, o⟩, p⟩, q⟩ := k
  refine ⟨⟨idle_of a, b, ⟨f, g⟩, fun _ => i, fun x y => ?_, ⟨l, m⟩, n, .inl ⟨o, p⟩⟩, by simp [q]⟩
  rcases j with j | j
  · exact absurd y j
  · exact absurd x j

/-- A core's call is served when nothing waits. -/
theorem calls_of {s : State} {c : Fin 4} (k : still s = true ∧ s.sapwood = true ∧ (s.fw.cores.get c).pending = false ∧ s.callWaits = false) : s.Calls c :=
  ⟨idle_of k.1, k.2.1, k.2.2.1, k.2.2.2⟩

/-- A function of a number, once the number is known: the kernel computes it before it goes on. -/
def known (n : Nat) (k : Nat → Nat) : Nat := Nat.rec (k 0) (fun m _ => k (m + 1)) n

theorem known_eq (n : Nat) (k : Nat → Nat) : known n k = k n := by cases n <;> rfl

/-- Bit steps of the CRC-32C register. -/
def crcBits : Nat → Nat → Nat
  | 0, c => c
  | n + 1, c => known (crcBit c) (crcBits n)

/-- The register after a byte string. -/
def crcRun : Bytes → Nat → Nat
  | [], c => c
  | b :: bs, c => known (crcBits 8 (c ^^^ b.toNat)) (crcRun bs)

theorem crcRun_eq (bs : Bytes) (c : Nat) : bs.foldl crcByte c = crcRun bs c := by
  induction bs generalizing c with
  | nil => rfl
  | cons b bs ih => simp [crcRun, known_eq, crcBits, ih, crcByte]
theorem test_empty_queue : State.reset.pending = [] := rfl

theorem test_system_commands :
    ready.engineState ∈ setQ ∧ ready.Hears host 0x0000 ∧ (zeros 4088).length % 4 = 0 ∧ (zeros 4088).length ≤ 4088 ∧
    ready.Hears host 0x0003 ∧ host.path = .pcie ∧ host.group = false ∧ fld ringSetupReset 96 13 = 0 ∧ fld ringSetupReset 1 63 = 0 ∧
    setupInvalid ringSetupReset = false ∧ ready.ringOn = false ∧ ready.Hears host 0x0006 ∧ (42#32).toNat ≤ 42 := by
  repeat' apply And.intro
  all_goals first | (with_reducible refine hears_of ?_); decide +kernel | decide +kernel

/-- AWAIT_IMAGE. -/
def awaiting : State := ready.onBoard fun b => { b with boot := .awaitImage }
/-- A plan with a reference of 10 MHz. -/
def plan10 : BitVec 128 := BitVec.ofNat 128 (at' 10000000000 88 + at' 100 72 + at' 20 64 + at' 1 30 + at' 1 27)

theorem test_clock_commands :
    (awaiting.Hears host 0x0101 ∧ awaiting.engineState ∈ [2, 4] ∧ fld planReset 0 24 = 0 ∧ fld planReset 32 32 = 0 ∧ planValid planReset = true ∧
      awaiting.board.boot = .awaitImage) ∧
    (ready.Hears host 0x0101 ∧ ready.engineState ∈ [2, 4] ∧ ready.clock.sync = none ∧ ready.clock.slew = none ∧ ready.stim.enabled = false ∧
      planKey planReset = planKey ready.clock.plan) ∧
    (ready.engineState = 4 ∧ fld plan10 0 24 = 0 ∧ fld plan10 32 32 = 0 ∧ planValid plan10 = true ∧ ready.clock.drive ≠ .fallback ∧
      planKey plan10 ≠ planKey ready.clock.plan) ∧
    (ready.Hears host 0x0102 ∧ (128#64).toNat % 128 = 0 ∧ (1#16) ≠ 0 ∧ planInteger ready.clock.plan = true ∧ planSource ready.clock.plan = 1) ∧
    ready.Hears host 0x0103 ∧ ready.engineState ∈ [4, 5, 6, 9] ∧ (0#32).toInt.natAbs ≤ 50000 ∧ (50000#32).toInt.natAbs ≤ 50000 ∧
      (-50000#32).toInt.natAbs ≤ 50000 := by
  repeat' apply And.intro
  all_goals first | (with_reducible refine hears_of ?_); decide +kernel | decide +kernel

/-- A quad of the engine in another state. -/
def quadIs (q : Fin 4) (k : QuadState) : State := ready.onQuad q fun x => { x with state := k }

theorem test_input_commands :
    (ready.engineState ∈ setC ∧ ready.Hears host 0x0201 ∧ (15#32).toNat < 16 ∧ fld (0xC0000000#32) 16 12 = 0 ∧ filterCode 0xE0000000#32 ≠ 3 ∧
      (ready.inputs.get 15).cfg = 0xC0000000#32 ∧ (ready.inputs.get 15).cfg ≠ 0xE0000000#32 ∧ ready.inUse 15 = false) ∧
    (ready.Hears host 0x0202 ∧ (3#32).toNat = (3 : Fin 4).val ∧ (2#32).toNat < 3 ∧ (ready.quads.get 3).state.busy = false ∧
      ready.quadInUse 3 (ready.quads.get 3).fusion = false ∧ ready.quadInUse 3 2 = false ∧ (ready.quads.get 3).fusion = 0 ∧
      (ready.quads.get 3).state = .ready) ∧
    ((quadIs 3 .off).Hears host 0x0202 ∧ (quadIs 3 .off).engineState ∈ setC ∧ ((quadIs 3 .off).quads.get 3).state = .off ∧
      ((quadIs 3 .off).quads.get 3).state.busy = false ∧ ((quadIs 3 .off).quads.get 3).fusion ≠ 2 ∧
      (quadIs 3 .off).quadInUse 3 0 = false ∧ (quadIs 3 .off).quadInUse 3 2 = false) ∧
    ((quadIs 3 .retiming).Hears host 0x0203 ∧ (quadIs 3 .retiming).engineState ∈ setC ∧ ((quadIs 3 .retiming).quads.get 3).state = .retiming) := by
  repeat' apply And.intro
  all_goals first | (with_reducible refine hears_of ?_); decide +kernel | decide +kernel

/-- Unit 7 takes software triggers. -/
def softUnit : State := ready.onUnit 7 fun u => { u with cfg := BitVec.ofNat 256 (at' 1 84 + at' 0x40 32 + at' 7 28 + 1) }

theorem test_trigger_commands :
    (ready.engineState ∈ setC ∧ ready.Hears host 0x0301 ∧ (7#32).toNat < 8 ∧ fld tuReset 40 44 = 0 ∧ fld tuReset 1 21 = 0 ∧ ready.referenced 7 = false ∧
      fld tuReset 28 4 ∈ permitted (fld tuReset 32 8) ∧ tuInvalid tuReset = false) ∧
    (ready.Hears host 0x0302 ∧ (15#32).toNat < 16 ∧ fld (0x100#32) 0 4 = 0 ∧ ready.cmpMask 15 = 0) ∧
    (ready.Hears host 0x0303 ∧ (3#32).toNat < 4 ∧ fld combinerReset 32 15 = 0 ∧ fld combinerReset 0 12 = 0 ∧ (ready.groups.get 3).live = false) ∧
    (softUnit.Hears host 0x0304 ∧ softUnit.engineState ∈ setW ∧ (softUnit.units.get 7).on = true ∧ (softUnit.units.get 7).source = 0x40 ∧
      (softUnit.units.get 7).atTick = none ∧ ((softUnit.advance 1000).now : Int) - 1280 ≤ (softUnit.advance 1000).internal 0) ∧
    (ready.Hears host 0x0305 ∧ fld (0x10000000#64) 11 17 = 0 ∧ fld (0x10000000#64) 2 6 = 0 ∧ outSource 0x10000000#64 = 0 ∧
      (ready.trigouts.get 3).cfg = 0x10000000#64 ∧ (ready.trigouts.get 3).cfg ≠ 0x10000001#64 ∧ fld (0x10000001#64) 28 16 ≠ 0) := by
  repeat' apply And.intro
  all_goals first | (with_reducible refine hears_of ?_); decide +kernel | decide +kernel

/-- Group 0 captures 1,000 samples of input 0 into one segment on software trigger 0, in a region with the given grain, with accumulation as given; its quads have a set in force. -/
def groupSet (grain : Nat) (acc : BitVec 256) (k : GState) : State :=
  ((({ ready with
    quads := ready.quads.map fun (q : Quad) => { q with setId := 1 }
    banks := ready.banks.map fun (b : Bank) => { b with coef := { b.coef with valid := 0x7FFFF } } }).onUnit 0 fun u =>
      { u with cfg := BitVec.ofNat 256 (at' 1 84 + at' 0x40 32 + at' 7 28 + 1) }).onGroup 0 fun g => { g with
        cap := BitVec.ofNat 384 (at' 0x100000 304 + at' 0x4000 264 + at' 1000 192 + at' 256 128 + at' 1 103 + at' 1 48 + at' grain 44)
        comb := BitVec.ofNat 128 (at' 1 24 + at' 1 14), state := k }).onAcc 0 fun a => { a with cfg := acc }

/-- A check that answers a placement. -/
theorem ok_of {x : Except Reply (Option Nat)} {p : Option Nat} (h : (match x with | .ok q => q == p | .error _ => false) = true) : x = .ok p := by
  cases x with
  | error _ => cases h
  | ok q => rw [beq_iff_eq.mp h]

/-- AVERAGE of eight records in the store, with two snapshot slots. -/
def averaging : BitVec 256 := BitVec.ofNat 256 (at' 0x400000 216 + at' 0x10000 176 + at' 1024 163 + at' 8 159 + at' 8 96 + at' 3 80 + at' 2 68 + at' 1 66 + 1)

theorem test_capture_configurations :
    (ready.engineState ∈ setC ∧ ready.Hears host 0x0401 ∧ fld (groupSet 4 0 .off).groups[0].cap 240 24 = 0 ∧ fld (groupSet 4 0 .off).groups[0].cap 64 39 = 0 ∧
      fld (groupSet 4 0 .off).groups[0].cap 0 41 = 0 ∧ (ready.groups.get 3).live = false ∧ capInvalid (groupSet 4 0 .off).groups[0].cap = false) ∧
    (ready.Hears host 0x0402 ∧ fld decReset 81 15 = 0 ∧ fld decReset 5 59 = 0 ∧ decMode decReset ≤ 4 ∧ 1 ≤ decFactor decReset ∧ decFactor decReset ≤ 65536 ∧
      4096 ≤ decRatio decReset ∧ decRatio decReset ≤ 16777216) ∧
    (ready.Hears host 0x0501 ∧ fld averaging 128 31 = 0 ∧ fld averaging 72 8 = 0 ∧ fld averaging 2 62 = 0 ∧ accInvalid averaging = false ∧
      accInvalid accCfgReset = false) := by
  repeat' apply And.intro
  all_goals first | (with_reducible refine hears_of ?_); decide +kernel | (with_reducible refine ok_of ?_); decide +kernel | decide +kernel

theorem test_arm_and_stop :
    ((groupSet 4 0 .configured).Hears host 0x0403 ∧ (groupSet 4 0 .configured).engineState ∈ setW ∧ fld (0x100#32) 0 8 = (0 : Fin 4).val ∧ (0x100#32).toNat < 1024 ∧
      ((groupSet 4 0 .configured).groups.get 0).state = .configured ∧
      ((groupSet 4 0 .configured).heard host 0x0403 (leBytes 4 (0x100#32 ||| 0x100#32).toNat)).groupCheck 0 = .ok none ∧
      ((groupSet 4 0 .configured).groups.get 0).armWait = none ∧
      ((groupSet 4 0 .configured).regrains (((groupSet 4 0 .configured).reserve 0 none).holds 0) 4).isEmpty = true) ∧
    ((groupSet 5 0 .done).Hears host 0x0403 ∧ ((groupSet 5 0 .done).groups.get 0).state = .done ∧
      ((groupSet 5 0 .done).heard host 0x0403 (leBytes 4 (0x100#32 ||| 0x100#32).toNat)).groupCheck 0 = .ok none ∧
      ((groupSet 5 0 .done).regrains (((groupSet 5 0 .done).reserve 0 none).holds 0) 5).isEmpty = false) ∧
    ((groupSet 4 0 .armed).Hears host 0x0403 ∧ (groupSet 4 0 .armed).engineState ∈ setW ∧ ((groupSet 4 0 .armed).groups.get 0).live = true) := by
  repeat' apply And.intro
  all_goals first | (with_reducible refine hears_of ?_); decide +kernel | (with_reducible refine ok_of ?_); decide +kernel | decide +kernel

theorem test_snapshot :
    (groupSet 4 averaging .armed).Hears host 0x0502 ∧ (groupSet 4 averaging .armed).engineState ∈ setW ∧
      ((groupSet 4 averaging .armed).accs.get 0).snaps = [] ∧ ((groupSet 4 averaging .armed).groups.get 0).live = true ∧
      ((groupSet 4 averaging .armed).accs.get 0).mode ≠ 0 ∧
      ((groupSet 4 averaging .armed).accs.get 0).occupied.length + (if ((groupSet 4 averaging .armed).accs.get 0).restarts then 0 else 1) <
        ((groupSet 4 averaging .armed).accs.get 0).slots ∧
      ((groupSet 4 averaging .armed).accs.get 0).lastBegun = none ∧ ((groupSet 4 averaging .armed).accs.get 0).freeSlot = some 0 := by
  repeat' apply And.intro
  all_goals first | (with_reducible refine hears_of ?_); decide +kernel | (with_reducible refine ok_of ?_); decide +kernel | decide +kernel

/-- The memory clock is being changed to rate 2. -/
def memMoving : State := ready.onMem fun m => { m with clock := { m.clock with phase := .relock, target := 2 } }

theorem test_memory_commands :
    (ready.Hears host 0x0601 ∧ ready.engineState ∈ setS ∧ (22#32).toNat < 23 ∧ fld (portCfgReset 22) 4 28 = 0 ∧ fld (portCfgReset 22) 0 2 = 0 ∧
      ready.portUsers 22 = 0 ∧ portCfgOk 22 (portCfgReset 22) = true ∧ ready.stim.enabled = false ∧ portCfgOk 0x15 (portCfgReset 0x15) = true ∧
      portCfgOk 0 (portCfgReset 0) = true) ∧
    (ready.Hears host 0x0602 ∧ fld (0x408#32) 16 16 = 0 ∧ fld (0x408#32) 4 4 = 0 ∧ 4 ≤ fld (0x408#32) 8 8 ∧ 8 ≤ fld (0x408#32) 0 4) ∧
    (ready.Hears host 0x0603 ∧ ready.engineState ∈ [3, 4] ∧ (3#32).toNat ≤ 3 ∧ ready.mem.clock.queued = none ∧ ready.mem.clock.phase = .idle ∧
      ready.mem.clock.rate = (0#32).toNat ∧ ready.mem.clock.rate ≠ (3#32).toNat) ∧
    (memMoving.Hears host 0x0603 ∧ memMoving.engineState ∈ [3, 4] ∧ memMoving.stim.enabled = false ∧ memMoving.mem.clock.queued = none ∧
      memMoving.mem.clock.phase ≠ .idle ∧ memMoving.mem.clock.target = (2#32).toNat ∧ memMoving.mem.clock.target ≠ (3#32).toNat) ∧
    (ready.Hears host 0x0604 ∧ (0x17F0000000#64).toNat < 2 ^ 40 ∧ (0x17F0000000#64).toNat % 2 ^ 28 = 0 ∧ (0x17F0000000#64).toNat < ready.memBytes) ∧
    (ready.Hears host 0x0701 ∧ ready.engineState ∈ setC ∧ fld ringCfgReset 96 13 = 0 ∧ fld ringCfgReset 3 45 = 0 ∧ (ready.groups.get 3).live = false ∧
      (ready.rings.get 3).desc = none ∧ (ready.rings.get 3).cpl.waiting = [] ∧ ringsInvalid ringCfgReset = false) := by
  repeat' apply And.intro
  all_goals first | (with_reducible refine hears_of ?_); decide +kernel | decide +kernel

/-- A foreground run of quad 0, called for with ticket 5. -/
def calibrating : State := ready.startRun 1 false 5

theorem test_calibration_commands :
    (ready.Hears host 0x0801 ∧ ready.engineState ∈ setS ∧ fld calCfgReset 10 6 = 0 ∧ fld calCfgReset 4 4 = 0 ∧ ready.calBusy = false ∧
      (∀ g : Fin 4, (ready.groups.get g).live = true → flag calCfgReset g.val = flag ready.cal.cfg g.val) ∧ calDc calCfgReset = 0 ∧
      10 ≤ bgPeriod calCfgReset ∧ fld calCfgReset 8 2 < 2 ∧ 400000 ≤ calDc (BitVec.ofNat 64 (at' 600000 32)) ∧
      calDc (BitVec.ofNat 64 (at' 600000 32)) ≤ 600000) ∧
    (ready.Hears host 0x0802 ∧ ready.engineState ∈ [4, 5, 6, 9] ∧ ready.cal.run = none ∧ onlyBits (0x10F#32).toNat 0x10F = true ∧ fld (0x10F#32) 0 4 ≠ 0 ∧
      (∀ q : Fin 4, flag (0x10F#32) q.val = true → (ready.quads.get q).state = .ready ∧ ∀ k ∈ ofQuad q, (ready.banks.get k).link.faulted = false) ∧
      ready.refinLocked = true) ∧
    (calibrating.Hears host 0x0803 ∧ calibrating.engineState = 8) ∧
    (ready.Hears host 0x0804 ∧ (zeros 4032).length % 4 = 0 ∧ (zeros 4032).length ≤ 4032 ∧ (127040#32).toNat % 4 = 0 ∧
      (127040#32).toNat + (zeros 4032).length ≤ 131072) ∧
    (let s := ready.onCal fun c => { c with active := some (zeros 64) };
      s.Hears host 0x0806 ∧ s.engineState ∈ setS ∧ s.cal.active = some (zeros 64) ∧ (60#32).toNat < (zeros 64).length ∧ (4032#32).toNat % 4 = 0 ∧
      (4032#32).toNat ≤ 4032) ∧
    (ready.Hears host 0x0807 ∧ (15#32).toNat < 16) ∧
    (ready.Hears host 0x0A01 ∧ fld (0x40000000#32) 8 22 = 0 ∧ monRef (0x40000000#32) ≠ 3 ∧ monRef (0x40000000#32) ≠ monRef ready.mon.cfg ∧
      monRef (0#32) = monRef ready.mon.cfg ∧ ∀ n < 8, ready.winReferenced n = false) ∧
    (ready.Hears host 0x0A02 ∧ (7#32).toNat < 8 ∧ (let cfg := BitVec.ofNat 64 (at' 0xFFF 36 + at' 8 12);
      fld cfg 48 11 = 0 ∧ fld cfg 1 11 = 0 ∧ ready.winReferenced 7 = false ∧ winLow cfg ≤ winHigh cfg ∧ 2 * winHyst cfg ≤ winHigh cfg - winLow cfg)) := by
  repeat' apply And.intro
  all_goals first | (with_reducible refine hears_of ?_); decide +kernel | decide +kernel

/-- The body of a correction set with one point per quad and nothing VALID (R246 to R248). -/
def plainBody : Bytes :=
  leBytes 2 0x5343 ++ [1, 0] ++ zeros 16 ++ leBytes 4 12612 ++ [1, 1, 1, 1] ++ zeros 36 ++
    (List.range 4).flatMap fun q => zeros 64 ++ (List.range 4).flatMap fun j => leBytes 1 (4 * q + j) ++ zeros 767

theorem plainBody_length : plainBody.length = 12608 := by
  simp only [plainBody, List.length_append, leBytes_length, zeros, List.length_replicate, List.length_flatMap, List.length_cons, List.length_nil]
  rfl

/-- The same with its CRC, staged. -/
def staging : State := ready.onCal fun c => { c with staging := putSparse [] 0 (withCrc plainBody) }

theorem withCrc_length (b : Bytes) : (withCrc b).length = b.length + 4 := by simp [withCrc]

theorem staged_at (i : Nat) (h : i < 12612) : getSparse staging.cal.staging i = (withCrc plainBody).getD i 0 := by
  show packAt _ (packPut _ [] 0 (withCrc plainBody)) i = _
  rw [Laws.packAt_put, if_pos ⟨Nat.zero_le _, by rw [withCrc_length, plainBody_length] <;> omega⟩]
  simp

theorem staged_is : staging.staged = withCrc plainBody := by
  have l : (withCrc plainBody).length = 12612 := by rw [withCrc_length, plainBody_length]
  have n : ofLe (getSparseN staging.cal.staging 20 4) = 12612 := by
    simp only [getSparseN, List.range, List.range.loop, List.map]
    rw [staged_at _ (by decide), staged_at _ (by decide), staged_at _ (by decide), staged_at _ (by decide)]
    decide +kernel
  rw [State.staged, n]
  apply List.ext_getElem
  · simp [getSparseN, l]
  · intro i h1 h2
    rw [l] at h2
    simp only [getSparseN, List.getElem_map, List.getElem_range, Nat.zero_add]
    rw [staged_at i h2, List.getD_eq_getElem?_getD, List.getElem?_eq_getElem (by omega)]
    rfl

theorem crcBit_lt (c : Nat) (h : c < 2 ^ 32) : crcBit c < 2 ^ 32 := by
  unfold crcBit
  split
  · exact Nat.xor_lt_two_pow (by omega) (by decide)
  · omega

theorem crc32c_lt (b : Bytes) : crc32c b < 2 ^ 32 := by
  have h : ∀ (l : Bytes) (c : Nat), c < 2 ^ 32 → l.foldl crcByte c < 2 ^ 32 := by
    intro l
    induction l with
    | nil => exact fun _ h => h
    | cons x l ih =>
      intro c h
      refine ih _ ?_
      unfold crcByte
      have := x.isLt
      repeat' apply crcBit_lt
      exact Nat.xor_lt_two_pow h (by omega)
  exact Nat.xor_lt_two_pow (h _ _ (by decide)) (by decide)

theorem crcOk_withCrc (b : Bytes) : crcOk (withCrc b) = true := by
  have e : leAt (withCrc b) b.length 4 = crc32c b := by
    rw [withCrc, show b.length = b.length + 0 from rfl, leAt_past b _ 0 4 b.length rfl, leAt_only]
    exact Nat.mod_eq_of_lt (crc32c_lt b)
  simp only [crcOk, withCrc_length, Nat.add_sub_cancel]
  rw [e, withCrc, List.take_left']
  · simp
  · rfl

/-- A bank record of it. -/
def plainRecord (k : Nat) : Bytes := leBytes 1 k ++ zeros 767

theorem leAt_plain (k off n : Nat) : leAt (plainRecord k) (1 + off) n = 0 := by
  have z : ∀ m, ofLe (zeros m) = 0 := by
    intro m
    induction m with
    | zero => rfl
    | succ m ih => rw [zeros, List.replicate_succ, ofLe, ← zeros, ih]; rfl
  rw [plainRecord, leAt_past _ _ off n 1 rfl]
  simp only [leAt, zeros, List.drop_replicate, List.take_replicate]
  exact z _

theorem plain_coef (k : Nat) : coefOf (plainRecord k) = coefOf (plainRecord 0) := by
  have h : ∀ k a n, 0 < a → leAt (plainRecord k) a n = 0 := fun k a n p => by
    obtain ⟨b, rfl⟩ : ∃ b, a = 1 + b := ⟨a - 1, by omega⟩
    exact leAt_plain k b n
  simp (disch := omega) only [coefOf, sAt, h]

theorem plain_records : ∀ q j : Fin 4, bankRecord (setPoint (withCrc plainBody) q.val 0) j.val = plainRecord (4 * q.val + j.val) := by decide +kernel

theorem plain_bank : (coefOf (plainRecord 0)).slices.all sliceOk = true ∧ bankOk sinTable (coefOf (plainRecord 0)) = true := by decide +kernel

theorem test_set_commit : staging.Hears host 0x0805 ∧ staging.engineState ∈ setS ∧ staging.calBusy = false ∧ setValid staging.staged sinTable = true := by
  refine ⟨hears_of (by decide +kernel), by decide +kernel, by decide +kernel, ?_⟩
  have n : leAt (withCrc plainBody) 20 4 = 12612 := by decide +kernel
  have c : crcOk ((withCrc plainBody).take (leAt (withCrc plainBody) 20 4)) = true := by
    rw [n, List.take_of_length_le (by rw [withCrc_length, plainBody_length] <;> decide), crcOk_withCrc]
  have one : ∀ q : Fin 4, setCount (withCrc plainBody) q.val = 1 := by decide +kernel
  have quads : ∀ q : Fin 4, ∀ j : Fin 4, (leAt (plainRecord (4 * q.val + j.val)) 0 1 == 4 * q.val + j.val) = true := by decide +kernel
  rw [staged_is, setValid]
  simp only [Bool.and_eq_true]
  refine ⟨⟨⟨⟨⟨by decide +kernel, by decide +kernel⟩, by decide +kernel⟩, by decide +kernel⟩, c⟩, ?_⟩
  simp only [List.all_eq_true, List.mem_range, setSection]
  intro q hq
  have w := one ⟨q, hq⟩
  have r := plain_records ⟨q, hq⟩
  have e := quads ⟨q, hq⟩
  dsimp only at w r e
  simp only [w, Bool.and_eq_true]
  refine ⟨by simp [List.range, List.range.loop], ?_⟩
  simp only [List.range_one, List.map_cons, List.map_nil, List.all_cons, List.all_nil, Bool.and_true, List.all_eq_true, List.mem_range]
  intro j hj
  rw [r ⟨j, hj⟩, plain_coef, plain_bank.1, plain_bank.2]
  simpa using e ⟨j, hj⟩

/-- A sequencer with a LIST segment 0 of two entries, a STREAM segment 1 of 64 updates that is ready, a step 0 that plays segment 0 and takes jumps by command, and channel 0 on. -/
def seqSet : State := ready.onStim fun q => { q with
  cfg := BitVec.ofNat 128 (at' 0x10000 48 + at' 4 44 + at' 32 30 + at' 32 16 + at' 3 4 + 1)
  segs := [(0, BitVec.ofNat 128 (at' 2 23 + at' 1 1)), (1, BitVec.ofNat 128 (at' 64 44 + at' 2 23 + at' 2 1))]
  steps := [(0, BitVec.ofNat 128 (at' 1 62 + at' 1 58))] }

theorem test_stimulus_tables :
    (seqSet.engineState ∈ setT ∧ seqSet.Hears host 0x0901 ∧ fld seqCfgReset 6 2 = 0 ∧ fld seqCfgReset 2 2 = 0 ∧ seqSet.stim.enabled = false ∧
      seqInvalid seqCfgReset = false) ∧
    (seqSet.Hears host 0x0902 ∧ (4095#32).toNat < 4096 ∧ (let d := BitVec.ofNat 128 (at' 1 23 + at' 2 3 + at' 1 1)
      flag d 0 = false ∧ seqSet.stim.segActive 4095 = false ∧ seqSet.stim.segInvalid 4095 d = false)) ∧
    (seqSet.Hears host 0x0903 ∧ (fld (16#128) 2 2 = 0 ∧ fld (3#128) 2 2 = 0) ∧ seqSet.stim.segActive 0 = false ∧
      seqSet.stim.listOk 0 (0#32).toNat ([16, 3] : List (BitVec 128)).length = true) ∧
    (seqSet.Hears host 0x0983 ∧ (1#32).toNat < 256 ∧ seqSet.stim.listOk 0 (1#32).toNat (1#32).toNat = true) ∧
    (seqSet.Hears host 0x0904 ∧ (1#32).toNat < 65536 ∧ seqSet.stim.segActive 1 = false ∧ segKind (seqSet.stim.seg 1) = 2) ∧
    (seqSet.Hears host 0x0905 ∧ (1023#32).toNat < 1024 ∧ (let t := BitVec.ofNat 128 (at' 4095 116 + at' 1 62)
      fld t 88 4 = 0 ∧ fld t 0 57 = 0 ∧ seqSet.stim.stepActive 1023 = false ∧ stepSegment t + stepRing t ≤ 4096)) := by
  repeat' apply And.intro
  all_goals first | (with_reducible refine hears_of ?_); decide +kernel | decide +kernel

/-- The sequencer enabled, its channels as given. -/
def seqRuns (k : StimCh) : State := seqSet.onStim fun q => { q with enabled := true, chs := Vector.replicate 2 k }
/-- A channel that plays step 0 from instant 0, one million updates long. -/
def playing : StimCh := { StimCh.reset with state := .playing, updates := 1000000 }

theorem test_sequencer_enabled :
    (seqSet.engineState ∈ setT ∧ seqSet.Hears host 0x0906 ∧ (1#32).toNat ≤ 1 ∧ seqSet.stim.enabled = false ∧ seqSet.seqCheck = none ∧ seqSet.seqRegrains = [] ∧
      seqSet.clock.sqRephase = false) ∧
    (let s := seqSet.onClock fun c => { c with sqRephase := true };
      s.engineState ∈ setT ∧ s.Hears host 0x0906 ∧ s.stim.enabled = false ∧ s.seqCheck = none ∧ s.clock.sqRephase = true) ∧
    ((seqRuns { StimCh.reset with state := .idle }).Hears host 0x0906 ∧ (seqRuns { StimCh.reset with state := .idle }).engineState ∈ setT ∧
      (seqRuns { StimCh.reset with state := .idle }).stim.enabled = true ∧
      ∀ c : Fin 2, ((seqRuns { StimCh.reset with state := .idle }).stim.chs.get c).state = .off ∨
        ((seqRuns { StimCh.reset with state := .idle }).stim.chs.get c).state = .idle) := by
  repeat' apply And.intro
  all_goals first | (with_reducible refine hears_of ?_); decide +kernel | decide +kernel

theorem test_sequencer_starts_and_stops :
    (let s := seqRuns { StimCh.reset with state := .idle };
      let w := BitVec.ofNat 128 (at' 5096 64 + 0x101)
      s.Hears host 0x0907 ∧ onlyBits (fld w 0 32) 0x103 = true ∧ fld w 0 2 ≠ 0 ∧ (∀ c : Fin 2, flag w c.val = false → fld w (32 + 16 * c.val) 16 = 0) ∧
      (∀ c : Fin 2, flag w c.val = true → (s.stim.chs.get c).state = .idle ∧ (assoc s.stim.steps (fld w (32 + 16 * c.val) 16)).isSome = true) ∧
      4096 ≤ signed 64 (unsigned 64 ((fld w 64 64 : Int) - (s.advance 1000).grove64))) ∧
    ((seqRuns playing).Hears host 0x0908 ∧ (seqRuns playing).engineState ∈ setT ∧ fld (3#32) 2 6 = 0 ∧ (3#32).toNat < 512) ∧
    ((seqRuns playing).Hears host 0x0909 ∧ ((seqRuns playing).stim.chs.get 0).state = .playing ∧ (((seqRuns playing).advance 1000).requestAt 0).ends = false ∧
      stepByCommand ((seqRuns playing).stim.step (((seqRuns playing).advance 1000).requestAt 0).step) = true ∧
      ((seqRuns playing).stim.chs.get 0).stopRamp = none) ∧
    ((seqRuns { StimCh.reset with state := .waiting }).stim.chs.get 0).state = .waiting := by
  repeat' apply And.intro
  all_goals first | (with_reducible refine hears_of ?_); decide +kernel | decide +kernel

/-- The engine in another role, its UP port up. -/
def roleIs (r : Role) : State := (ready.onGrove fun g => { g with role := r }).onPort 0 fun p => { p with link := .up }

theorem test_grove_commands :
    ((roleIs .worker).Hears overBough 0x0B01 ∧ overBough.path = .bough ∧ (roleIs .worker).engineState ∈ setW ∧ (let w := BitVec.ofNat 128 (at' 8 16 + 3);
      fld w 20 12 = 0 ∧ fld w 49 15 = 0 ∧ fld w 32 16 = 0 ∧ fld w 64 64 = 0 ∧ 1 ≤ fld w 16 4 ∧ fld w 16 4 ≤ 8)) ∧
    ((roleIs .sapling).engineState ∈ setW ∧ (let w := BitVec.ofNat 128 (at' 5000 96 + at' 1 64 + at' 7 32 + at' 1 16);
      fld w 20 12 = 0 ∧ fld w 49 15 = 0 ∧ fld w 32 16 ≠ 0 ∧ 1 ≤ fld w 16 4 ∧ fld w 16 4 ≤ 8)) ∧
    (ready.Hears host 0x0B02 ∧ ready.engineState ∈ setW) ∧
    (let s := ready.onPort 4 fun p => { p with link := .up };
      s.Hears host 0x0B03 ∧ s.engineState ∈ setW ∧ host.group = false ∧ (4 : Fin 5).val = 1 + (3#32).toNat ∧ (s.port 4).link = .up) ∧
    (ready.Hears host 0x0B04 ∧ ready.engineState = 4 ∧ (50000#32).toInt.natAbs ≤ 50000 ∧ ready.clock.slew = none ∧ ready.clock.sync = none ∧
      ready.stim.enabled = false) ∧
    ((roleIs .orphanRoot).Hears host 0x0B05 ∧ (roleIs .orphanRoot).engineState = 9 ∧ (roleIs .orphanRoot).grove.role = .orphanRoot) ∧
    ((roleIs .orphanMember).Hears host 0x0B06 ∧ (roleIs .orphanMember).grove.role.orphan = true ∧ ready.Hears host 0x0B06 ∧ ready.grove.role = .manager) ∧
    ready.Hears host 0x0B07 ∧ ready.engineState ∈ setQ := by
  repeat' apply And.intro
  all_goals first | (with_reducible refine hears_of ?_); decide +kernel | decide +kernel

theorem test_probe_of_a_sapling : (roleIs .sapling).Hears overBough 0x0B01 :=
  ⟨⟨idle_of (by decide +kernel), by decide +kernel, by decide +kernel, fun _ => rfl, fun _ _ => rfl, by decide +kernel, by decide +kernel,
    .inl (by decide +kernel)⟩, fun g h => by cases h⟩

/-- The base point of P-384: its coordinates are those of the standard. -/
def baseX : BitVec 384 := 0xAA87CA22BE8B05378EB1C71EF320AD746E1D3B628BA79B9859F741E082542A385502F25DBF55296C3A545E3872760AB7#384
/-- Its y. -/
def baseY : BitVec 384 := 0x3617DE4A96262C6F5D9E98BF9292DC29F8F41DBD289A147CE9DA3113B5F0B8C00A60B1CE1D7E819D7A431D7C90EA0E5F#384

theorem test_firmware_commands :
    (awaiting.board.boot = .awaitImage ∧ host.path = .pcie ∧ host.group = false) ∧
    (awaiting.Hears host 0x0C01 ∧ awaiting.fw.ownerKey = none ∧ onCurve baseX.toNat baseY.toNat = true) ∧
    (awaiting.Hears host 0x0C02 ∧ (zeros 4080).length % 4 = 0 ∧ 4 ≤ (zeros 4080).length ∧ (zeros 4080).length ≤ 4080 ∧ (16773136#32).toNat % 4 = 0 ∧
      (16773136#32).toNat + (zeros 4080).length ≤ 2 ^ 24) ∧
    (awaiting.Hears host 0x0C03 ∧ (0x1000000#32).toNat % 4 = 0 ∧ (0x1000000#32).toNat ≤ 2 ^ 24) := by
  repeat' apply And.intro
  all_goals first | (with_reducible refine hears_of ?_); decide +kernel | decide +kernel

theorem test_loop_events :
    (let s := ready.onClock fun c => { c with loop := .acquiring, windows := true };
      s.clock.loop = .acquiring ∧ s.clock.windows = true) ∧
    (ready.clock.loop = .locked ∧ ready.clock.refPresent = true ∧ ready.clock.refJudged = true ∧
      8 < max (planExpected planReset + 9) (planExpected ready.clock.plan) - min (planExpected planReset + 9) (planExpected ready.clock.plan)) ∧
    (ready.onClock fun c => { c with loop := .searching }).clock.loop = .searching ∧
    (let s := ready.onClock fun c => { c with loop := .acquiring };
      s.clock.loop = .acquiring ∧ s.clock.windows = false) ∧
    (let d : CommonDue := { due := 1000, start := 128, sync := none };
      let s := (ready.onClock fun c => { c with commonDue := some d, t0 := none }).onBoard fun b => { b with boot := .init };
      s.clock.commonDue = some d ∧ d.due ≤ max s.now 1000 ∧ s.clock.t0 = none ∧ s.board.boot = .init) ∧
    (let w : SyncWait := { syncTick := 128, timeoutMs := 1, since := 0, ticket := 1, lows := 2 };
      let s := ready.onClock fun c => { c with sync := some w };
      s.clock.sync = some w ∧ s.board.boot = .run ∧ s.clock.commonDue = none ∧ s.clock.t0.isSome = true ∧ 2 ≤ w.lows ∧ s.clock.slew = none ∧
        s.groups.any Group.live = false ∧ s.stim.enabled = false ∧ w.since + w.timeoutMs * 20000000 ≤ max s.now 20000000) ∧
    (let w : SyncWait := { syncTick := 128, timeoutMs := 65535, since := 0, ticket := 1, lows := 2 };
      let s := (ready.onClock fun c => { c with sync := some w, t0 := none }).onBoard fun b => { b with boot := .init };
      s.clock.sync = some w ∧ s.board.boot = .init ∧ s.clock.commonDue = none ∧ s.clock.loop = .locked ∧ 2 ≤ w.lows ∧ s.clock.t0 = none ∧
        w.since + w.timeoutMs * 20000000 ≤ max s.now 1310700000000) ∧
    (let s := ready.onClock fun c => { c with hop := some 0 };
      s.clock.hop = some 0 ∧ 0 + 2000000000 ≤ max s.now 2000000000) := by
  repeat' apply And.intro
  all_goals decide +kernel

theorem test_reference_and_switch_events :
    ready.clock.refPresent = true ∧
    (let s := ready.onClock fun c => { c with refPresent := false, loop := .coasting };
      s.clock.refPresent = false ∧ s.clock.loop ≠ .off) ∧
    (let w : Slew := { kind := .trim, amount := -50000, start := 0, ticket := 1, load := 0 };
      let s := ready.onClock fun c => { c with slew := some w };
      s.clock.slew = some w ∧ w.start + 20 * w.amount.natAbs ≤ max s.now 1000000) ∧
    (let s := ready.onClock fun c => { c with switch := some (1024, .toFallback), fbStandby := true };
      s.clock.switch = some (1024, .toFallback) ∧ 1024 ≤ max s.now 1024) ∧
    (let s := ready.onClock fun c => { c with switch := some (1024, .toMain), drive := .fallback };
      s.clock.drive = .fallback ∧ s.clock.switch = some (1024, .toMain) ∧ 1024 ≤ max s.now 1024) ∧
    (let s := ready.onClock fun c => { c with drive := .fallback };
      s.clock.drive = .fallback ∧ s.clock.switch = none ∧ s.clock.loop = .locked) ∧
    (ready.clock.drive = .main ∧ ready.clock.switch = none ∧ planFallback ready.clock.plan = true ∧ planInteger ready.clock.plan = true) ∧
    (let s := ready.onClock fun c => { c with switch := some (1024, .stop) };
      s.clock.switch = some (1024, .stop) ∧ 1024 ≤ max s.now 1024) ∧
    (let s := ready.onClock fun c => { c with switch := some (1024, .restart), drive := .stopped };
      s.clock.switch = some (1024, .restart) ∧ 1024 ≤ max s.now 1024 ∧ s.board.boot = .run ∧ s.clock.loop = .locked) ∧
    ready.clock.xoPresent = true ∧ (ready.clock.drive ≠ .stopped ∧ ready.clock.t0.isSome = true) ∧
    (ready.onClock fun c => { c with sqRephase := true }).clock.sqRephase = true := by
  repeat' apply And.intro
  all_goals decide +kernel

/-- INIT, the sample clocks running and every quad ready, before its self-calibration. -/
def initial : State := ready.onBoard fun b => { b with boot := .init, bootStatus := 0x14000000 }
/-- A self-calibration with a reference of 0.5 V in a phase begun at tick 0. -/
def selfCal (p : SelfPhase) (caldc : Nat) : SelfCal :=
  { phase := p, since := 0, caldc := caldc, base := none, active := 0, windows := 0, outcomes := List.replicate 4 0xFFFF, points := [] }

theorem test_boot_events :
    (State.reset.board.pwrOk = false ∧ State.reset.board.boot = .reset ∧ State.reset.board.perstReleased = false) ∧
    (ready.board.pwrOk = true ∧ ready.board.perstReleased = true) ∧
    (ready.onBoard fun b => { b with boot := .heartwood }).board.boot = .heartwood ∧
    (awaiting.onFw fun w => { w with auth := some 4096 }).fw.auth = some 4096 ∧
    (let s := initial.onClock fun c => { c with drive := .stopped, loop := .searching };
      s.board.boot = .init ∧ s.clock.drive = .stopped ∧ s.clock.loop = .searching ∧
        s.clock.lockSince + (if planSource s.clock.plan = 2 then 200000000000 else 20000000000) ≤ max s.now 20000000000) ∧
    (let s := initial.onQuad 3 fun q => { q with state := .training };
      s.board.boot = .init ∧ s.clock.t0.isSome = true ∧ (s.quads.get 3).state ≠ .ready ∧ s.clock.firstDelivered + 2000000000 ≤ max s.now 2000000000) ∧
    (initial.board.boot = .init ∧ flag initial.board.bootStatus 26 = true ∧ flag initial.board.bootStatus 28 = true ∧ initial.cal.self = none ∧
      initial.board.readyFrom + 100000000000 ≤ max initial.now 100000000000) := by
  repeat' apply And.intro
  all_goals decide +kernel

theorem test_self_calibration_events :
    (∃ s : State, ∃ t : Nat, (s.advance t).selfReady = true) ∧
    (let s := initial.onCal fun k => { k with self := some (selfCal .leakage 500000) };
      s.cal.self = some (selfCal .leakage 500000) ∧ (selfCal .leakage 500000).since + 20000000 ≤ max s.now 20000000) ∧
    (let s := initial.onCal fun k => { k with self := some (selfCal (.converge 2) 500000) };
      s.cal.self = some (selfCal (.converge 2) 500000) ∧ (selfCal (.converge 2) 500000).since + 2360000000 ≤ max s.now 2360000000 ∧
      (∀ b : Fin 16, (s.banks.get b).converged = true) ∧ ¬ ((selfCal (.converge 2) 500000).caldc = 0 ∧ (selfCal (.converge 2) 500000).base = none) ∧
      (selfCal (.converge 2) 0).caldc = 0 ∧ (selfCal (.converge 2) 0).base = none) ∧
    (let s := (initial.onCal fun k => { k with self := some (selfCal (.converge 4) 0) }).onBank 1 fun b => { b with converged := false };
      s.cal.self = some (selfCal (.converge 4) 0) ∧ (s.banks.get 1).converged = false ∧ (∀ d : Fin 16, d < 1 → (s.banks.get d).converged = true) ∧
      (selfCal (.converge 4) 0).since + 2360000000 ≤ max s.now 2360000000) ∧
    (let s := initial.onCal fun k => { k with self := some (selfCal .measure 0) };
      s.cal.self = some (selfCal .measure 0) ∧ (selfCal .measure 0).since + 2380000000 ≤ max s.now 2380000000 ∧
      (List.replicate 4 (0 : BitVec 16)).length = 4 ∧ (List.replicate 4 (zeros pointBytes)).length = 4) ∧
    ∀ p ∈ List.replicate 4 (zeros pointBytes), p.length = pointBytes := by
  refine ⟨⟨initial, 0, by decide +kernel⟩, ?_, ?_, ?_, ?_, fun p h => by rw [List.eq_of_mem_replicate h]; exact List.length_replicate⟩
  all_goals decide +kernel

theorem test_board_interfaces :
    State.reset.board.pwrOk = false ∧ (ready.board.pwrOk = true ∧ ready.board.perstReleased = true) ∧
    (let s := ready.onBoard fun b => { b with perstReleased := false };
      s.board.pwrOk = true ∧ s.board.perstReleased = false) := by
  decide +kernel

/-- A CLOCK_PLAN structure lies in Sapwood SRAM. -/
def planInSram (p : BitVec 128) : State := ready.onFw fun w => { w with sram := putSparse [] 0x10000000 (leBytes 16 p.toNat) }
/-- A run opened by CAL_OPEN on quad 3. -/
def opened : State := ready.onCal fun c => { c with svc := some 8 }
/-- A probe with ASSIGN that core 0 took into slot 5. -/
def probed : Entry := { newEntry overBough 0x0B01 (leBytes 16 (at' 1 64 + at' 1 48 + at' 7 32 + at' 1 16)) 0 true 0 0 with phase := .taken, slot := some 5 }
/-- The engine while that probe is served. -/
def serving : State := ((roleIs .worker).onFw fun w => { w with lastTake := [(0, 5)] }).onPath .bough fun p => { p with queue := [probed] }

theorem test_service_calls_of_clock_and_memory :
    ready.Calls 3 ∧ (planInSram planReset).Calls 3 ∧ inSram (0x10000000#64).toNat 16 = true ∧ (planInSram planReset).engineState = 4 ∧
      (planInSram planReset).planConflict = none ∧ structAt 128 ((planInSram planReset).sramAt (0x10000000#64).toNat 16) 0 = planReset ∧
      planValid planReset = true ∧ structAt 128 ((planInSram plan10).sramAt (0x10000000#64).toNat 16) 0 = plan10 ∧ (planInSram plan10).Calls 3 ∧
      (planInSram plan10).engineState = 4 ∧ (planInSram plan10).planConflict = none ∧ planKey plan10 ≠ planKey (planInSram plan10).clock.plan ∧
      (planInSram plan10).clock.drive = .main ∧
    (ready.clock.sync = none ∧ ready.clock.slew = none ∧ ready.engineState = 4 ∧ ready.stim.enabled = false ∧ (128#64).toNat % 128 = 0 ∧
      1 ≤ (65535#64).toNat ∧ (65535#64).toNat ≤ 65535 ∧ planInteger ready.clock.plan = true ∧ planSource ready.clock.plan = 1) ∧
    (ready.groups.any Group.live = false ∧ (-50000#64).toInt.natAbs ≤ 50000) ∧
    (ready.mem.clock.queued = none ∧ ready.mem.clock.phase = .idle ∧ ready.mem.clock.rate ≠ (3#64).toNat ∧ ready.mem.clock.rate = (0#64).toNat ∧
      memMoving.Calls 3 ∧ memMoving.mem.clock.queued = none ∧ memMoving.engineState = 4 ∧ memMoving.stim.enabled = false ∧
      memMoving.mem.clock.phase ≠ .idle ∧ memMoving.mem.clock.target ≠ (3#64).toNat) := by
  repeat' apply And.intro
  all_goals first | (with_reducible refine calls_of ?_); decide +kernel | decide +kernel

theorem test_service_calls_of_quads_and_grove :
    ((quadIs 3 .off).Calls 3 ∧ ((quadIs 3 .off).quads.get 3).state.busy = false ∧ ((quadIs 3 .off).quads.get 3).state = .off ∧ (3#64).toNat = (3 : Fin 4).val) ∧
    ((ready.quads.get 3).state.busy = false ∧ (ready.quads.get 3).state ≠ .off ∧ ready.quadInUse 3 (ready.quads.get 3).fusion = false) ∧
    (ready.cal.run = none ∧ ready.cal.svc = none ∧ ready.clock.loop = .locked ∧ planSource ready.clock.plan = 1 ∧ (15#64).toNat ≤ 15) ∧
    (opened.Calls 3 ∧ opened.cal.svc = some 8 ∧ bit 8 (3 : Fin 4).val = true ∧ (opened.advance 1000).outFor 3 < 2400000000 ∧ opened.cal.svc.isSome = true) ∧
    ((roleIs .orphanRoot).Calls 3 ∧ (roleIs .orphanRoot).grove.role = .orphanRoot ∧ (1#64).toNat = ((roleIs .orphanRoot).grove.epoch + 1) % 2 ^ 32) ∧
    ready.grove.role = .manager ∧
    (serving.Calls 0 ∧ serving.serving 0 = some probed ∧ probed.opcode = 0x0B01 ∧ probeAssign probed.payload = true ∧ (0xFFFF#64).toNat < 2 ^ 16) := by
  repeat' apply And.intro
  all_goals first | (with_reducible refine calls_of ?_); decide +kernel | decide +kernel

theorem test_service_calls_of_the_core :
    (10 ≤ (10#64).toNat ∧ (1000#64).toNat ≤ 1000 ∧ (14#64).toNat < 15) ∧
    (let s := initial.onBoard fun b => { b with bootStatus := 0x3E000000 };
      s.Calls 3 ∧ s.board.boot = .init ∧ s.readyOk = true) ∧
    (let s := ready.onFw fun w => { w with restart := some { cause := 0, started := true, since := 0 } };
      s.Calls 3 ∧ s.board.boot = .run ∧ s.fw.restart.any Restart.started = true) ∧
    (inSram (0x10000000#64).toNat (20#64).toNat = true ∧ inSram (0x107FFFF0#64).toNat (16#64).toNat = true ∧ (ready.path .mailbox).queue.length < 256) ∧
    ∃ r ∈ reasonCodes, r.1 ≤ (0x0C09#64).toNat ∧ (0x0C09#64).toNat ≤ r.2 := by
  repeat' apply And.intro
  all_goals first | (with_reducible refine calls_of ?_); decide +kernel | decide +kernel

/-- A SYS_STATUS packet that waits in the mailbox's queue for a TAKE. -/
def waiting : State := ready.onPath .mailbox fun p => { p with queue := [newEntry { host with path := .mailbox } 0x0002 [] 0 true 0 0] }
/-- Sapwood restarts. -/
def restarting (started : Bool) : State := ready.onFw fun w => { w with restart := some { cause := 0, started := started, since := 0 } }

theorem test_firmware_rows :
    (ready.sapwood = true ∧ ready.fw.restart = none ∧
      (([1, 2, 3] : List Nat).findSome? fun k => (ready.takeable (pathAt (ready.fw.turn + k))).map fun e => (pathAt (ready.fw.turn + k), e)) = none) ∧
    (waiting.sapwood = true ∧ waiting.fw.restart = none ∧
      (([1, 2, 3] : List Nat).findSome? fun k =>
        (((((waiting.advance 9).discardStale .pcie).discardStale .bough).discardStale .mailbox).takeable (pathAt (waiting.fw.turn + k))).map fun e =>
          (pathAt (waiting.fw.turn + k), e)) = some (.mailbox, newEntry { host with path := .mailbox } 0x0002 [] 0 true 0 0)) ∧
    (serving.sapwood = true ∧ serving.slotEntry (fld (BitVec.ofNat 64 (at' 5 32)) 32 10) = some (.bough, probed) ∧
      ready.slotEntry (fld (BitVec.ofNat 64 (at' 5 32)) 32 10) = none) ∧
    inSram (0x107FFFA0#64).toNat 96 = true ∧ ((ready.fw.cores.get 3).parked = false ∧
      (ready.fw.cores.get 3).kicked + ready.fw.wdtPeriod * 20000000 ≤ max ready.now 2000000000) ∧
    ((restarting true).fw.restart = some { cause := 0, started := true, since := 0 } ∧ (restarting true).board.boot = .run ∧ (restarting true).sapwood = true ∧
      0 + 20000000000 ≤ max (restarting true).now 20000000000) ∧
    ((restarting false).fw.restart = some { cause := 0, started := false, since := 0 } ∧ (restarting false).board.boot = .run) := by
  decide +kernel

theorem commit_of {s : State} {v : Nat} (h : (s.commitOf v).isSome = true) : ∃ op b c, s.commitOf v = some (op, b, c) := by
  obtain ⟨⟨op, b, c⟩, e⟩ := Option.isSome_iff_exists.mp h
  exact ⟨op, b, c, e⟩

/-- MEM_CONFIG's slot of the aperture, without and with a named command. -/
theorem test_commits :
    (ready.fw.restart = none ∧ bit 0x1880000 53 = false ∧ ∃ op b c, ready.commitOf 0x1880000 = some (op, b, c)) ∧
    (bit (0x1880000 + 2 ^ 53 + 5 * 2 ^ 54) 53 = true ∧ serving.slotEntry (bits (0x1880000 + 2 ^ 53 + 5 * 2 ^ 54) 54 10) = some (.bough, probed) ∧
      ∃ op b c, serving.commitOf (0x1880000 + 2 ^ 53 + 5 * 2 ^ 54) = some (op, b, c)) :=
  ⟨⟨rfl, by decide +kernel, commit_of (by decide +kernel)⟩, by decide +kernel, by decide +kernel, commit_of (by decide +kernel)⟩

theorem test_window_accesses :
    (ready.board.boot ≠ .reset ∧ ready.board.boot ≠ .heartwood) ∧ (ready.ringOn = false ∧ ready.host.bootBusy = false ∧ ready.host.bootHeld = none) ∧
    (0 < 1920 ∧ ((ready.advance 0).value64 (0x1000 + 8 * 0)).isSome = true) ∧ bit (0x8000001F#32).toNat 31 = true ∧ 1028 < 1029 ∧
    (ready.sapwood = true ∧ inSram 0x107FFFF8 8 = true) := by
  decide +kernel

/-- The command ring is on, with the given number of descriptors posted and the given queue. -/
def ringed (posted : Nat) (q : List Entry) : State :=
  (ready.onHost fun k => { k with ring := ringSetupReset ||| 1#256, cmdTail := posted }).onPath .pcie fun p => { p with queue := q }
/-- A command whose reply waits for an input to settle. -/
def heldEntry : Entry := { newEntry host 0x0201 [] 0 false 0 0 with phase := .held (.input 0) 4 }

theorem test_receipts :
    (Path.mailbox ≠ .pcie) ∧
    ((ringed 1 (List.replicate 256 heldEntry)).ringOn = true ∧ 256 ≤ ((ringed 1 (List.replicate 256 heldEntry)).path .pcie).queue.length ∧
      (ringed 1 (List.replicate 256 heldEntry)).host.cmdHead ≠ (ringed 1 (List.replicate 256 heldEntry)).host.cmdTail) ∧
    (((ringed 1 []).path .pcie).queue.length < 256 ∧ descriptorBad (leBytes 32 (at' 20 160 + 0x1000)) = false ∧
      descriptorBad (leBytes 32 (at' 19 160 + 0x1000)) = true) ∧
    (((ringed 0 [heldEntry]).path .pcie).queue[0]? = some heldEntry ∧ ((ringed 0 [heldEntry]).path .pcie).awaits heldEntry = true ∧
      heldEntry.received + 20000000 + 80000000 * heldEntry.notices ≤ max (ringed 0 [heldEntry]).now 20000000 ∧
      (ringed 0 [heldEntry]).ring4.full (ringed 0 [heldEntry]).host.ring = false) ∧
    ((ringed 0 [heldEntry]).onRing4 fun r => { r with tail := 256 }).ring4.full (ringed 0 [heldEntry]).host.ring = true := by
  decide +kernel

/-- A block of 128 zero samples from tick 0. -/
def zeroBlock : Block := { first := 0, words := List.replicate 128 0 }
/-- The link of bank 15 in another state. -/
def linkIs (f : SampleLink → SampleLink) : State := ready.onBank 15 fun b => { b with link := f b.link }

theorem test_link_blocks :
    (LinkData.absent.wf = true ∧ (ready.banks.get 15).link.checking = none ∧ (ready.banks.get 15).link.up = true ∧
      (ready.advance 260).blockFirst (ready.banks.get 15).link.expect + 260 ≤ (ready.advance 260).now ∧
      (ready.advance 1220).now ≤ (ready.advance 1220).blockFirst (ready.banks.get 15).link.expect + 1220 ∧ (ready.banks.get 15).link.awaiting = none ∧
      ((ready.advance 260).received 15 .absent).2 = none ∧ (ready.advance 980).now + 240 ≤ (ready.advance 980).blockFirst 0 + 1220 ∧
      (ready.advance 981).blockFirst 0 + 1220 < (ready.advance 981).now + 240) ∧
    (let s := linkIs fun l => { l with replay := [zeroBlock] };
      (LinkData.replay true).wf = true ∧ (s.banks.get 15).link.checking = none ∧ (s.banks.get 15).link.up = true ∧ (s.banks.get 15).link.awaiting = none ∧
      ((s.advance 260).received 15 (.replay true)).2 = some zeroBlock.words) ∧
    (let s := linkIs fun l => { l with replay := [zeroBlock], checking := some 1023 };
      (s.banks.get 15).link.checking = some 1023 ∧ 1023 < 1024 ∧ ((s.advance 260).received 15 (.replay true)).2.isSome = true ∧
      ((s.advance 260).received 15 .absent).2 = none) ∧
    (LinkData.wire (zeros 263)).wf = false ∧ (LinkData.analog (List.replicate 127 0) true).wf = false := by
  decide +kernel

theorem test_link_events :
    (linkIs fun l => { l with awaiting := some 740 }).banks[15].link.awaiting = some 740 ∧
    ((linkIs fun l => { l with resend := some (0, 610) }).banks[15].link.resend = some (0, 610) ∧ 610 ≤ max ready.now 610) ∧
    ((linkIs fun l => { l with fifo := [zeroBlock] }).banks[15].link.fifo = zeroBlock :: [] ∧ zeroBlock.first + 1240 ≤ max ready.now 1240) ∧
    (let l := (linkIs fun l => { l with faulted := true, retries := 2 }).banks[15].link;
      l.faulted = true ∧ l.abandoned = false ∧ l.checking = none ∧ ready.clock.drive ≠ .stopped ∧ l.retries < 3) ∧
    (let l := (linkIs fun l => { l with faulted := true, retries := 3 }).banks[15].link;
      l.faulted = true ∧ l.abandoned = false ∧ l.checking = none ∧ 3 ≤ l.retries) ∧
    (linkIs fun l => { l with checking := some 1024 }).banks[15].link.checking = some 1024 := by
  decide +kernel

theorem test_quad_events :
    (ready.converts 15 = true ∧ (ready.banks.get 15).spare = some 32 ∧ (ready.banks.get 15).link.up = true ∧
      sliceOk (liveUnits { offset := roundDiv (65536 * 16384 * 4) 4, gain := 0, skew := 0 }) = true ∧
      sliceOk (liveUnits { offset := roundDiv (65536 * 16385 * 4) 4, gain := 0, skew := 0 }) = false) ∧
    (((quadIs 3 .powering).quads.get 3).state = .powering ∧ ((quadIs 3 .powering).quads.get 3).since + 40000000 ≤ max 0 40000000) ∧
    (((quadIs 3 .training).quads.get 3).state = .training ∧ ((quadIs 3 .training).quads.get 3).since + 400000 ≤ max 0 400000) ∧
    (((quadIs 3 .converging).quads.get 3).state = .converging ∧ ((quadIs 3 .converging).quads.get 3).since + 1320000000 ≤ max 0 1320000000) ∧
    (((quadIs 3 .retiming).quads.get 3).state = .retiming ∧ ((quadIs 3 .retiming).quads.get 3).since ≤ max 0 0) := by
  decide +kernel

/-- Output 3 as given. -/
def outIs (f : Trigout → Trigout) : State := ready.onOut 3 f

theorem test_trigger_events :
    (5 ≤ max ready.now 5 ∧ ready.board.trigin.getD 3 (false, none, none) = (false, none, none) ∧ false ≠ true) ∧
    (let s := ready.onBoard fun b => { b with trigin := b.trigin.set 3 (true, none, some (5 * 2 ^ 32)) };
      s.board.trigin.getD 3 (false, none, none) = (true, none, some (5 * 2 ^ 32)) ∧ true ≠ false) ∧
    (let s := ready.onBoard fun b => { b with trigin := b.trigin.set 3 (false, none, some (5 * 2 ^ 32)) };
      s.board.trigin.getD 3 (false, none, none) = (false, none, some (5 * 2 ^ 32)) ∧ 44 * 2 ^ 32 < 5 * 2 ^ 32 + 40 * 2 ^ 32 ∧
      5 * 2 ^ 32 + 40 * 2 ^ 32 ≤ 45 * 2 ^ 32) ∧
    (let s := ready.onUnit 7 fun u => { u with atTick := some 1000 };
      (s.units.get 7).atTick = some 1000 ∧ 1000 + 1280 ≤ max s.now 2280) ∧
    (let s := outIs fun o => { o with starts := [200, 100] };
      100 ∈ (s.trigouts.get 3).starts ∧ (∀ y ∈ (s.trigouts.get 3).starts, 100 ≤ y) ∧ 100 ≤ max s.now 100) ∧
    (let s := outIs fun o => { o with high := true, endAt := 150, starts := [200] };
      (s.trigouts.get 3).high = true ∧ (s.trigouts.get 3).endAt ≤ max s.now 150 ∧ outSource (s.trigouts.get 3).cfg ≠ 3 ∧
      ∀ y ∈ (s.trigouts.get 3).starts, (s.trigouts.get 3).endAt < y) ∧
    (let s := outIs fun o => { o with levels := [(100, true)] };
      (s.trigouts.get 3).levels = (100, true) :: [] ∧ 100 ≤ max s.now 100) := by
  decide +kernel

/-- A record of group 0 of 100 samples from index 100 on, with the blocks already written and its end as given. -/
def record (written places : List Nat) (stop : Option Nat) : Record where
  seq := 0
  segment := 0
  tick := 100
  fraction := 0
  eventTick := 100
  delay := 0
  mask := 1
  units := []
  time := 100 * 2 ^ 32
  channels := 1
  f := 1
  decim := decReset
  trig := 100
  first := 100
  stop := stop
  flags := 0
  epoch := 0
  setId := 1
  acceptedAt := 1400
  grove := false
  written := written
  places := places
  after := 0

/-- Group 0 while that record fills. -/
def filling (acc : BitVec 256) (r : Record) (f : Group → Group) : State :=
  ((groupSet 4 acc .filling).onGroup 0 fun g => f { g with records := [r], postEnd := some 200, rearm := some 300, f := 1, nextSeq := 1 }).onAcc 0 fun a =>
    { a with placed := .store, blocks := 1, block := 0 }

/-- After time has moved on to a tick and the events up to it are decided. -/
def decided (s : State) (t : Nat) : State := (s.advance t).decideTo (s.advance t).now

theorem test_fill_and_holdoff :
    (let x := (decided (filling 0 (record [] [] (some 200)) id) 5000).groups.get 0;
      x.state = .filling ∧ x.ending = none ∧ x.postEnd = some 200 ∧ 200 ≤ atCapture x.f 5000) ∧
    (let x := (decided (filling 0 (record [] [] (some 200)) fun g => { g with state := .holdoff }) 5000).groups.get 0;
      x.state = .holdoff ∧ x.ending = none ∧ x.rearm = some 300 ∧ 300 ≤ atCapture x.f 5000) := by
  decide +kernel

theorem test_record_blocks :
    (let s := filling 0 (record [] [] (some 200)) id;
      (s.groups.get 0).current = some (record [] [] (some 200)) ∧ (s.groups.get 0).streaming = false ∧ (record [] [] (some 200)).nextBlock 200 = some 0 ∧
      (record [] [] (some 200)).needs 200 0 ≤ atCapture 1 (s.advance 5000).now) ∧
    (let r := record [] [0] none;
      let s := filling 0 r fun g => { g with cap := BitVec.ofNat 384 (at' 0x100000 304 + at' (2 ^ 48 - 1) 192 + at' 256 128 + at' 1 103 + at' 1 48 + at' 4 44 + at' 1 42) };
      (s.groups.get 0).current = some r ∧ (s.groups.get 0).streaming = true ∧ (s.groups.get 0).streamFree ≠ 0 ∧ 0 < r.count (2 ^ 80) ∧
      r.upTo (2 ^ 80) 1022 ≤ atCapture 1 (s.advance 5000).now) ∧
    (let r := record [] [0] none;
      let s := filling 0 r fun g => { g with cap := BitVec.ofNat 384 (at' (2 ^ 48 - 1) 192 + at' 256 128 + at' 1 103 + at' 1 48 + at' 4 44 + at' 1 42) };
      (s.groups.get 0).current = some r ∧ (s.groups.get 0).streaming = true ∧ (s.groups.get 0).streamFree = 0) := by
  decide +kernel

theorem test_record_completes :
    (let w := decided (filling 0 (record [0] [] (some 200)) id) 5000;
      (w.groups.get 0).current = some (record [0] [] (some 200)) ∧ 200 ≤ atCapture 1 w.now ∧ (record [0] [] (some 200)).allWritten false 200 = true ∧
      (w.accs.get 0).committed (record [0] [] (some 200)) (w.finalFlags (record [0] [] (some 200)) 200) = true) ∧
    (let w := decided (filling averaging (record [0] [] (some 200)) id) 5000;
      (w.groups.get 0).current = some (record [0] [] (some 200)) ∧ (w.accs.get 0).active = true ∧ (w.accs.get 0).stopped = false ∧
      (w.accs.get 0).nextSeq = 0 ∧ (w.accs.get 0).excludes (w.finalFlags (record [0] [] (some 200)) 200) = false) ∧
    (let k : Snap := { slot := 0, header := zeros 2044, sections := [], lastSeq := 0, poisoned := [], begun := 0 };
      let s := (filling averaging (record [0] [] (some 200)) id).onAcc 0 fun a => { a with snaps := [k] };
      (s.accs.get 0).snaps = k :: [] ∧ leAt k.header 24 4 = 0) := by
  decide +kernel

/-- The memory clock in a phase begun at tick 0. -/
def memIs (f : MemClock → MemClock) : State := ready.onMem fun m => { m with clock := f m.clock }

theorem test_memory_requests :
    (ready.memRuns = true ∧ ready.memBytes ≤ 32 * 0xC0000000 ∧ 32 * 0xBFFFFFFF < ready.memBytes ∧ (zeros 31).length ≠ 32) ∧
    (let s := ready.onMem fun m => m.onPort 16 fun p => { p with reads := [3] };
      (s.mem.ports.get 16).reads = 3 :: []) := by
  decide +kernel

theorem test_memory_write_operand : ∀ d mask, MemAccess.write (zeros 32) 1#32 = .write d mask → d.length = 32 := by
  intro d mask h
  cases h
  decide

theorem test_refresh_and_temperature :
    (ready.memRuns = true ∧ (ready.mem.pcs.get 127).nextDue ≤ max ready.now 1200) ∧
    (ready.board.boot ≠ .reset ∧ (850 : Int) < 1050 ∧ (ready.mem.hbm.get 3).hot = false) ∧
    (let s := ready.onMem fun m => m.onStack 3 fun c => { c with hot := true };
      (s.mem.hbm.get 3).hot = true ∧ (819 : Int) < 820) ∧
    (ready.onBoard fun b => { b with thermWatch := false }).board.thermWatch = false ∧
    (let n : Neighbour := { bank := 1, row := 2, scheduled := 0 };
      let s := ready.onMem fun m => m.onPc 127 fun p => { p with neighbours := [n] };
      s.memRuns = true ∧ s.mem.forcedNeighbour (s.mem.pcs.get 127) (max s.now 10000) = some n) := by
  decide +kernel

theorem test_stripes_and_training :
    ((4 : Fin 5).val = 4 ∧ (3 : Fin 4).val = (3 : Fin 5).val ∧
      ((groupSet 5 0 .configured).onGroup 3 fun g => { g with armWait := some { path := .pcie, reinit := true } }).board.boot = .run ∧
      (((groupSet 5 0 .configured).onGroup 3 fun g => { g with armWait := some { path := .pcie, reinit := true } }).groups.get 3).armWait.isSome = true) ∧
    (let s := (seqRuns StimCh.reset).onStim fun q => { q with cfg := BitVec.ofNat 128 (at' 0x10000 48 + at' 5 44 + at' 32 30 + at' 32 16 + at' 3 4 + 1) };
      s.stim.enabled = true ∧ s.seqRegrains ≠ []) ∧
    ((memIs fun k => { k with phase := .relock }).mem.clock.phase = .relock ∧ 0 + 20 * us ≤ max 0 400000) ∧
    (let s := memIs fun k => { k with phase := .training 3, target := 3, rate := 3 };
      s.mem.clock.phase = .training 3 ∧ s.mem.clock.queued = none ∧ s.mem.clock.since + passTicks s.mem.clock.rate 3 ≤ max s.now 2400000000) ∧
    (let s := memIs fun k => { k with phase := .training 1, queued := some (2, 7) };
      s.mem.clock.phase = .training 1 ∧ s.mem.clock.queued = some (2, 7) ∧ s.mem.clock.since + passTicks s.mem.clock.rate 1 ≤ max s.now 2000000000) ∧
    (let s := initial.onMem fun m => { m with initRunning := true };
      s.mem.initRunning = true ∧ s.board.boot = .init ∧ s.mem.clock.phase = .idle) ∧
    (Bar2Op.read 0).wf 0 = false ∧ (Bar2Op.read 4).wf (2 ^ 28 - 4) = true ∧ (Bar2Op.write [0]).wf (2 ^ 28) = false := by
  decide +kernel

/-- A FETCH descriptor of segment 0, and a BUFFER descriptor, of one block at an aligned address. -/
def descWord (kind : Nat) : Bytes := leBytes 32 (at' kind 96 + at' 2048 64 + 0x100000)
/-- A record that waits under HOLD. -/
def heldItem : Item where
  kind := .record
  seq := 0
  time := 0
  index := 0
  blocks := 1
  body := zeros 64
  tableAt := 0
  dataAt := 0
  opening := 0
  closing := 0
  afterEvent := 0
  waitsSlew := false
  locked := false
  ready := none
/-- The rings of group 3 on, with one descriptor posted, under FOLLOW or HOLD. -/
def ringIs (follow : Nat) (f : Ring → Ring) : State :=
  ready.onRing 3 fun r => f { r with cfg := ringCfgReset ||| BitVec.ofNat 256 (4 + follow), descTail := 1 }
/-- A stream buffer with one block in it. -/
def streamDesc : Desc where
  use := .stream
  count := 0
  addr := 0x100000
  room := 4
  filled := 1
  irqNow := false
  target := 0
  firstBlock := 0
  header := []
  blocks := 0
  firstBad := 0
  badCount := 0
/-- A completion of a kind. -/
def plainCpl (k : CplType) : Completion where
  kind := k
  status := 0
  bad := false
  noData := false
  descFirst := 0
  descCount := 0
  dataBlocks := 0
  firstBad := 0
  badCount := 0
  body := zeros 96
  irqNow := false
  afterEvent := 0
/-- An event. -/
def plainEvent : Event where
  code := 0x0181
  severity := 2
  remote := false
  coalesced := false
  devaddr := 0
  repeated := 0
  tick := 0
  seq := 1
  reason := 0
  obj := 0
  ticket := 0
  vals := []

theorem test_descriptors :
    (let r := (ringIs 1 fun r => { r with items := [heldItem] }).rings.get 3;
      r.on = true ∧ r.descHead ≠ r.descTail ∧ r.desc = none ∧ r.cpl.full r.cfg = false ∧ ready.memBusy = false ∧ (descWord 1).length = 32 ∧
      (descOf (descWord 0)).invalid r.follows = true ∧ (descOf (descWord 1)).invalid r.follows = false ∧ (descOf (descWord 1)).kind = 1 ∧ r.nextItem ≠ none ∧
      (descOf (descWord 2)).invalid r.follows = false ∧ (descOf (descWord 2)).kind ≠ 1) ∧
    (zeros 31).length ≠ 32 ∧ (zeros 2047).length ≠ 2048 := by
  decide +kernel

theorem test_block_reads :
    (let d : Desc := { streamDesc with use := .fetchRecord };
      let s := ringIs 0 fun r => { r with desc := some d };
      (s.rings.get 3).desc = some d ∧ (s.nextRead 3 d).isSome = true ∧ s.memBusy = false ∧ s.mem.bad ((s.nextRead 3 d).getD 0) 2048 = false ∧
        (s.rings.get 3).rereads < 3) ∧
    (let d : Desc := { streamDesc with use := .fetchRecord };
      let s := ringIs 0 fun r => { r with desc := some d, rereads := 3 };
      3 ≤ (s.rings.get 3).rereads) ∧
    (let d : Desc := { streamDesc with use := .fetchRecord };
      let s := (ringIs 0 fun r => { r with desc := some d }).onMem fun m => { m with poison := List.range 65536 };
      (s.nextRead 3 d).isSome = true ∧ s.mem.bad ((s.nextRead 3 d).getD 0) 2048 = true ∧ (s.rings.get 3).rereads < 3) := by
  decide +kernel

/-- CRC-32C of 2,044 zero bytes, which initialisation writes (R19, R170), computed by the bit steps of R19. -/
theorem test_init_crc : crc32c (zeros 2044) = initCrc := by
  rw [crc32c, crcRun_eq]
  decide +kernel

theorem test_good_block : (withCrc (zeros 2044)).length = 2048 ∧ crcOk (withCrc (zeros 2044)) = true :=
  ⟨by rw [withCrc_length, zeros, List.length_replicate], crcOk_withCrc _⟩

theorem test_posting :
    (let s := ringIs 0 fun r => { r with items := [heldItem] };
      (s.rings.get 3).on = true ∧ s.events.pending = [] ∧ (s.rings.get 3).items.head? = some heldItem ∧ heldItem.afterEvent ≤ s.events.written ∧
        heldItem.waitsSlew = false ∧ (s.itemReady 3 heldItem).isSome = true) ∧
    (let s := ringIs 0 fun r => { r with cpl := { r.cpl with waiting := [plainCpl .stream, plainCpl .fetch] } };
      (s.rings.get 3).on = true ∧ ((s.rings.get 3).cpl.waiting.find? fun c => c.kind = .stream) = some (plainCpl .stream) ∧
        ((s.rings.get 3).cpl.waiting.find? fun c => c.kind = .fetch || c.kind = .descError) = some (plainCpl .fetch)) ∧
    (let s := ((ringed 0 []).onEvents fun e => { e with queue := [plainEvent] }).onRing4 fun r => { r with waiting := [plainCpl .reply] };
      s.ringOn = true ∧ s.events.queue = plainEvent :: [] ∧ s.events.pending = [] ∧ s.ring4.waiting.head? = some (plainCpl .reply) ∧
        (plainCpl .reply).afterEvent ≤ s.events.written) := by
  decide +kernel

theorem test_flush_and_interrupts :
    (let s := ringIs 1 fun r => { r with desc := some streamDesc };
      (s.rings.get 3).desc = some streamDesc ∧ streamDesc.use = .stream ∧ 0 < streamDesc.filled ∧ (s.groups.get 3).streamWaits = false ∧
        (s.rings.get 3).lastBlock + flushTimer (s.rings.get 3).cfg * us ≤ max s.now 2000000) ∧
    (let s := ringIs 1 fun r => { r with cfg := r.cfg ||| BitVec.ofNat 256 (at' 10 64), cpl := { r.cpl with unsignalled := 1 } };
      (s.rings.get 3).on = true ∧ (s.rings.get 3).cpl.timerDue (s.rings.get 3).cfg (max s.now 200000) = true) ∧
    (let s := ((ringed 0 []).onHost fun k => { k with ring := k.ring ||| BitVec.ofNat 256 (at' 10 64) }).onRing4 fun r => { r with unsignalled := 1 };
      s.ringOn = true ∧ s.ring4.timerDue s.host.ring (max s.now 200000) = true) := by
  decide +kernel

theorem test_monitor_events :
    (ready.board.pwrOk = true ∧ ready.mon.rotation < 10 ∧ ready.mon.settled = false) ∧
    (let s := ready.onMon fun m => { m with rotation := 5, hot := m.hot.set 5 true };
      s.board.pwrOk = true ∧ s.mon.rotation < 6 ∧ 2540 ≤ (2540#12).toNat ∧ s.mon.hot.getD 5 false = true ∧ s.board.thermWatch = true) ∧
    (let s := ready.onMon fun m => { m with windows := vmod m.windows 7 fun w => { w with cfg := w.cfg ||| 1 } };
      s.board.pwrOk = true ∧ (7 : Fin 16).val = (7 : Fin 8).val ∧ winOn (s.mon.windows.get 7).cfg = true) ∧
    ((15 : Fin 16).val ≠ 8 ∧ (∀ n : Fin 8, (15 : Fin 16).val = n.val → winOn (ready.mon.windows.get n).cfg = false) ∧ ready.mon.nextReq = none) ∧
    (let s := ready.onMon fun m => { m with reqs := vmod m.reqs 2 fun r => { r with pending := some 9 } };
      s.board.pwrOk = true ∧ s.mon.nextReq = some 2 ∧ (s.mon.reqs.get 2).pending = some 9) := by
  decide +kernel

/-- A run of quad 0, ticket 5, in a phase begun at tick 0. -/
def runOf (p : CalPhase) (proceed : Bool) (outcome : Nat) : CalRun where
  mask := 1
  proceed := proceed
  ticket := 5
  drain := none
  cur := some (0, p, 0)
  outcomes := [outcome, 0xFFFF, 0xFFFF, 0xFFFF]
  points := []
  aborted := false
  ended := none
  leaky := 0
/-- The engine in that run. -/
def runIn (r : CalRun) : State := ready.onCal fun c => { c with run := some r }
/-- A point with no bank VALID, and one whose first gain is VALID and zero. -/
def point (valid : Nat) : Bytes := zeros 64 ++ (List.range 4).flatMap fun _ => zeros 48 ++ leBytes 4 valid ++ zeros 716

theorem test_drain :
    (let r : CalRun := { runOf .leakage false 0xFFFF with cur := none, drain := some 0 };
      (runIn r).cal.run = some r ∧ r.drain = some 0 ∧ r.ended = none ∧ (runIn r).draining r.mask = false) ∧
    (let r : CalRun := { runOf .leakage false 0xFFFF with cur := none, drain := some 0 };
      let s := (filling 0 (record [] [] none) fun g => { g with closed := 1 }).onCal fun c => { c with run := some r };
      s.cal.run = some r ∧ s.draining r.mask = true ∧ 0 + 100 * ms ≤ max s.now 2000000000) := by
  decide +kernel

theorem test_run_phases :
    ((runIn (runOf .leakage false 0xFFFF)).cal.run = some (runOf .leakage false 0xFFFF) ∧ (runOf .leakage false 0xFFFF).cur = some ((0 : Fin 4).val, .leakage, 0) ∧
      0 + ms ≤ max ready.now 20000000 ∧ [19531250000001, 0, 0, 0].length = 4 ∧
      ((ofQuad 0).zipIdx.any fun (i, j) => feeds (ready.quads.get 0).fusion i ≠ [] && 19531250000000 < [19531250000001, 0, 0, 0].getD j 0) = true ∧
      ((ofQuad 0).zipIdx.any fun (i, j) => feeds (ready.quads.get 0).fusion i ≠ [] && 19531250000000 < [19531250000000, 0, 0, 0].getD j 0) = false) ∧
    (runOf .leakage true 0xFFFF).proceed = true ∧
    ((runOf .isolating false 0xFFFF).cur = some ((0 : Fin 4).val, .isolating, 0) ∧ 0 + (ms + ms / 2) ≤ max ready.now 30000000) ∧
    ((runOf .sourcing false 0xFFFF).cur = some ((0 : Fin 4).val, .sourcing, 0) ∧ 0 + 2 * ms ≤ max ready.now 40000000) ∧
    (let s := (runIn (runOf .runA false 0xFFFF)).onCal fun c => { c with cfg := BitVec.ofNat 64 (at' 500000 32) ||| calCfgReset };
      s.cal.run = some (runOf .runA false 0xFFFF) ∧ (runOf .runA false 0xFFFF).cur = some ((0 : Fin 4).val, .runA, 0) ∧ 0 + 59 * ms ≤ max s.now 1180000000 ∧
      calDc s.cal.cfg ≠ 0 ∧ 1000 * calDc s.cal.cfg < 50 * ((525000001 : Int) - (1000 * calDc s.cal.cfg : Nat)).natAbs ∧
      ¬ 1000 * calDc s.cal.cfg < 50 * ((510000000 : Int) - (1000 * calDc s.cal.cfg : Nat)).natAbs) ∧
    ((runOf .runB false 0xFFFF).cur = some ((0 : Fin 4).val, .runB, 0) ∧ 0 + 116 * ms ≤ max ready.now 2320000000) ∧
    ((runOf .compare false 0x0806).cur = some ((0 : Fin 4).val, .compare, 0) ∧ 0 + 118 * ms ≤ max ready.now 2360000000 ∧
      (runOf .compare false 0x0806).outcomes.getD (0 : Fin 4).val 0xFFFF ≠ 0xFFFF ∧ (runOf .compare false 0xFFFF).outcomes.getD (0 : Fin 4).val 0xFFFF = 0xFFFF) ∧
    ((runOf .restore false 0xFFFF).cur = some ((0 : Fin 4).val, .restore, 0) ∧ 0 + 120 * ms ≤ max ready.now 2400000000) ∧
    (runOf .stopping false 0x0804).cur = some ((0 : Fin 4).val, .stopping, 0) ∧
    (let s := (runIn (runOf .stopHeld false 0x0804)).onQuad 0 fun q => { q with held := some (0, some 64) };
      s.cal.run = some (runOf .stopHeld false 0x0804) ∧ (runOf .stopHeld false 0x0804).cur = some ((0 : Fin 4).val, .stopHeld, 0) ∧
        ((s.quads.get 0).held.all fun (_, e) => e.any (· ≤ max s.now 64)) = true) ∧
    (let r : CalRun := { runOf .restore false 0 with cur := none, ended := some 100 };
      (runIn r).cal.run = some r ∧ r.ended = some 100) := by
  repeat' apply And.intro
  all_goals decide +kernel

theorem test_points :
    (point 0).length = pointBytes ∧ (point 1).length = pointBytes ∧ pointOk (point 0) = true ∧ pointOk (point 1) = false ∧ (zeros 3135).length ≠ pointBytes ∧
      [0, 0, 0].length ≠ 4 := by
  have l : ∀ v, (point v).length = pointBytes := fun v => by
    simp only [point, zeros, List.length_append, List.length_replicate, List.length_flatMap, leBytes_length]
    rfl
  exact ⟨l 0, l 1, by decide +kernel, by decide +kernel, by rw [zeros, List.length_replicate]; decide, by decide⟩

theorem test_changeovers :
    (let w := decided (ready.onCal fun c => { c with pending := some (zeros 64) }) 64;
      w.atBeat = true ∧ w.setReady = true) ∧
    (let w := decided (ready.onQuad 3 fun q => { q with bgPending := true }) 64;
      w.atBeat = true ∧ w.setReady = false ∧ w.bgReady 3 = true) ∧
    (let w := decided (ready.onGroup 3 fun g => { g with reopen := some 100 }) 5000;
      (w.groups.get 3).reopen = some 100 ∧ 100 ≤ atCapture (w.groups.get 3).f w.now) ∧
    (let s := (ready.onQuad 3 fun q => { q with bgPending := true }).onCal fun c => { c with cfg := c.cfg ||| 0x100#64 };
      bgGathers s.cal.cfg = true ∧ (s.quads.get 3).bgPending = true ∧ s.runHolds 3 = false ∧
        (s.quads.get 3).lastChangeover + bgPeriod s.cal.cfg * ms ≤ max s.now 20000000000) ∧
    (ready.quads.get 3).control = true ∧
    (let s := ready.onQuad 3 fun q => { q with switch := .source };
      (s.quads.get 3).switch ≠ .connect ∧ 125 * ms ≤ (s.quads.get 3).outTicks + (max s.now 2500000000 - (s.quads.get 3).outSince)) ∧
    (let s := ready.onQuad 3 fun q => { q with held := some (0, some 64) };
      (s.quads.get 3).held = some (0, some 64) ∧ 64 + 64 ≤ max s.now 128) := by
  decide +kernel

/-- A channel that waits to start at instant 600 with step 0, judged at tick 500. -/
def waitingCh : StimCh := { StimCh.reset with state := .waiting, startAt := 600, startStep := 0, judgeAt := 500 }
/-- A channel that plays 100 updates from instant 0. -/
def shortCh : StimCh := { StimCh.reset with state := .playing, updates := 100 }
/-- A decision that ends the program, or goes on with step 0. -/
def decision (ends : Bool) : Decision :=
  { seq := 1, at_ := 3200, upd := 100, ends := ends, stopped := false, jump := false, step := 0, iter := 0, seg := 0, ready := true }

theorem test_stimulus_start_and_boundaries :
    (((seqRuns waitingCh).stim.chs.get 0).state = .waiting ∧ ((seqRuns waitingCh).advance 1000).reached waitingCh.startAt = true ∧ waitingCh.decided = [] ∧
      waitingCh.judgeAt ≤ ((seqRuns waitingCh).advance 500).grove64) ∧
    (((seqRuns shortCh).stim.chs.get 0).state = .playing ∧ shortCh.tail.ends = false ∧
      ((seqRuns shortCh).advance 1920).reached (shortCh.tail.nextDp (seqPeriod (seqRuns shortCh).stim.cfg 0)) = true) ∧
    (let k : StimCh := { shortCh with decided := [decision true] };
      ((seqRuns k).advance 5334).reached (k.begun + k.updates * seqPeriod (seqRuns k).stim.cfg 0) = true ∧ k.decided ≠ [] ∧
        (((seqRuns k).advance 5334).stim.chs.get 0).decided = decision true :: [] ∧ (decision true).ends = true) ∧
    (let k : StimCh := { shortCh with decided := [decision false] };
      ((seqRuns k).advance 5334).reached (k.begun + k.updates * seqPeriod (seqRuns k).stim.cfg 0) = true ∧
        (((seqRuns k).advance 5334).stim.chs.get 0).decided = decision false :: [] ∧ (decision false).ends = false) := by
  decide +kernel

theorem test_stimulus_entries :
    (((seqRuns shortCh).stim.chs.get 0).state = .playing ∧ shortCh.underrun = false ∧ shortCh.entry < segEntries ((seqRuns shortCh).stim.seg shortCh.seg) ∧
      ((seqRuns shortCh).advance 0).reached shortCh.entryAt = true ∧ segKind ((seqRuns shortCh).stim.seg 0) ≠ 2) ∧
    (let k : StimCh := { shortCh with seg := 1 };
      segKind ((seqRuns k).stim.seg k.seg) = 2 ∧ k.entry < segEntries ((seqRuns k).stim.seg k.seg) ∧
        (seqRuns k).mem.bad ((seqRuns k).stim.entryAddr ((seqRuns k).stim.seg 1) 0) 16 = false) ∧
    (let k : StimCh := { shortCh with stopRamp := some (60, 0) };
      k.stopRamp = some (60, 0) ∧ k.ramping = false ∧ ((seqRuns k).advance 100).reached 60 = true) ∧
    (let k : StimCh := { shortCh with stopRamp := some (60, 9), ramping := true };
      ((seqRuns k).advance 3514).reached (60 + 64 * seqPeriod (seqRuns k).stim.cfg 0) = true) ∧
    (let k : StimCh := { shortCh with muteRamp := some (60, 9) };
      k.muteRamp = some (60, 9) ∧ ((seqRuns k).advance 3514).reached (60 + 64 * seqPeriod (seqRuns k).stim.cfg 0) = true) := by
  decide +kernel

/-- A read-back of a STREAM segment of one entry of 64 updates, by its CRC. -/
def readingBack (crc : Nat) : State := (seqSet.onStim fun q => { q with
  segs := [(1, BitVec.ofNat 128 (at' 64 44 + at' 1 23 + at' 2 1))], readback := [(1, crc)] }).onMem fun m => { m with
    cells := putCells m.cells 0 (leBytes 16 (at' 63 8)) }

theorem test_read_back :
    (let s := readingBack 7;
      s.stim.readback = (1, 7) :: [] ∧ segKind (s.stim.seg 1) = 2 ∧ segUpdates (s.stim.seg 1) = 64 ∧ s.stim.entryAddr (s.stim.seg 1) 0 = 0 ∧
        16 * segEntries (s.stim.seg 1) = 16 ∧ ((s.advance 5).fwpRead 0 16).2 = leBytes 16 (at' 63 8) ∧
        ((List.range 1).map fun e => bits (leAt ((s.advance 5).fwpRead 0 16).2 (16 * e) 16) 8 24 + 1).foldl (· + ·) 0 = segUpdates (s.stim.seg 1)) ∧
    crc32c (leBytes 16 (at' 63 8)) ≠ 7 := by
  refine ⟨by decide +kernel, ?_⟩
  rw [crc32c, crcRun_eq]
  decide +kernel

/-- The engine as a worker with a bough port as given. -/
def portIs (p : Fin 5) (r : Role) (f : BoughPort → BoughPort) : State := (ready.onGrove fun g => { g with role := r }).onPort p f
/-- A block in a replay buffer, re-sent n times. -/
def outBlock (n : Nat) : OutBlock := { btype := 1, bseq := 0, payload := [], resends := n, msg := 0, age := 0, since := 0, dropped := false }
/-- An empty block (BTYPE 6), with NAK or without. -/
def emptyBlock (nak : Nat) : Bytes := withCrc ([6, BitVec.ofNat 8 nak] ++ zeros 1018)

theorem test_port_events :
    ready.boughOn = true ∧
    ((portIs 4 .worker fun b => { b with link := .up }).port 4).link = .up ∧ (ready.port 4).link ≠ .up ∧ (ready.port 4).link ≠ .retraining ∧
    (ready.port 4).lanes ||| 2 ^ (3 : Fin 4).val ≠ 15 ∧
    ((portIs 4 .worker fun b => { b with lanes := 7 }).port 4).lanes ||| 2 ^ (3 : Fin 4).val = 15 ∧
    ((portIs 4 .worker fun b => { b with link := .retraining }).port 4).link = .retraining ∧
    ((portIs 4 .worker fun b => { b with link := .up }).port 4).sends = true ∧
    (let b := (portIs 4 .worker fun b => { b with link := .up, replay := [outBlock 7] }).port 4;
      b.sends = true ∧ b.ackAt + 400000 ≤ max 0 400000 ∧ b.replay ≠ [] ∧ ∀ x ∈ b.replay, x.resends < 8) ∧
    (let b := (portIs 4 .worker fun b => { b with link := .up, replay := [outBlock 8] }).port 4;
      b.replay ≠ [] ∧ ∀ x ∈ b.replay, 8 ≤ x.resends) ∧
    (let s := portIs 0 .worker fun b => { b with downSince := some 0 };
      (s.port 0).downSince = some 0 ∧ 0 + ms ≤ max s.now 20000000 ∧ s.grove.role = .worker) ∧
    (portIs 0 .sapling fun b => { b with downSince := some 0 }).grove.role = .sapling := by
  decide +kernel

theorem test_empty_blocks : ∀ nak, (emptyBlock nak).length = 1024 ∧ crcOk (emptyBlock nak) = true := fun nak =>
  ⟨by rw [emptyBlock, withCrc_length, List.length_append, zeros, List.length_replicate]; rfl, crcOk_withCrc _⟩

theorem test_empty_block_fields : bit (leAt (emptyBlock 0) 1 1) 0 = false ∧ bit (leAt (emptyBlock 1) 1 1) 0 = true := by decide +kernel

/-- A message of a kind that arrived on a port. -/
def message (kind target path hops age : Nat) : Msg := { rkind := kind, hops := hops, target := target, path := path, age := age, packet := zeros 32, since := 0 }
/-- The engine in a role with DEVADDR 7 when it has arrived on port 1. -/
def arrived (r : Role) (m : Msg) : State :=
  ((ready.onGrove fun g => { g with role := r, devaddr := 7, routes := [(9, 2)] })).onPort 1 fun b => { b with arrived := [.msg m 1], link := .up }

theorem test_messages :
    (arrived .worker (message 1 7 0 0 0)).boughOn = true ∧
    ((arrived .worker (message 1 7 0 0 0)).port 1).arrived = .msg (message 1 7 0 0 0) 1 :: [] ∧
    100000 ≤ (message 1 7 0 0 99999).age + ceilDiv (max 0 2000 - 0) 2000 ∧ ¬ 100000 ≤ (message 1 7 0 0 99999).age + ceilDiv (max 0 0 - 0) 2000 ∧
    (arrived .sapling (message 1 7 0 0 0)).grove.role = .sapling ∧ (arrived .orphanRoot (message 1 7 0 0 0)).grove.role.orphan = true ∧
    (arrived .worker (message 1 7 0 0 0)).grove.devaddr = 7 ∧ (arrived .worker (message 1 9 0 0 0)).grove.route 9 = some 2 ∧
    (arrived .worker (message 1 8 0 0 0)).grove.route 8 = none ∧ ((arrived .worker (message 1 7 0 0 0)).path .bough).queue.length < 256 ∧
    256 ≤ (((arrived .worker (message 1 7 0 0 0)).onPath .bough fun p => { p with queue := List.replicate 256 heldEntry }).path .bough).queue.length ∧
    (arrived .worker (message 3 0xFFFF 0 0 0)).member 0xFFFF = true ∧ (arrived .worker (message 3 0xFF01 0 0 0)).member 0xFF01 = false ∧
    (message 4 0 (at' 1 16 + 1) 1 0).hops = pathDepth (at' 1 16 + 1) ∧ (message 4 0 (at' 2 16 + 1) 1 0).hops ≠ pathDepth (at' 2 16 + 1) ∧
    (arrived .manager (message 2 0 0 0 0)).grove.role = .manager := by
  decide +kernel

/-- A link message of a kind from a partner in a role. -/
def linkMsgOf (kind role epoch : Nat) : LinkMsg := { kind := kind, role := role, devaddr := 3, epoch := epoch, manager := 0, clockValid := true, hasManager := true }
/-- The engine in a role, epoch 5, when it has arrived on a port. -/
def heardLink (p : Fin 5) (r : Role) (l : LinkMsg) : State :=
  (ready.onGrove fun g => { g with role := r, epoch := 5 }).onPort p fun b => { b with arrived := [.link l] }

theorem test_link_messages :
    (heardLink 1 .worker (linkMsgOf 1 1 5)).boughOn = true ∧ ((heardLink 1 .worker (linkMsgOf 1 1 5)).port 1).arrived = .link (linkMsgOf 1 1 5) :: [] ∧
    ((linkMsgOf 1 1 5).role = 1 ∧ (linkMsgOf 1 1 5).epoch = (heardLink 1 .worker (linkMsgOf 1 1 5)).grove.epoch ∧
      (linkMsgOf 1 1 5).manager = (heardLink 1 .worker (linkMsgOf 1 1 5)).grove.manager) ∧
    (let l := linkMsgOf 1 0 6;
      let g := (heardLink 1 .worker l).grove;
      ¬ (l.role = 2 ∨ l.role = 4 ∨ l.role = 1 ∧ l.epoch = g.epoch ∧ l.manager = g.manager) ∧ g.epoch < l.epoch) ∧
    (let l := linkMsgOf 1 0 5;
      let g := (heardLink 1 .worker l).grove;
      ¬ (l.role = 2 ∨ l.role = 4 ∨ l.role = 1 ∧ l.epoch = g.epoch ∧ l.manager = g.manager) ∧ l.epoch ≤ g.epoch ∧ l.role = 0) ∧
    (let l := linkMsgOf 1 3 5;
      let g := (heardLink 1 .worker l).grove;
      ¬ (l.role = 2 ∨ l.role = 4 ∨ l.role = 1 ∧ l.epoch = g.epoch ∧ l.manager = g.manager) ∧ l.role ≠ 0) ∧
    (heardLink 1 .sapling (linkMsgOf 1 0 5)).grove.role = .sapling ∧
    (heardLink 0 .orphanRoot (linkMsgOf 2 0 6)).grove.role = .orphanRoot ∧ (heardLink 0 .manager (linkMsgOf 2 0 6)).grove.role ≠ .worker ∧
    (linkMsgOf 3 0 6).kind = 3 ∧ (heardLink 0 .orphanMember (linkMsgOf 4 3 6)).grove.role.orphan = true ∧
    (heardLink 0 .manager (linkMsgOf 4 3 6)).grove.role = .manager ∧
    ((heardLink 0 .worker (linkMsgOf 5 1 6)).grove.role ≠ .manager ∧ (heardLink 0 .worker (linkMsgOf 5 1 6)).grove.role ≠ .sapling) ∧
    (linkMsgOf 6 0 6).kind = 6 ∧ (1 : Fin 5) ≠ 0 := by
  decide +kernel

/-- A trigger request. -/
def trigReq : TrigReq := { origin := 3, tick := 100, fraction := 0, arrived := 0 }
/-- A frame in a replay buffer, re-sent n times. -/
def outFrame (n : Nat) : OutFrame := { frame := { kind := 1, pseq := 0, origin := 0, tick := 0, fraction := 0, value := 0 }, departed := 0, resends := n }

theorem test_grove_triggers :
    (let s := portIs 0 .worker fun b => { b with link := .up, rxP := 1 };
      s.boughOn = true ∧ (s.port 0).link = .up ∧ 129 % 256 ≠ (s.port 0).rxP ∧ 256 % 256 ≠ (s.port 0).rxP ∧ ((s.port 0).rxP + 256 - 256 % 256) % 256 ≤ 128 ∧
        ((s.port 0).rxP + 256 - 129 % 256) % 256 ≤ 128 ∧ 257 % 256 = (s.port 0).rxP ∧ s.grove.role.orphan = false) ∧
    (portIs 0 .orphanMember fun b => { b with link := .up }).grove.role.orphan = true ∧
    (let s := portIs (Fin.succ 3) .manager fun b => { b with link := .up };
      (s.port (Fin.succ 3)).link = .up ∧ 0 % 256 = (s.port (Fin.succ 3)).rxP) ∧
    (let s := ready.onGrove fun g => { g with requests := [trigReq], lastSent := some 0, lastBroadcast := some (100 * 2 ^ 32) };
      s.grove.requests = trigReq :: [] ∧ s.grove.role = .manager ∧ trigReq.arrived ≤ max s.now 256 ∧ (∀ x ∈ s.grove.lastSent, x + 256 ≤ max s.now 256) ∧
        s.grove.lastBroadcast = some (100 * 2 ^ 32) ∧ trigReq.tick * 2 ^ 32 + trigReq.fraction ≤ 100 * 2 ^ 32) ∧
    (let s := ready.onGrove fun g => { g with requests := [trigReq], lastBroadcast := some (100 * 2 ^ 32 - 1) };
      s.grove.lastSent = none ∧ ∀ x ∈ s.grove.lastBroadcast, x < trigReq.tick * 2 ^ 32 + trigReq.fraction) ∧
    (let s := ready.onGrove fun g => { g with role := .worker, forwards := [trigReq] };
      s.grove.forwards = trigReq :: [] ∧ trigReq.arrived ≤ max s.now 0 ∧ s.grove.lastForward = none) := by
  decide +kernel

theorem test_frames_and_ranging :
    (let s := portIs 4 .worker fun b => { b with link := .up, frames := [outFrame 7] };
      (s.port 4).frames = outFrame 7 :: [] ∧ (s.port 4).link = .up ∧ (outFrame 7).departed + 6000 ≤ max s.now 6000 ∧ 7 ≤ (outFrame 7).resends ∧
        (outFrame 6).resends < 7) ∧
    (let r : RangeRun := { tickets := [1], done := 1023, sum := 0, t1 := 0 };
      let s := portIs (Fin.succ 3) .worker fun b => { b with link := .up, run := some r };
      (s.port (Fin.succ 3)).run = some r ∧ (s.port (Fin.succ 3)).link = .up ∧ r.done < 1024) ∧
    (let r : RangeRun := { tickets := [1], done := 1024, sum := 0, t1 := 0 };
      let s := portIs (Fin.succ 3) .worker fun b => { b with link := .up, run := some r };
      (s.port (Fin.succ 3)).run = some r ∧ 1024 ≤ r.done) ∧
    (let s := portIs (Fin.succ 3) .worker fun b => { b with link := .up, partner := some (linkMsgOf 1 1 0) };
      (s.port (Fin.succ 3)).link = .up ∧ (s.port (Fin.succ 3)).run = none ∧ (s.port (Fin.succ 3)).partner.map LinkMsg.role = some 1) ∧
    (let s := (portIs 0 .worker fun b => { b with link := .up }).onGrove fun g => { g with upCount := 1024 };
      (s.port 0).link = .up ∧ 0 % 256 = (s.port 0).rxP ∧ s.grove.upCount ≠ 0 ∧ s.grove.rejoin = none) ∧
    (let s := (portIs 0 .worker fun b => { b with link := .up }).onGrove fun g => { g with upCount := 1024, rejoin := some (5, 6) };
      s.grove.rejoin = some (5, 6) ∧ s.grove.upCount ≠ 0) := by
  decide +kernel

theorem test_queries : (∀ op, ready.Hears host op) ∧ ready.engineState ∈ setQ ∧ host.path = .pcie ∧ host.group = false ∧ (0 : BitVec 32).toNat < 4 ∧
    (7#32).toNat < 8 ∧ (15#32).toNat < 16 ∧ (22#32).toNat < 23 ∧ (1023#32).toNat < 1024 ∧ (4095#32).toNat < 4096 :=
  ⟨fun _ => hears_of (by decide +kernel), by decide +kernel, rfl, by decide +kernel, by decide +kernel⟩

theorem test_answers : Reply.ok.status = 0 ∧ ({ host with flags := 8 } : Hdr).quiet = true ∧ host.path ≠ .bough ∧ overBough.path = .bough := by decide +kernel

theorem test_memory_writes :
    (zeros 4 ≠ [] ∧ 2 ^ 28 - 4 + (zeros 4).length ≤ 2 ^ 28 ∧ ready.board.boot ≠ .reset ∧ ready.memBusy = false ∧ ready.mem.bar2 + (2 ^ 28 - 4) < ready.memBytes ∧
      ready.mem.open_ = []) ∧
    memMoving.memBusy = true ∧
    (let s := ready.onMem fun m => { m with bar2 := 0x17F0000000 + 2 ^ 28 };
      s.memBytes ≤ s.mem.bar2 + 0) ∧
    ((zeros 32).length = 32 ∧ ready.memRuns = true) := by
  decide +kernel

theorem test_invariant_of_other_states :
    (let s := { readingBack 7 with pending := [.sysStatus host, .pwrOkFall 2000] };
      s.wf = true ∧ s.mem.cells ≠ [] ∧ ∃ u, step s = .next u) ∧
    ∃ u, exec (.sysStatus host) ready = .next u := by
  refine ⟨⟨by decide +kernel, by decide +kernel, _, rfl⟩, _, rfl⟩

theorem test_turned_away :
    (ready.Hears host 0x0201 ∧ 65536 ≤ (65536#32).toNat ∧ (65535#32).toNat < 65536 ∧ 16 ≤ (16#32).toNat ∧ fld (0xC0000000#32) 16 12 = 0 ∧ ready.engineState ∈ setC) ∧
    (awaiting.Hears host 0x0201 ∧ awaiting.engineState ∉ setC ∧ awaiting.engineState ∉ setW ∧ awaiting.engineState ∉ setS ∧ awaiting.engineState ∉ setT) ∧
    (initial.Hears host 0x0201 ∧ initial.engineState ∉ setC) ∧
    (awaiting.Hears { host with path := .mailbox } 0x0C01 ∧ ({ host with path := .mailbox } : Hdr).path ≠ .pcie) ∧
    (let s := ready.onPath .pcie fun p => { p with tags := [(1, 1)] };
      (s.path host.path).lastGen host.tag = some 1 ∧ newerGen host.gen 1 = false) := by
  repeat' apply And.intro
  all_goals first | (with_reducible refine hears_of ?_); decide +kernel | decide +kernel

theorem test_stale_ticket : (ready.onPath .pcie fun p => { p with tags := [(1, 1)] }).Reaches host 0x0002 :=
  ⟨idle_of (by decide +kernel), by decide +kernel, by decide +kernel, fun _ => rfl, fun h => (by cases h), by decide +kernel, by decide +kernel, .inl (by decide +kernel)⟩

theorem test_layouts :
    (ready.board.boot ≠ .reset ∧ ready.board.boot ≠ .heartwood) ∧ (ready.Hears host 0x0B07 ∧ ready.engineState ∈ setQ) ∧
    (let s := ready.onCal fun c => { c with pending := some (zeros 64) };
      s.Hears host 0x0806 ∧ (1#32).toNat ≤ 1 ∧ (if 1#32 = 0 then s.cal.active else s.cal.pending) = some (zeros 64)) ∧
    (15#32).toNat = (15 : Fin 16).val := by
  repeat' apply And.intro
  all_goals first | (with_reducible refine hears_of ?_); decide +kernel | decide +kernel

/-- A full event queue, with and without a pending event of the register of CLK_REF_LOST. -/
def eventsFull (pending : List Event) : State := ready.onEvents fun e => { e with queue := List.replicate 1024 plainEvent, pending := pending }

theorem test_event_queue :
    (ready.events.pending = [] ∧ ready.events.queue.length < 1024) ∧
    (1024 ≤ (eventsFull []).events.queue.length ∧ ∀ p ∈ (eventsFull []).events.pending, p.register ≠ ((eventsFull []).mkEvent { code := 0x0181 } 5).register) ∧
    ((eventsFull [ready.mkEvent { code := 0x0181 } 4]).events.pending ≠ [] ∧
      ∃ p ∈ (eventsFull [ready.mkEvent { code := 0x0181 } 4]).events.pending, p.register = ((eventsFull [ready.mkEvent { code := 0x0181 } 4]).mkEvent { code := 0x0181 } 5).register) := by
  decide +kernel

/-- The codes of the worked case of R135, with OVR on the four that overdrive touched. -/
def hiresCodes : List Int := [100, 101, 101, 102, 100, 103, 101, 102, 2047, 2047, 2047, 1990, 1700, 1400, 1100, 800, -5, -5, -6]
/-- Their span: 19 samples from the trigger sample on. -/
def hiresSpan : Span := { word := fun i => wordOf (hiresCodes.getD i 0) (8 ≤ i && i < 12), trig := 0, first := 0, stop := 19 }
/-- DECIM_CONFIG with a mode and N = 8. -/
def decimBy (mode : Nat) : BitVec 128 := BitVec.ofNat 128 (at' 8 64 + mode)

/-- The worked case of R135. -/
theorem test_hires : hiresSpan.stored (decimBy 3) 0 = [0x0654] ∧ hiresSpan.stored (decimBy 3) 1 = [0x6697] ∧ hiresSpan.stored (decimBy 3) 2 = [0xFFAA] ∧
    storedCount (decimBy 3) 0 0 19 = 3 := by
  decide +kernel

theorem test_peak_intervals : decMode (decimBy 2) = 2 ∧ hiresSpan.interval (decN (decimBy 2)) 2 ≠ [] := by decide +kernel

/-- A value as a sample word. -/
def word16 (v : Int) : Nat := unsigned 16 v

/-- The worked case of R72 to R74: the crossing between phase 3 of tick 10 and phase 0 of tick 11 in F4, linear and cubic. -/
theorem test_crossing :
    (crossing false 4 44 0 [word16 (-2400), word16 (-8000)] (word16 4000) (some (word16 9600))).time = 10 * 2 ^ 32 + 0xD8000000 ∧
    (crossing true 4 44 0 [word16 (-2400), word16 (-8000)] (word16 4000) (some (word16 9600))).time / 2 ^ 16 = 10 * 2 ^ 16 + 0xD813 := by
  decide +kernel

theorem test_crossing_operands : (4 = 1 ∧ 2 = 0 ∨ 4 = 2 ∧ 2 = 1 ∨ 4 = 4 ∧ 2 = 2) ∧ 1 ≤ 44 ∧
    (crossing false 4 44 0 [word16 (-2400)] (word16 4000) none).linear = true ∧ valueOf (word16 (-2400)) < 0 ∧ 0 ≤ valueOf (word16 4000) := by
  decide +kernel

/-- FAULT after the loss of XO_IN in the tick 1000. -/
def faulted : State := { ready with now := 1000 }.fatal 0x0107 0xF

theorem test_fatal_causes :
    (ready.board.boot = .run ∧ 0x0107 < 65536 ∧ 0xF < 16) ∧
    (faulted.board.boot = .fault ∧ flag faulted.board.engineWord 23 = true) ∧
    (faulted.now = faulted.board.faultFrom ∧ fatalRow 0x0025 false < faulted.board.faultRow ∧ 0x0025 < 65536 ∧ 4 < 16) ∧
    (faulted.board.faultRow ≤ fatalRow 0x0026 false) ∧
    ({ faulted with now := 1001 }.now ≠ { faulted with now := 1001 }.board.faultFrom) := by
  decide +kernel

/-- ENGINE_WORD of the worked case of R494, and the same after XO_IN was lost in the same tick. -/
theorem test_fault_word : (ready.fatal 0x0025 4 true).engineWord = 0x0AC40025 ∧ (faulted.fatal 0x0025 4 true).engineWord = 0x0AC40025 := by decide +kernel

/-- The check value of R19. -/
theorem test_crc_check_value : crc32c ((List.range 9).map fun i => BitVec.ofNat 8 (0x31 + i)) = 0xE3069283 := by
  rw [crc32c, crcRun_eq]
  decide +kernel

/-- The worked case of R171: the place of EPA 0x02_0014_2F34 under GRAIN 4. -/
theorem test_place : placeOf 4 0x0200142F34 = { stack := 2, pseudo := 0, channel := 9, bank := 11, row := 1024, col := 820 } := by decide +kernel

/-- The worked case of R42: 500 mVpp, 10 GHz. -/
theorem test_conversion :
    idealCode 0x80000000#32 260000000 = 2047 ∧ ovrTrips 0x80000000#32 260000000 = some true ∧ idealCode 0x80000000#32 249950000 = 2047 ∧
    ovrTrips 0x80000000#32 249950000 = some false ∧ idealCode (BitVec.ofNat 32 (0x80000000 + 13107)) 340000000 = 1966 := by
  decide +kernel

/-- The corrected codes of the same case: gains 0.995 and 1.003, zero offset. -/
theorem test_correction :
    roundDiv (bankStep { BankCoef.unity with gains := [0, 0, (2 ^ 30 * 995 / 1000 : Nat), 0], valid := 4 } 2 (sliceStep {} 2047)) (2 ^ 58) = 2037 ∧
    roundDiv (bankStep { BankCoef.unity with gains := [0, 0, (2 ^ 30 * 1003 / 1000 : Nat), 0], valid := 4 } 2 (sliceStep {} 2047)) (2 ^ 58) = 2053 ∧
    roundDiv (bankStep { BankCoef.unity with gains := [0, 0, (2 ^ 30 * 1003 / 1000 : Nat), 0], valid := 4 } 2 (sliceStep {} 1966)) (2 ^ 58) = 1972 := by
  decide +kernel

/-- The worked case of R112: CG2 of two channels in F2. -/
def ringCase : Group := { Group.reset with
  cap := BitVec.ofNat 384 (at' 0x0200000000 344 + at' 0x10000 264 + at' 10000 192 + at' 6000 160 + at' 256 128 + at' 1000 103 + at' 0x500 48 + at' 4 44) }

theorem test_region : ringCase.preTicks 2 = 3000 ∧ ringCase.ringTicks 2 = 7352 ∧ ringCase.ringBytes 2 = 0x10000 ∧ ringCase.tableBytes = 0x10000 ∧
    (ringCase.bCapture 2).millions = 672000 := by
  decide +kernel

/-- The worked cases of R160 and R395: the budget terms of CG0, and of CG1 under HIRES with N of 16. -/
theorem test_budget :
    groupBudget
      { Group.reset with cap := BitVec.ofNat 384 (at' 8000 192 + at' 2000 160 + at' 256 128 + at' 1000 103 + at' 0xFF 48 + at' 1 41) }
      { Acc.reset with cfg := BitVec.ofNat 256 (at' 4096 96 + at' 1 66 + 1) } 1 false = 1120197 ∧
    groupBudget
      { Group.reset with
        cap := BitVec.ofNat 384 (at' 1500000 192 + at' 500000 160 + at' 256 128 + at' 1000 103 + at' 0xFF00 48 + at' 1 41)
        dec := BitVec.ofNat 128 (at' 16 64 + 3), comb := BitVec.ofNat 128 (at' 2000000 88) }
      { Acc.reset with cfg := BitVec.ofNat 256 (at' 1024 96 + at' 1 66 + 1) } 1 false = 660040 := by
  decide +kernel

/-- The worked case of R372: the arm's packet. -/
theorem test_arm_packet : (commandPacket { host with ticket := 0x1235 } 0x0403 (leBytes 4 0x102)).take 20 =
    [0x01, 0x00, 0x03, 0x04, 0x35, 0x12, 0x00, 0x00, 0x00, 0x00, 0x01, 0x00, 0x00, 0x00, 0x00, 0x00, 0x02, 0x01, 0x00, 0x00] := by
  decide +kernel

/-- The same case with CG2 ARMED: the payload of its reply. -/
theorem test_arm_conflict :
    (((ready.onGroup 2 fun g => { g with state := .armed }).groupState 2).payload 5) = [0x02, 0x05, 0x11, 0x00, 0x42, 0x20, 0x00, 0x01] := by
  decide +kernel

/-- The example of R493: MISSED_TRIGGERS of CG2 lies at 0x14B0. -/
theorem test_value_block : (ready.onGroup 2 fun g => { g with cnt := { g.cnt with missed := 77 } }).value64 0x14B0 = some 77 := by decide +kernel

/-- Rows of an impossible shape are ill formed, one for each check. -/
theorem test_ill_formed :
    (Instr.sampleLinkBlock 0 0 (.wire (zeros 263))).wf = false ∧ (Instr.sampleLinkBlock 0 0 (.analog [] true)).wf = false ∧
    (Instr.selfCalPhaseEnd 0 (.measure [] [])).wf = false ∧ (Instr.memRequest 0 0 0 (.write (zeros 31) 0) 0).wf = false ∧
    (Instr.bar2Access 0 (2 ^ 28) (.read 1)).wf = false ∧ (Instr.bar2Access 0 0 (.read 0)).wf = false ∧ (Instr.bar2Access 0 0 (.write [])).wf = false ∧
    (Instr.descriptorTake 0 0 (zeros 31)).wf = false ∧ (Instr.readoutBlockRead 0 0 (some (zeros 3))).wf = false ∧
    (Instr.calLeakageEnd 0 0 [1, 2, 3]).wf = false ∧ (Instr.calCompareEnd 0 0 (zeros 5)).wf = false := by
  decide +kernel

theorem test_ill_formed_refused : exec (.descriptorTake 0 0 (zeros 31)) ready = .refused .illFormed := by rfl

end Sys2Proof.Tests
end

section
/-!
The status window (R218, R490): which register a write at an offset reaches, and what a read at one does, once the window is lit.
-/
namespace Sys2Proof.Machine

/-- Past HEARTWOOD the window is lit, at the tick of the access too (R461). -/
theorem State.advance_lit {s : State} (t : Nat) (h1 : s.board.boot ≠ .reset) (h2 : s.board.boot ≠ .heartwood) : (s.advance t).windowDark = false := by
  show (decide (s.board.boot = .reset) || decide (s.board.boot = .heartwood)) = false
  simp [h1, h2]

theorem State.not_reset_of_lit {s : State} (h : s.windowDark = false) : s.board.boot ≠ .reset := by
  intro e
  simp [State.windowDark, e] at h

theorem State.event_turnsThen {s : State} {i : Instr} {t : Nat} {f g : State → State} (row : exec i s = s.event t f)
    (h : f (s.advance t) = g (s.advance t)) : s.TurnsThen i t g := by
  rw [State.TurnsThen, row, State.event, h]

theorem wordIn_word {base n i : Nat} (h : i < n) : wordIn (base + 4 * i) base n = some i := by
  rw [wordIn, if_pos (by simp; omega)]
  congr 1
  omega

theorem wordIn_none {off base n : Nat} (h : off < base ∨ base + 4 * n ≤ off) : wordIn off base n = none := by
  rw [wordIn, if_neg (by simp; omega)]

/-- A 32-bit write at an aligned offset reaches its word (R490). -/
theorem State.writeWindow_word (s : State) (req : Requester) {off v : Nat} (ho : off < 0x10000) (ha : off % 4 = 0) (hv : v < 2 ^ 32) :
    s.writeWindow req off false v = s.write32 req off v := by
  have e : off % 0x10000 / 4 * 4 = off := by omega
  rw [State.writeWindow, if_neg (by decide), e, Nat.mod_eq_of_lt hv]

theorem State.write32_mailbox {s : State} (h : s.board.boot ≠ .reset) (req : Requester) {i : Nat} (hi : i < 1029) (v : Nat) :
    s.write32 req (0xA000 + 4 * i) v = s.onHost fun k => { k with mailbox := putSparse k.mailbox (4 * i) (leBytes 4 v) } := by
  unfold State.write32
  rw [if_neg h, wordIn_word hi, if_pos Option.isSome_some, Nat.add_sub_cancel_left]

theorem State.write32_bootDoorbell {s : State} (h : s.board.boot ≠ .reset) (req : Requester) (v : Nat) : s.write32 req 0x28 v = s.bootDoorbell v := by
  unfold State.write32
  rw [if_neg h, wordIn_none (.inl (by decide)), if_neg (by decide), if_pos rfl]

/-- What stands at an offset below the mailbox, for anything that belongs to a register that takes a write (R490):
WINDOW_STATUS, MON_CTRL, CMD_TAIL, and the DESC_TAIL and CPL_HEAD of the rings. -/
def registerAt {α : Type} (off : Nat) (status monCtrl cmdTail : α) (descTail : Fin 4 → α) (cplHead : Fin 5 → α) (ignored : α) : α :=
  match off with
  | 0x1C => status
  | 0x20 => monCtrl
  | 0x440 => cmdTail
  | _ =>
    match wordIn off 0x0400 20 with
    | none => ignored
    | some i =>
      if i % 4 = 0 then descTail (Fin.ofNat 4 (i / 4))
      else if i % 4 = 3 then cplHead (Fin.ofNat 5 (i / 4))
      else ignored

section
variable {α : Type} (status monCtrl cmdTail : α) (descTail : Fin 4 → α) (cplHead : Fin 5 → α) (ignored : α)

theorem registerAt_status : registerAt 0x1C status monCtrl cmdTail descTail cplHead ignored = status := rfl
theorem registerAt_monCtrl : registerAt 0x20 status monCtrl cmdTail descTail cplHead ignored = monCtrl := rfl
theorem registerAt_cmdTail : registerAt 0x440 status monCtrl cmdTail descTail cplHead ignored = cmdTail := rfl

/-- Past the three single registers stand the words of the rings. -/
theorem registerAt_ring {off i : Nat} (h1 : off ≠ 0x1C) (h2 : off ≠ 0x20) (h3 : off ≠ 0x440) (hi : i < 20) (ho : off = 0x400 + 4 * i) :
    registerAt off status monCtrl cmdTail descTail cplHead ignored =
      if i % 4 = 0 then descTail (Fin.ofNat 4 (i / 4)) else if i % 4 = 3 then cplHead (Fin.ofNat 5 (i / 4)) else ignored := by
  unfold registerAt
  split
  · exact absurd rfl h1
  · exact absurd rfl h2
  · exact absurd rfl h3
  · rw [ho, wordIn_word hi]

theorem registerAt_descTail (g : Fin 4) : registerAt (0x400 + 16 * g.val) status monCtrl cmdTail descTail cplHead ignored = descTail g := by
  have hg : Fin.ofNat 4 (4 * g.val / 4) = g := Fin.ext (show 4 * g.val / 4 % 4 = g.val by omega)
  rw [registerAt_ring (i := 4 * g.val) _ _ _ _ _ _ (by omega) (by omega) (by omega) (by omega) (by omega), if_pos (by omega), hg]

theorem registerAt_cplHead (r : Fin 5) : registerAt (0x40C + 16 * r.val) status monCtrl cmdTail descTail cplHead ignored = cplHead r := by
  have hr : Fin.ofNat 5 ((4 * r.val + 3) / 4) = r := Fin.ext (show (4 * r.val + 3) / 4 % 5 = r.val by omega)
  rw [registerAt_ring (i := 4 * r.val + 3) _ _ _ _ _ _ (by omega) (by omega) (by omega) (by omega) (by omega), if_neg (by omega),
    if_pos (by omega), hr]

end

/-- A write below the mailbox, other than BOOT_DOORBELL, in the lit window. -/
def State.writeRegister (s : State) (req : Requester) (off v : Nat) : State :=
  registerAt off (s.clearHalfOrder req v) (s.monCtrl req.idx v) (s.cmdTailTo v) (fun g => s.descTail g v) (fun r => s.cplHead r v) s

theorem State.write32_register {s : State} (h : s.windowDark = false) (req : Requester) {off : Nat} (ho : off < 0xA000) (hb : off ≠ 0x28) (v : Nat) :
    s.write32 req off v = s.writeRegister req off v := by
  unfold State.write32
  rw [if_neg (State.not_reset_of_lit h), wordIn_none (.inl ho), if_neg (by decide), if_neg hb, h, if_neg (by decide)]
  rfl

/-- A row that writes a register of the lit window. -/
theorem State.turnsThen_register {s : State} (t : Nat) {i : Instr} {req : Requester} {off : Nat} {value : BitVec 32} {g : State → State}
    (row : exec i s = s.event t fun v => v.writeWindow req off false value.toNat) (ha : off % 4 = 0) (ho : off < 0xA000) (hb : off ≠ 0x28)
    (lit : (s.advance t).windowDark = false) (h : (s.advance t).writeRegister req off value.toNat = g (s.advance t)) : s.TurnsThen i t g :=
  State.event_turnsThen row <| by
    rw [State.writeWindow_word _ req (by omega) ha value.isLt, State.write32_register lit req ho hb, h]

/-! The registers' own effects. -/

theorem State.cmdTailTo_eq (s : State) (v : Nat) :
    s.cmdTailTo v = s.onHost fun h => if tailOk h.cmdHead h.cmdTail (descSize h.ring) v then { h with cmdTail := v }
      else { h with doorbellErrors := h.doorbellErrors + 1 } := by
  unfold State.cmdTailTo State.badDoorbell State.onHost
  split
  · next h => simp only [if_pos h]
  · next h => simp only [if_neg h]

theorem State.descTail_eq (s : State) (g : Fin 4) (v : Nat) :
    s.descTail g v =
      if tailOk (s.rings.get g).descHead (s.rings.get g).descTail (descSize (s.rings.get g).cfg) v then s.onRing g fun r => { r with descTail := v }
      else s.onHost fun h => { h with doorbellErrors := h.doorbellErrors + 1 } := rfl

theorem State.cplHead_group (s : State) (g : Fin 4) (v : Nat) :
    s.cplHead g.castSucc v =
      if headOk (s.rings.get g).cpl v then s.onRing g fun r => { r with cpl := { r.cpl with head := v } }
      else s.onHost fun h => { h with doorbellErrors := h.doorbellErrors + 1 } := by
  unfold State.cplHead
  exact dif_pos g.isLt

theorem State.cplHead_host (s : State) (v : Nat) :
    s.cplHead 4 v =
      if headOk s.ring4 v then s.onRing4 fun r => { r with head := v }
      else s.onHost fun h => { h with doorbellErrors := h.doorbellErrors + 1 } := by
  unfold State.cplHead
  exact dif_neg (by decide)

theorem State.advance_rings (s : State) (t : Nat) : (s.advance t).rings = s.rings := rfl
theorem State.advance_ring4 (s : State) (t : Nat) : (s.advance t).ring4 = s.ring4 := rfl

theorem State.clearHalfOrder_set {s : State} (h : s.windowDark = false) (req : Requester) {v : Nat} (hv : bit v 31 = true) :
    s.clearHalfOrder req v = s.onShadow req fun w => { w with halfOrder := false } := by
  rw [State.clearHalfOrder, hv, h]
  rfl

theorem State.monCtrl_convert (s : State) (r : Fin 3) {v : Nat} (hv : bit v 31 = true) :
    s.monCtrl r v = s.onMon fun m => { m with reqs := vmod m.reqs r fun q =>
      if q.pending.isSome then { q with busyWrites := q.busyWrites + 1 } else { q with pending := some (v % 32) } } := by
  rw [State.monCtrl, hv]
  rfl

/-- BOOT_DOORBELL takes the mailbox's packet where none is unanswered and the command ring is off (R331). -/
theorem State.bootDoorbell_takes {s : State} (h : s.windowDark = false) (hr : s.ringOn = false) (hb : s.host.bootBusy = false)
    (hh : s.host.bootHeld = none) (n : Nat) :
    s.bootDoorbell n =
      (s.onHost fun h => { h with bootValid := false, bootBusy := true }).receiveBytes .pcie (getSparseN s.host.mailbox 0 (min n 4117)) 0 0 := by
  have hw : s.board.boot ≠ .heartwood := by
    intro e
    simp [State.windowDark, e] at h
  rw [State.bootDoorbell, if_neg (by simp [State.not_reset_of_lit h, hr, hb, hh]), if_neg hw]

/-! Reads (R218). -/

theorem State.read32_low {s : State} (req : Requester) {k x : Nat} (hk : k < 1920) (hx : s.value64 (0x1000 + 8 * k) = some x) :
    s.read32 req (0x1000 + 8 * k) =
      ((s.onShadow req fun w => { w with value := x, offset := 0x1000 + 8 * k, latched := true }).clearValue (0x1000 + 8 * k)).returns req (x % 2 ^ 32) := by
  have e : (0x1000 + 8 * k) % 0x10000 / 4 * 4 = 0x1000 + 8 * k := by omega
  have hin : inValues (0x1000 + 8 * k) = true := by simp [inValues]; omega
  rw [State.read32, e, hin, if_pos rfl, if_pos (by omega), State.readLow, hx]

theorem State.read32_high {s : State} (req : Requester) {k x : Nat} (hk : k < 1920) (hx : s.value64 (0x1000 + 8 * k) = some x) :
    s.read32 req (0x1000 + 8 * k + 4) =
      (s.onShadow req fun w => if w.latched = true ∧ w.offset = 0x1000 + 8 * k then w else { w with halfOrder := true }).returns req
        ((s.shadows.get req.idx).value / 2 ^ 32) := by
  have e : (0x1000 + 8 * k + 4) % 0x10000 / 4 * 4 = 0x1000 + 8 * k + 4 := by omega
  have hin : inValues (0x1000 + 8 * k + 4) = true := by simp [inValues]; omega
  rw [State.read32, e, hin, if_pos rfl, if_neg (by omega), Nat.add_sub_cancel, State.readHigh, hx, if_neg (by exact Bool.false_ne_true)]
  simp only [Bool.and_eq_true, decide_eq_true_eq]

theorem State.read64_value {s : State} (req : Requester) {k x : Nat} (hk : k < 1920) (hx : s.value64 (0x1000 + 8 * k) = some x) :
    s.read64 req (0x1000 + 8 * k) = (s.clearValue (0x1000 + 8 * k)).returns req x := by
  have e : (0x1000 + 8 * k) % 0x10000 / 8 * 8 = 0x1000 + 8 * k := by omega
  have hin : inValues (0x1000 + 8 * k) = true := by simp [inValues]; omega
  rw [State.read64, e, hin, if_pos rfl, hx]

theorem State.statusWord_memStatus (s : State) (req : Requester) (i : Fin 4) : s.statusWord req (0x01D0 + 4 * i.val) = s.memStatus i := by
  match i with
  | 0 => rfl
  | 1 => rfl
  | 2 => rfl
  | 3 => rfl

theorem State.read32_memStatus {s : State} (h : s.windowDark = false) (req : Requester) (i : Fin 4) :
    s.read32 req (0x01D0 + 4 * i.val) = (s.onMem fun m => m.onStack i fun k => { k with maxDebt := 0 }).returns req (s.memStatus i % 2 ^ 32) := by
  have e : (0x01D0 + 4 * i.val) % 0x10000 / 4 * 4 = 0x01D0 + 4 * i.val := by omega
  have hin : inValues (0x01D0 + 4 * i.val) = false := by simp [inValues]; omega
  have hi : Fin.ofNat 4 i.val = i := by ext; simp
  have hc : s.clearWord (0x01D0 + 4 * i.val) = s.onMem fun m => m.onStack i fun k => { k with maxDebt := 0 } := by
    rw [State.clearWord, wordIn_word i.isLt, h]
    dsimp only
    rw [hi, if_neg (by decide)]
  have hw : s.word32 req (0x01D0 + 4 * i.val) = s.memStatus i % 2 ^ 32 := by
    rw [State.word32, h, Bool.false_and, if_neg (by decide)]
    rw [State.statusWord_memStatus]
  rw [State.read32, e, hin, if_neg (by decide), hc, hw]

section
variable {s : State} {t : Nat} (lit : (s.advance t).windowDark = false)
include lit

theorem State.cmdTailDoorbell_turns (value : BitVec 32) : s.TurnsThen (.cmdTailDoorbell t value) t fun v => v.onHost fun h =>
    if tailOk h.cmdHead h.cmdTail (descSize h.ring) value.toNat then { h with cmdTail := value.toNat }
    else { h with doorbellErrors := h.doorbellErrors + 1 } :=
  State.turnsThen_register t rfl (by decide) (by decide) (by decide) lit ((registerAt_cmdTail ..).trans (State.cmdTailTo_eq ..))

theorem State.descTailDoorbell_turns (g : Fin 4) (value : BitVec 32) : s.TurnsThen (.descTailDoorbell t g value) t fun v =>
    if tailOk (s.rings.get g).descHead (s.rings.get g).descTail (descSize (s.rings.get g).cfg) value.toNat then v.onRing g fun r => { r with descTail := value.toNat }
    else v.onHost fun h => { h with doorbellErrors := h.doorbellErrors + 1 } :=
  State.turnsThen_register t rfl (by omega) (by omega) (by omega) lit <| by
    rw [State.writeRegister, registerAt_descTail, State.descTail_eq, State.advance_rings]

theorem State.cplHeadDoorbell_turns (g : Fin 4) (value : BitVec 32) : s.TurnsThen (.cplHeadDoorbell t g.castSucc value) t fun v =>
    if headOk (s.rings.get g).cpl value.toNat then v.onRing g fun r => { r with cpl := { r.cpl with head := value.toNat } }
    else v.onHost fun h => { h with doorbellErrors := h.doorbellErrors + 1 } :=
  State.turnsThen_register t rfl (by omega) (by omega) (by omega) lit <| by
    rw [State.writeRegister, registerAt_cplHead, State.cplHead_group, State.advance_rings]

theorem State.cplHeadDoorbell_host_turns (value : BitVec 32) : s.TurnsThen (.cplHeadDoorbell t 4 value) t fun v =>
    if headOk s.ring4 value.toNat then v.onRing4 fun r => { r with head := value.toNat }
    else v.onHost fun h => { h with doorbellErrors := h.doorbellErrors + 1 } :=
  State.turnsThen_register t rfl (by decide) (by decide) (by decide) lit <| by
    rw [State.writeRegister, registerAt_cplHead, State.cplHead_host, State.advance_ring4]

theorem State.bootDoorbell_turns (value : BitVec 32) (hr : s.ringOn = false) (hb : s.host.bootBusy = false) (hh : s.host.bootHeld = none) :
    s.TurnsThen (.bootDoorbell t value) t fun v =>
      (v.onHost fun h => { h with bootValid := false, bootBusy := true }).receiveBytes .pcie (getSparseN s.host.mailbox 0 (min value.toNat 4117)) 0 0 := by
  refine State.event_turnsThen (f := fun v => v.writeWindow .host 0x28 false value.toNat) rfl ?_
  rw [State.writeWindow_word _ _ (by decide) (by decide) value.isLt, State.write32_bootDoorbell (State.not_reset_of_lit lit)]
  exact State.bootDoorbell_takes lit hr hb hh _

theorem State.halfOrderClear_turns (req : Requester) (value : BitVec 32) (hv : bit value.toNat 31 = true) :
    s.TurnsThen (.halfOrderClear t req value) t fun v => v.onShadow req fun w => { w with halfOrder := false } :=
  State.turnsThen_register t rfl (by decide) (by decide) (by decide) lit ((registerAt_status ..).trans (State.clearHalfOrder_set lit req hv))

theorem State.monCtrlConvert_turns (req : Requester) (value : BitVec 32) (hv : bit value.toNat 31 = true) :
    s.TurnsThen (.monCtrlConvert t req value) t fun v => v.onMon fun m => { m with reqs := vmod m.reqs req.idx fun q =>
      if q.pending.isSome then { q with busyWrites := q.busyWrites + 1 } else { q with pending := some (value.toNat % 32) } } :=
  State.turnsThen_register t rfl (by decide) (by decide) (by decide) lit ((registerAt_monCtrl ..).trans (State.monCtrl_convert _ req.idx hv))

theorem State.memStatusRead_turns (req : Requester) (i : Fin 4) : s.TurnsThen (.rcFieldRead t req (0x01D0 + 4 * i.val)) t fun v =>
    (v.onMem fun m => m.onStack i fun k => { k with maxDebt := 0 }).returns req (v.memStatus i % 2 ^ 32) :=
  State.event_turnsThen (f := fun v => v.read32 req (0x01D0 + 4 * i.val)) rfl (State.read32_memStatus lit req i)

theorem State.mailboxWrite_turns (req : Requester) (value : BitVec 64) {i : Nat} (hi : i < 1029) :
    s.TurnsThen (.registerWrite t (.window req (0xA000 + 4 * i)) false value) t fun v =>
      v.onHost fun h => { h with mailbox := putSparse h.mailbox (4 * i) (leBytes 4 (value.toNat % 2 ^ 32)) } := by
  refine State.event_turnsThen (f := fun v => v.writeWindow req (0xA000 + 4 * i) false value.toNat) rfl ?_
  have e : (0xA000 + 4 * i) % 0x10000 / 4 * 4 = 0xA000 + 4 * i := by omega
  rw [State.writeWindow, if_neg (by decide), e, State.write32_mailbox (State.not_reset_of_lit lit) req hi]

end

theorem State.sramWrite_turns {s : State} (t : Nat) (core : Fin 4) (value : BitVec 64) {a : Nat} (hs : s.sapwood = true) (ha : inSram a 8 = true) :
    s.TurnsThen (.registerWrite t (.sapwood core a) true value) t fun v => v.putSram a (leBytes 8 value.toNat) := by
  refine State.event_turnsThen (f := fun v => if true then v.writeSapwood a 8 value.toNat else v.writeSapwood a 4 (value.toNat % 2 ^ 32)) rfl ?_
  have hs' : (s.advance t).sapwood = true := hs
  rw [if_pos rfl, State.writeSapwood, hs', if_neg (by decide), if_pos ha]

section
variable {s : State} {t k x : Nat} (hk : k < 1920) (hx : (s.advance t).value64 (0x1000 + 8 * k) = some x)
include hk hx

theorem State.lowHalfRead_turns (req : Requester) : s.TurnsThen (.lowHalfRead t req (0x1000 + 8 * k)) t fun v =>
    ((v.onShadow req fun w => { w with value := x, offset := 0x1000 + 8 * k, latched := true }).clearValue (0x1000 + 8 * k)).returns req (x % 2 ^ 32) := by
  refine State.event_turnsThen (f := fun v => v.read32 req (8 * ((0x1000 + 8 * k) / 8))) rfl ?_
  rw [show 8 * ((0x1000 + 8 * k) / 8) = 0x1000 + 8 * k by omega, State.read32_low req hk hx]

theorem State.highHalfRead_turns (req : Requester) : s.TurnsThen (.highHalfRead t req (0x1000 + 8 * k)) t fun v =>
    (v.onShadow req fun w => if w.latched = true ∧ w.offset = 0x1000 + 8 * k then w else { w with halfOrder := true }).returns req
      ((s.shadows.get req.idx).value / 2 ^ 32) := by
  refine State.event_turnsThen (f := fun v => v.read32 req (8 * ((0x1000 + 8 * k) / 8) + 4)) rfl ?_
  rw [show 8 * ((0x1000 + 8 * k) / 8) = 0x1000 + 8 * k by omega, State.read32_high req hk hx]
  rfl

theorem State.atomic64Read_turns (req : Requester) : s.TurnsThen (.atomic64Read t req (0x1000 + 8 * k)) t fun v =>
    (v.clearValue (0x1000 + 8 * k)).returns req x :=
  State.event_turnsThen (f := fun v => v.read64 req (0x1000 + 8 * k)) rfl (State.read64_value req hk hx)

end

/-- Settles O18: each row's access reaches its register, value or bytes, and has that one's effect. -/
theorem windowAccessesTakeEffect : Obligations.WindowAccessesTakeEffect := by
  intro s t h1 h2
  have lit := s.advance_lit t h1 h2
  exact ⟨State.cmdTailDoorbell_turns lit, State.descTailDoorbell_turns lit, State.cplHeadDoorbell_turns lit, State.cplHeadDoorbell_host_turns lit,
    State.bootDoorbell_turns lit,
    fun req _ _ hk hx => ⟨State.lowHalfRead_turns hk hx req, State.highHalfRead_turns hk hx req, State.atomic64Read_turns hk hx req⟩,
    State.memStatusRead_turns lit,
    fun req value hv => ⟨State.halfOrderClear_turns lit req value hv, State.monCtrlConvert_turns lit req value hv⟩,
    fun req value _ hi => State.mailboxWrite_turns lit req value hi, fun core value _ hs ha => State.sramWrite_turns t core value hs ha⟩

end Sys2Proof.Machine
end

section
/-!
What every row keeps (R7, R10): the frame law of each row, read as one law of exec.
-/
namespace Sys2Proof.Machine
open Sys2Proof.Laws

theorem partsIn_all (ps : List Part) : partsIn ps Part.all = true :=
  List.all_eq_true.mpr fun p _ => by cases p <;> rfl

theorem Frame.all {ps : List Part} {s t : State} (h : Frame ps s t) : Frame Part.all s t := h.widen (partsIn_all ps)

/-- An outcome that, where it is a next state, keeps what every operation keeps. -/
def State.Keeps (s : State) (o : Host.Outcome State Fault Refusal) : Prop := ∀ u, o = .next u → Frame Part.all s u

theorem State.keeps_next {s u : State} (h : Frame Part.all s u) : s.Keeps (.next u) := by
  rintro _ ⟨⟩; exact h

theorem State.keeps_refused (s : State) (r : Refusal) : s.Keeps (.refused r) := fun _ h => nomatch h

theorem State.Changes.keeps {s : State} {t : Nat} {ps : List Part} {o : Host.Outcome State Fault Refusal} (h : s.Changes t ps o) : s.Keeps o := by
  obtain rfl | ⟨u, rfl, hu⟩ := h
  · exact s.keeps_refused _
  · exact State.keeps_next (hu.all.step rfl (advance_frame s t).all)

theorem State.ChangesThen.keeps {s : State} {t : Nat} {ps : List Part} {o : Host.Outcome State Fault Refusal} (h : s.ChangesThen t ps o) :
    s.Keeps o := by
  obtain rfl | ⟨u, rfl, hu⟩ := h
  · exact s.keeps_refused _
  · exact State.keeps_next ((settle_frame u).step rfl (hu.all.step rfl (advance_frame s t).all))

theorem State.command_keeps (s : State) (h : Hdr) (op : Nat) (b : Bytes) : s.Keeps (.next (s.command h op b)) :=
  State.keeps_next (command_frame s h op b)

/-- Every row answers a state that keeps what every operation keeps, or refuses. -/
theorem exec_keeps (i : Instr) (s : State) : s.Keeps (exec i s) := by
  cases i with
  | sysEcho | sysIdentify | sysStatus | cmdRingSetup | cmdRingSetupQuery | tagRetire | sysReset | eventFetch
  | clockPlan | clockPlanQuery | clockSync | gridTrim | inputConfig | inputConfigQuery | quadFusion
  | quadFusionQuery | quadPower | quadPowerQuery | tuConfig | tuConfigQuery | cmpConfig | cmpConfigQuery
  | combinerConfig | combinerConfigQuery | swTrigger | trigoutConfig | trigoutConfigQuery | captureConfig
  | captureConfigQuery | decimConfig | decimConfigQuery | groupArm | groupStop | accConfig | accConfigQuery
  | accSnapshot | memPortConfig | memPortConfigQuery | memConfig | memConfigQuery | memClock | bar2Set
  | bar2SetQuery | readoutRings | readoutRingsQuery | calConfig | calConfigQuery | calRun | calAbort
  | calSetUpload | calSetCommit | calSetDownload | calSliceQuery | seqConfig | seqConfigQuery | seqSegmentDefine
  | seqSegmentDefineQuery | seqListWrite | seqListRead | seqSegmentReady | seqStepWrite | seqStepWriteQuery
  | seqEnable | seqDisable | seqStart | seqStopNow | seqStopBoundary | seqJump | monConfig | monConfigQuery
  | monWindowSet | monWindowSetQuery | enumProbe | enumProbeAssign | groveConfig | groveConfigQuery | groveRange
  | groveAlign | promote | demote | groveStatus | keyInstall | imageLoad | imageStart => exact State.command_keeps _ _ _ _
  | bar2Access => exact (execBar2Access_changes ..).keeps
  | nak => exact (execNak_changes ..).keeps
  | linkResend => exact (execLinkResend_changes ..).keeps
  | alignmentFifoRelease => exact (execAlignmentFifoRelease_changes ..).keeps
  | bankReturned => exact (execBankReturned_changes ..).keeps
  | sliceSubstitution => exact (execSliceSubstitution_changes ..).keeps
  | backgroundEstimate => exact (execBackgroundEstimate_changes ..).keeps
  | quadPoweringDone => exact (execQuadPoweringDone_changes ..).keeps
  | quadTrainingDone => exact (execQuadTrainingDone_changes ..).keeps
  | quadConverged => exact (execQuadConverged_changes ..).keeps
  | triggerUnitDecision => exact (execTriggerUnitDecision_changes ..).keeps
  | taggedEventDelivery => exact (execTaggedEventDelivery_changes ..).keeps
  | triginEdge => exact (execTriginEdge_changes ..).keeps
  | swTriggerDue => exact (execSwTriggerDue_changes ..).keeps
  | fillComplete => exact (execFillComplete_changes ..).keeps
  | holdoffExpiry => exact (execHoldoffExpiry_changes ..).keeps
  | trigoutPulseStart => exact (execTrigoutPulseStart_changes ..).keeps
  | trigoutPulseEnd => exact (execTrigoutPulseEnd_changes ..).keeps
  | trigoutLevelChange => exact (execTrigoutLevelChange_changes ..).keeps
  | recordBlockWritten => exact (execRecordBlockWritten_changes ..).keeps
  | recordComplete => exact (execRecordComplete_changes ..).keeps
  | accumulationCommit => exact (execAccumulationCommit_changes ..).keeps
  | snapshotComplete => exact (execSnapshotComplete_changes ..).keeps
  | memRequest => exact (execMemRequest_changes ..).keeps
  | memReadReturn => exact (execMemReadReturn_changes ..).keeps
  | refreshDue => exact (execRefreshDue_changes ..).keeps
  | neighbourRefreshForced => exact (execNeighbourRefreshForced_changes ..).keeps
  | descriptorTake => exact (execDescriptorTake_changes ..).keeps
  | readoutBlockRead => exact (execReadoutBlockRead_changes ..).keeps
  | streamFlushTimeout => exact (execStreamFlushTimeout_changes ..).keeps
  | irqTimerExpiry => exact (execIrqTimerExpiry_changes ..).keeps
  | calDrainDone => exact (execCalDrainDone_changes ..).keeps
  | calDrainTimeout => exact (execCalDrainTimeout_changes ..).keeps
  | calLeakageEnd => exact (execCalLeakageEnd_changes ..).keeps
  | calIsolateEnd => exact (execCalIsolateEnd_changes ..).keeps
  | calSourceSettled => exact (execCalSourceSettled_changes ..).keeps
  | calRefTransferEnd => exact (execCalRefTransferEnd_changes ..).keeps
  | calRunAEnd => exact (execCalRunAEnd_changes ..).keeps
  | calRunBEnd => exact (execCalRunBEnd_changes ..).keeps
  | calCompareEnd => exact (execCalCompareEnd_changes ..).keeps
  | calRestoreEnd => exact (execCalRestoreEnd_changes ..).keeps
  | calStopDone => exact (execCalStopDone_changes ..).keeps
  | calHeldWordsEnd => exact (execCalHeldWordsEnd_changes ..).keeps
  | heldTriggerResume => exact (execHeldTriggerResume_changes ..).keeps
  | switchTimeout => exact (execSwitchTimeout_changes ..).keeps
  | changeover => exact (execChangeover_changes ..).keeps
  | gatherReopen => exact (execGatherReopen_changes ..).keeps
  | bgGatherDue => exact (execBgGatherDue_changes ..).keeps
  | quadTempReading => exact (execQuadTempReading_changes ..).keeps
  | bandSearchDone => exact (execBandSearchDone_changes ..).keeps
  | acquisitionDone => exact (execAcquisitionDone_changes ..).keeps
  | commonStart => exact (execCommonStart_changes ..).keeps
  | syncEdge => exact (execSyncEdge_changes ..).keeps
  | syncTimeout => exact (execSyncTimeout_changes ..).keeps
  | refLost => exact (execRefLost_changes ..).keeps
  | refReturned => exact (execRefReturned_changes ..).keeps
  | slewEnd => exact (execSlewEnd_changes ..).keeps
  | fallbackSwitch => exact (execFallbackSwitch_changes ..).keeps
  | clockRestore => exact (execClockRestore_changes ..).keeps
  | fallbackStandby => exact (execFallbackStandby_changes ..).keeps
  | sampleClockStop => exact (execSampleClockStop_changes ..).keeps
  | sampleClockRestart => exact (execSampleClockRestart_changes ..).keeps
  | keeperTrim => exact (execKeeperTrim_changes ..).keeps
  | stimStartInstant => exact (execStimStartInstant_changes ..).keeps
  | stimDecisionPoint => exact (execStimDecisionPoint_changes ..).keeps
  | stimBoundary => exact (execStimBoundary_changes ..).keeps
  | stimEntryEffect => exact (execStimEntryEffect_changes ..).keeps
  | stimStopRampStart => exact (execStimStopRampStart_changes ..).keeps
  | stimStopRampEnd => exact (execStimStopRampEnd_changes ..).keeps
  | stimMuteRampEnd => exact (execStimMuteRampEnd_changes ..).keeps
  | monRefSettled => exact (execMonRefSettled_changes ..).keeps
  | pwrOkRise => exact (execPwrOkRise_changes ..).keeps
  | pwrOkFall => exact (execPwrOkFall_changes ..).keeps
  | perstNAssert => exact (execPerstNAssert_changes ..).keeps
  | perstNRelease => exact (execPerstNRelease_changes ..).keeps
  | selfCalStart => exact (execSelfCalStart_changes ..).keeps
  | smbIdent => exact (execSmbIdent_changes ..).keeps
  | smbEngine => exact (execSmbEngine_changes ..).keeps
  | smbBoot => exact (execSmbBoot_changes ..).keeps
  | smbPins => exact (execSmbPins_changes ..).keeps
  | smbTemps => exact (execSmbTemps_changes ..).keeps
  | smbUniqueId => exact (execSmbUniqueId_changes ..).keeps
  | smbEvents => exact (execSmbEvents_changes ..).keeps
  | smbWriteReject => exact (execSmbWriteReject_changes ..).keeps
  | smbAlertResponse => exact (execSmbAlertResponse_changes ..).keeps
  | tapReset => exact (execTapReset_changes ..).keeps
  | extest => exact (execExtest_changes ..).keeps
  | idcode => exact (execIdcode_changes ..).keeps
  | samplePreload => exact (execSamplePreload_changes ..).keeps
  | clamp => exact (execClamp_changes ..).keeps
  | highz => exact (execHighz_changes ..).keeps
  | extestPulse => exact (execExtestPulse_changes ..).keeps
  | extestTrain => exact (execExtestTrain_changes ..).keeps
  | bypass => exact (execBypass_changes ..).keeps
  | smbusTimeout => exact (execSmbusTimeout_changes ..).keeps
  | pageTimerExpiry => exact (execPageTimerExpiry_changes ..).keeps
  | commandReceive => exact (execCommandReceive_changes ..).keeps
  | interimNotice => exact (execInterimNotice_changes ..).keeps
  | cmdTailDoorbell => exact (execCmdTailDoorbell_changes ..).keeps
  | bootDoorbell => exact (execBootDoorbell_changes ..).keeps
  | descTailDoorbell => exact (execDescTailDoorbell_changes ..).keeps
  | cplHeadDoorbell => exact (execCplHeadDoorbell_changes ..).keeps
  | lowHalfRead => exact (execLowHalfRead_changes ..).keeps
  | highHalfRead => exact (execHighHalfRead_changes ..).keeps
  | atomic64Read => exact (execAtomic64Read_changes ..).keeps
  | rcFieldRead => exact (execRcFieldRead_changes ..).keeps
  | halfOrderClear => exact (execHalfOrderClear_changes ..).keeps
  | monCtrlConvert => exact (execMonCtrlConvert_changes ..).keeps
  | registerWrite => exact (execRegisterWrite_changes ..).keeps
  | take => exact (execTake_changes ..).keeps
  | post t core value => exact (execPost_changes t core value s).keeps
  | eventPost t core addr => exact (execEventPost_changes t core addr s).keeps
  | commit t core value => exact (execCommit_changes t core value s).keeps
  | wdtKick => exact (execWdtKick_changes ..).keeps
  | scOverrunClear => exact (execScOverrunClear_changes ..).keeps
  | scClockPlan => exact (execScClockPlan_changes ..).keeps
  | scClockSync => exact (execScClockSync_changes ..).keeps
  | scSlew => exact (execScSlew_changes ..).keeps
  | scMemClock => exact (execScMemClock_changes ..).keeps
  | scQuadPower => exact (execScQuadPower_changes ..).keeps
  | scCalOpen => exact (execScCalOpen_changes ..).keeps
  | scCalSwitch => exact (execScCalSwitch_changes ..).keeps
  | scCalClose => exact (execScCalClose_changes ..).keeps
  | scGroveIdentity => exact (execScGroveIdentity_changes ..).keeps
  | scWdtConfig => exact (execScWdtConfig_changes ..).keeps
  | scReady => exact (execScReady_changes ..).keeps
  | scSubmit => exact (execScSubmit_changes ..).keeps
  | scRestart => exact (execScRestart_changes ..).keeps
  | scFault => exact (execScFault_changes ..).keeps
  | scKeys => exact (execScKeys_changes ..).keeps
  | watchdogExpiry => exact (execWatchdogExpiry_changes ..).keeps
  | firewallFault => exact (execFirewallFault_changes ..).keeps
  | doubleTrap => exact (execDoubleTrap_changes ..).keeps
  | restartVerifyDone => exact (execRestartVerifyDone_changes ..).keeps
  | sapwoodReadyTimeout => exact (execSapwoodReadyTimeout_changes ..).keeps
  | sampleLinkBlock => exact (execSampleLinkBlock_changes ..).keeps
  | linkRetrainDone => exact (execLinkRetrainDone_changes ..).keeps
  | quadRetimingDone => exact (execQuadRetimingDone_changes ..).keeps
  | inputSettled => exact (execInputSettled_changes ..).keeps
  | stackTempReading => exact (execStackTempReading_changes ..).keeps
  | stripeReinitDone => exact (execStripeReinitDone_changes ..).keeps
  | memClockRelocked => exact (execMemClockRelocked_changes ..).keeps
  | trainingPassDone => exact (execTrainingPassDone_changes ..).keeps
  | memInitDone => exact (execMemInitDone_changes ..).keeps
  | completionPost => exact (execCompletionPost_changes ..).keeps
  | calResultsFormed => exact (execCalResultsFormed_changes ..).keeps
  | lockWindowEnd => exact (execLockWindowEnd_changes ..).keeps
  | lockLost => exact (execLockLost_changes ..).keeps
  | planHopTimeout => exact (execPlanHopTimeout_changes ..).keeps
  | xoLost => exact (execXoLost_changes ..).keeps
  | sqRephaseDone => exact (execSqRephaseDone_changes ..).keeps
  | segmentReadbackDone => exact (execSegmentReadbackDone_changes ..).keeps
  | monConversion => exact (execMonConversion_changes ..).keeps
  | railFault => exact (execRailFault_changes ..).keeps
  | selftestDone => exact (execSelftestDone_changes ..).keeps
  | lockTimeout => exact (execLockTimeout_changes ..).keeps
  | quadStartTimeout => exact (execQuadStartTimeout_changes ..).keeps
  | selfCalPhaseEnd => exact (execSelfCalPhaseEnd_changes ..).keeps
  | readyCallTimeout => exact (execReadyCallTimeout_changes ..).keeps
  | laneLockLost => exact (execLaneLockLost_changes ..).keeps
  | fastRetrainDone => exact (execFastRetrainDone_changes ..).keeps
  | boughBlockReceive => exact (execBoughBlockReceive_changes ..).keeps
  | blockReplayTimeout => exact (execBlockReplayTimeout_changes ..).keeps
  | messageAgeExpiry => exact (execMessageAgeExpiry_changes ..).keeps
  | unicast => exact (execUnicast_changes ..).keeps
  | up => exact (execUp_changes ..).keeps
  | flood => exact (execFlood_changes ..).keeps
  | path => exact (execPath_changes ..).keeps
  | hello => exact (execHello_changes ..).keeps
  | joinAccept => exact (execJoinAccept_changes ..).keeps
  | joinRefuse => exact (execJoinRefuse_changes ..).keeps
  | orphanNotice => exact (execOrphanNotice_changes ..).keeps
  | epochSet => exact (execEpochSet_changes ..).keeps
  | saplingSet => exact (execSaplingSet_changes ..).keeps
  | groveTrigger => exact (execGroveTrigger_changes ..).keeps
  | triggerRequest => exact (execTriggerRequest_changes ..).keeps
  | groveBroadcast => exact (execGroveBroadcast_changes ..).keeps
  | requestForward => exact (execRequestForward_changes ..).keeps
  | rangeReq => exact (execRangeReq_changes ..).keeps
  | rangeReply => exact (execRangeReply_changes ..).keeps
  | rangeResult => exact (execRangeResult_changes ..).keeps
  | pack => exact (execPack_changes ..).keeps
  | pframeResend => exact (execPframeResend_changes ..).keeps
  | rangeExchange => exact (execRangeExchange_changes ..).keeps
  | rangeComplete => exact (execRangeComplete_changes ..).keeps
  | trackingRange => exact (execTrackingRange_changes ..).keeps
  | orphanTimeout => exact (execOrphanTimeout_changes ..).keeps
  | saplingTimeout => exact (execSaplingTimeout_changes ..).keeps
  | imageAuthDone => exact (execImageAuthDone_changes ..).keeps
  | blockLock => exact (execBlockLock_changes ..).keeps

/-- Settles O44: what every row keeps includes the queue, the size of the part and the forward run of time. -/
theorem timeNeverRunsBack : Obligations.TimeNeverRunsBack := by
  intro i s u h
  have k := exec_keeps i s u h
  exact ⟨k.pending, k.is96, k.time⟩

end Sys2Proof.Machine
end

section
/-!
Commands turned away (R335, R342, R350 to R357): what the card of a command with a SELECT word finds against it, and a ticket that is outdated.
-/
namespace Sys2Proof.Machine
open Sys2Proof.Laws

theorem selOk_word (k : BitVec 32) (rest : Bytes) : selOk (leBytes 4 k.toNat ++ rest) = decide (k.toNat < 65536) := by
  rw [selOk, word_here, bits, Nat.shiftRight_eq_div_pow]
  have := k.isLt
  rw [Bool.eq_iff_iff]
  simp only [beq_iff_eq, decide_eq_true_eq]
  omega

/-- A card whose payload begins with a SELECT word of n objects: what steps 8 to 14 of R335 find against its index,
where its other reserved bits are zero, and where nothing can be busy. -/
structure Card.Selects (c : Card) (b : Bytes) (n reason : Nat) (states : List Nat) (clean : Bool) (calm : Prop) : Prop where
  states : c.states = states
  marks : c.pcieOnly = false ∧ c.boughOnly = false ∧ c.own = false
  reserved : c.reservedOk = (selOk b && clean)
  busy : n ≤ selIndex b ∨ calm → ∀ s, c.busy s = none
  refuses : n ≤ selIndex b → ∀ s, c.checks s = some (Reply.refused reason)
  counts : ∀ r s, r.status ≠ 3 ∨ n ≤ selIndex b → c.onRefused r s = s

theorem cardInputConfig_selects (b : Bytes) :
    (cardInputConfig b).Selects b 16 0x0205 setC (fld (structAt 32 b 4) 16 12 == 0) True where
  states := rfl
  marks := ⟨rfl, rfl, rfl⟩
  reserved := rfl
  busy _ _ := rfl
  refuses h s := by simp [cardInputConfig, firstOf, h, Nat.not_lt.mpr h]
  counts _ _ _ := rfl

theorem cardQuadFusion_selects (b : Bytes) :
    (cardQuadFusion b).Selects b 4 0x0205 setC (onlyBits (word b 1) 3) False where
  states := rfl
  marks := ⟨rfl, rfl, rfl⟩
  reserved := rfl
  busy h s := by
    have h := h.resolve_right id
    simp [cardQuadFusion, firstOf, Nat.not_lt.mpr h]
  refuses h s := by simp [cardQuadFusion, firstOf, h, Nat.not_lt.mpr h]
  counts _ _ _ := rfl

theorem cardQuadPower_selects (b : Bytes) :
    (cardQuadPower b).Selects b 4 0x0205 setC (onlyBits (word b 1) 1) False where
  states := rfl
  marks := ⟨rfl, rfl, rfl⟩
  reserved := rfl
  busy h s := by
    have h := h.resolve_right id
    simp [cardQuadPower, firstOf, Nat.not_lt.mpr h]
  refuses h s := by simp [cardQuadPower, firstOf, h, Nat.not_lt.mpr h]
  counts _ _ _ := rfl

theorem cardTuConfig_selects (b : Bytes) :
    (cardTuConfig b).Selects b 8 0x0302 setC (zeroFields (structAt 256 b 4) [(40, 44), (1, 21)]) True where
  states := rfl
  marks := ⟨rfl, rfl, rfl⟩
  reserved := rfl
  busy _ _ := rfl
  refuses h s := by simp [cardTuConfig, firstOf, h, Nat.not_lt.mpr h]
  counts _ _ _ := rfl

theorem cardCmpConfig_selects (b : Bytes) :
    (cardCmpConfig b).Selects b 16 0x0308 setC (fld (structAt 32 b 4) 0 4 == 0) True where
  states := rfl
  marks := ⟨rfl, rfl, rfl⟩
  reserved := rfl
  busy _ _ := rfl
  refuses h s := by simp [cardCmpConfig, firstOf, h, Nat.not_lt.mpr h]
  counts _ _ _ := rfl

theorem cardCombinerConfig_selects (b : Bytes) :
    (cardCombinerConfig b).Selects b 4 0x0304 setC (zeroFields (structAt 128 b 4) [(32, 15), (0, 12)]) True where
  states := rfl
  marks := ⟨rfl, rfl, rfl⟩
  reserved := rfl
  busy _ _ := rfl
  refuses h s := by simp [cardCombinerConfig, firstOf, h, Nat.not_lt.mpr h]
  counts _ _ _ := rfl

theorem cardSwTrigger_selects (b : Bytes) :
    (cardSwTrigger b).Selects b 8 0x0309 setW (onlyBits (word b 1) 1 && (bit (word b 1) 0 || leAt b 8 8 = 0)) False where
  states := rfl
  marks := ⟨rfl, rfl, rfl⟩
  reserved := Bool.and_assoc ..
  busy h s := by
    have h := h.resolve_right id
    simp [cardSwTrigger, firstOf, Nat.not_lt.mpr h]
  refuses h s := by simp [cardSwTrigger, firstOf, h, Nat.not_lt.mpr h]
  counts _ _ _ := rfl

theorem cardTrigoutConfig_selects (b : Bytes) :
    (cardTrigoutConfig b).Selects b 4 0x030B setC (zeroFields (structAt 64 b 4) [(11, 17), (2, 6)]) True where
  states := rfl
  marks := ⟨rfl, rfl, rfl⟩
  reserved := rfl
  busy _ _ := rfl
  refuses h s := by simp [cardTrigoutConfig, firstOf, h]
  counts _ _ _ := rfl

theorem cardCaptureConfig_selects (b : Bytes) :
    (cardCaptureConfig b).Selects b 4 0x0409 setC (zeroFields (structAt 384 b 4) [(240, 24), (64, 39), (0, 41)]) True where
  states := rfl
  marks := ⟨rfl, rfl, rfl⟩
  reserved := rfl
  busy _ _ := rfl
  refuses h s := by simp [cardCaptureConfig, firstOf, h, Nat.not_lt.mpr h]
  counts _ _ _ := rfl

theorem cardDecimConfig_selects (b : Bytes) :
    (cardDecimConfig b).Selects b 4 0x040B setC (zeroFields (structAt 128 b 4) [(81, 15), (5, 59)]) True where
  states := rfl
  marks := ⟨rfl, rfl, rfl⟩
  reserved := rfl
  busy _ _ := rfl
  refuses h s := by simp [cardDecimConfig, firstOf, h, Nat.not_lt.mpr h]
  counts _ _ _ := rfl

theorem cardAccConfig_selects (b : Bytes) :
    (cardAccConfig b).Selects b 4 0x0505 setC (zeroFields (structAt 256 b 4) [(128, 31), (72, 8), (2, 62)]) True where
  states := rfl
  marks := ⟨rfl, rfl, rfl⟩
  reserved := rfl
  busy _ _ := rfl
  refuses h s := by simp [cardAccConfig, firstOf, h, Nat.not_lt.mpr h]
  counts _ _ _ := rfl

theorem cardAccSnapshot_selects (b : Bytes) :
    (cardAccSnapshot b).Selects b 4 0x0505 setW true False where
  states := rfl
  marks := ⟨rfl, rfl, rfl⟩
  reserved := (Bool.and_true _).symm
  busy h s := by
    have h := h.resolve_right id
    simp [cardAccSnapshot, firstOf, Nat.not_lt.mpr h]
  refuses h s := by simp [cardAccSnapshot, firstOf, h, Nat.not_lt.mpr h]
  counts _ _ _ := rfl

theorem cardMemPortConfig_selects (b : Bytes) :
    (cardMemPortConfig b).Selects b 23 0x0604 setS (zeroFields (structAt 64 b 4) [(4, 28), (0, 2)]) True where
  states := rfl
  marks := ⟨rfl, rfl, rfl⟩
  reserved := rfl
  busy _ _ := rfl
  refuses h s := by
    have h16 : ¬ selIndex b < 16 := by omega
    have h15 : ¬ selIndex b = 21 := by omega
    simp [cardMemPortConfig, firstOf, State.portUsers, h, h16, h15]
  counts _ _ _ := rfl

theorem cardReadoutRings_selects (b : Bytes) :
    (cardReadoutRings b).Selects b 4 0x0701 setC (zeroFields (structAt 256 b 4) [(96, 13), (3, 45)]) True where
  states := rfl
  marks := ⟨rfl, rfl, rfl⟩
  reserved := rfl
  busy _ _ := rfl
  refuses h s := by simp [cardReadoutRings, firstOf, h, Nat.not_lt.mpr h]
  counts _ _ _ := rfl

theorem cardCalSliceQuery_selects (b : Bytes) :
    (cardCalSliceQuery b).Selects b 16 0x0802 setS true True where
  states := rfl
  marks := ⟨rfl, rfl, rfl⟩
  reserved := (Bool.and_true _).symm
  busy _ _ := rfl
  refuses h s := by simp [cardCalSliceQuery, firstOf, h]
  counts _ _ _ := rfl

/-- A segment beyond the 4,096 of R292 is invalid whatever its definition. -/
theorem segInvalid_high {i : Nat} (h : 4096 ≤ i) (q : Stim) (d : BitVec 128) : q.segInvalid i d = true := by
  unfold Stim.segInvalid
  exact if_pos h

theorem cardSegmentDefine_selects (b : Bytes) :
    (cardSegmentDefine b).Selects b 4096 0x0902 setT (!flag (structAt 128 b 4) 0) True where
  states := rfl
  marks := ⟨rfl, rfl, rfl⟩
  reserved := rfl
  busy _ _ := rfl
  refuses h s := by simp [cardSegmentDefine, firstOf, orElse', segInvalid_high h, Nat.not_lt.mpr h]
  counts r s h := by
    refine if_neg fun ⟨h3, hi⟩ => ?_
    exact h.elim (absurd h3) fun h => hi (segInvalid_high h _ _)

theorem cardMonWindowSet_selects (b : Bytes) :
    (cardMonWindowSet b).Selects b 8 0x0A01 setS (zeroFields (structAt 64 b 4) [(48, 11), (1, 11)]) True where
  states := rfl
  marks := ⟨rfl, rfl, rfl⟩
  reserved := rfl
  busy _ _ := rfl
  refuses h s := by simp [cardMonWindowSet, firstOf, h, Nat.not_lt.mpr h]
  counts _ _ _ := rfl

/-- A query twin with a SELECT word (R353). -/
theorem queryCard_selects (op : Nat) (b : Bytes) (n reason : Nat) (get : State → Nat → Bytes) (hn : n ≠ 0) :
    (queryCard op b n reason get).Selects b n reason setQ true True where
  states := rfl
  marks := ⟨rfl, rfl, rfl⟩
  reserved := by simp [queryCard, hn]
  busy _ _ := rfl
  refuses h s := by simp [queryCard, firstOf, hn, h]
  counts _ _ _ := rfl
/-- What a command with a SELECT word k of n objects is answered where it is turned away (R352, R353, R356). -/
def State.TurnsAway (s : State) (h : Hdr) (k : BitVec 32) (i : Instr) (op n reason : Nat) (states : List Nat) (rest : Bytes) (clean calm : Prop) : Prop :=
  s.Hears h op →
    let b := leBytes 4 k.toNat ++ rest
    (65536 ≤ k.toNat → s.Refuses i h op b (Reply.bad 0x0004)) ∧
    (k.toNat < 65536 → clean → (n ≤ k.toNat ∨ calm) → s.engineState ∉ states → s.Refuses i h op b (Reply.state 0x0010 0)) ∧
    (k.toNat < 65536 → clean → n ≤ k.toNat → s.engineState ∈ states → s.Refuses i h op b (Reply.refused reason))

theorem Card.judge_reserved {c : Card} (hr : c.reservedOk = false) (h : Hdr) (b : Bytes) (s : State) : c.judge h b s = some (Reply.bad 0x0004) := by
  simp [Card.judge, hr]

/-- Past steps 8 to 10 the engine state decides, and then the card's own checks (R335, R357). -/
theorem Card.judge_admitted {c : Card} {h : Hdr} {s : State} (hh : headerOk h = true) (hr : c.reservedOk = true) (ha : c.admits h = true)
    (hz : c.sizeOk = true) (hb : c.busy s = none) (b : Bytes) :
    c.judge h b s = if s.engineState ∈ c.states then c.checks s else some (Reply.state 0x0010 0) := by
  by_cases he : s.engineState ∈ c.states <;> simp [Card.judge, hh, hr, ha, hz, hb, he]

/-- A command of a card with a SELECT word is turned away as its card says. -/
theorem Card.Selects.turnsAway {c : Card} {n reason : Nat} {states : List Nat} {ok : Bool} {calm clean : Prop} {k : BitVec 32} {rest : Bytes}
    (q : c.Selects (leBytes 4 k.toNat ++ rest) n reason states ok calm) {s : State} {h : Hdr} {i : Instr} {op : Nat}
    (row : exec i s = .next (s.command h op (leBytes 4 k.toNat ++ rest))) (hc : cardOf op (leBytes 4 k.toNat ++ rest) = some c) (hop : op ≠ 0x10000)
    (hl : rest.length % 4 = 0 ∧ rest.length ≤ 4092) (hz : c.sizeOk = true) (hok : clean → ok = true) :
    s.TurnsAway h k i op n reason states rest clean calm := by
  intro hear b
  have hb : b.length % 4 = 0 ∧ b.length ≤ 4096 := by simp only [b, List.length_append, leBytes_length]; omega
  have hres : c.reservedOk = (decide (k.toNat < 65536) && ok) := by rw [q.reserved, selOk_word]
  have hadm : c.admits h = true := by
    obtain ⟨m1, m2, m3⟩ := q.marks
    simp [Card.admits, m1, m2, m3]
  have judged : k.toNat < 65536 → clean → (n ≤ k.toNat ∨ calm) →
      c.judge h b (s.heard h op b) = if s.engineState ∈ states then c.checks (s.heard h op b) else some (Reply.state 0x0010 0) := by
    intro hk hcl hcalm
    rw [Card.judge_admitted hear.flags.2 (by simp [hres, hk, hok hcl]) hadm hz (q.busy (by rwa [selIndex_here k rest hk]) _), q.states]
    rfl
  refine ⟨fun hk => ?_, fun hk hcl hcalm he => ?_, fun hk hcl hn he => ?_⟩
  · have hr : c.reservedOk = false := by simp [hres, Nat.not_lt.mpr hk]
    exact row.trans (congrArg _ (hear.turns hb hop (by decide) hc (Card.judge_reserved hr ..) (q.counts _ _ (.inl (by decide)))))
  · have hj := judged hk hcl hcalm
    rw [if_neg he] at hj
    exact row.trans (congrArg _ (hear.turns hb hop (by decide) hc hj (q.counts _ _ (.inl (by decide)))))
  · have hj := judged hk hcl (.inl hn)
    have hi : n ≤ selIndex (leBytes 4 k.toNat ++ rest) := by rwa [selIndex_here k rest hk]
    rw [if_pos he, q.refuses hi] at hj
    exact row.trans (congrArg _ (hear.turns hb hop (Nat.succ_ne_zero _) hc hj (q.counts _ _ (.inr hi))))

/-- A query twin with a SELECT word is turned away by its index (R353). -/
theorem State.queryTurnsAway {s : State} {h : Hdr} {k : BitVec 32} {i : Instr} {op n reason : Nat} {get : State → Nat → Bytes}
    (row : exec i s = .next (s.command h op (leBytes 4 k.toNat)))
    (hc : cardOf op (leBytes 4 k.toNat ++ []) = some (queryCard op (leBytes 4 k.toNat ++ []) n reason get)) (hop : op ≠ 0x10000) (hn : n ≠ 0) :
    s.TurnsAway h k i op n reason setQ [] True True :=
  (queryCard_selects op _ n reason get hn).turnsAway (by rwa [List.append_nil]) hc hop (by decide) (by simp [queryCard, hn]) fun _ => rfl

/-- The same for a card whose reserved bits are those of a structure of j bytes after SELECT (R351). -/
theorem Card.Selects.structTurnsAway (j : Nat) {cfg : BitVec (8 * j)} (f : BitVec (8 * j) → Bool) {c : Card} {n reason : Nat} {states : List Nat}
    {calm clean : Prop} {k : BitVec 32}
    (q : c.Selects (leBytes 4 k.toNat ++ leBytes j cfg.toNat) n reason states (f (structAt (8 * j) (leBytes 4 k.toNat ++ leBytes j cfg.toNat) 4)) calm)
    {s : State} {h : Hdr} {i : Instr} {op : Nat} (row : exec i s = .next (s.command h op (leBytes 4 k.toNat ++ leBytes j cfg.toNat)))
    (hc : cardOf op (leBytes 4 k.toNat ++ leBytes j cfg.toNat) = some c) (hop : op ≠ 0x10000) (hj : j % 4 = 0 ∧ j ≤ 4092) (hz : c.sizeOk = true)
    (hok : clean → f cfg = true) : s.TurnsAway h k i op n reason states (leBytes j cfg.toNat) clean calm :=
  q.turnsAway row hc hop (by rwa [leBytes_length]) hz (by rwa [structAt_past j k cfg])

/-- A command marked P that comes over another path draws BAD_PACKET 0x0005 (R355). -/
theorem State.Hears.otherPath {s : State} {h : Hdr} {op : Nat} (k : s.Hears h op) {i : Instr} {b : Bytes} (row : exec i s = .next (s.command h op b))
    {c : Card} (hc : cardOf op b = some c) (hb : b.length % 4 = 0 ∧ b.length ≤ 4096) (hop : op ≠ 0x10000) (hp : h.path ≠ .pcie)
    (m : c.pcieOnly = true ∧ c.boughOnly = false) (hr : c.reservedOk = true) (ho : ∀ r s, c.onRefused r s = s) :
    s.Refuses i h op b (Reply.bad 0x0005) := by
  have hj : c.judge h b (s.heard h op b) = some (Reply.bad 0x0005) := by
    simp [Card.judge, k.flags.2, hr, Card.admits, m.1, m.2, hp, State.hostProbe]
  exact row.trans (congrArg _ (k.turns hb hop (by decide) hc hj (ho _ _)))

/-- What a discarded command leaves (R342): its path's STALE_TICKETS counts one, and the bootstrap mailbox is free again. -/
def State.staled (s : State) (h : Hdr) : State :=
  let v := (s.advance h.tick).countPath h.path fun c => { c with staleTickets := c.staleTickets + 1 }
  if h.path = .pcie ∧ s.ringOn = false then v.onHost fun x => { x with bootBusy := false } else v

theorem State.countPath_waits (s : State) (p : Path) (f : PathCounters → PathCounters) : s.waitsAs (s.countPath p f) := by
  refine ⟨fun q => ?_, rfl, rfl, rfl, fun _ => rfl⟩
  by_cases hq : p = q
  · subst hq; simp [State.countPath]
  · exact congrArg PathState.queue (State.path_onPath_ne s p q _ hq)

theorem State.staled_waits (s : State) (h : Hdr) : s.waitsAs (s.staled h) := by
  have hv := (s.advance h.tick).countPath_waits h.path fun c => { c with staleTickets := c.staleTickets + 1 }
  unfold State.staled
  dsimp only
  split
  · exact hv
  · exact hv

/-- A command whose ticket is outdated is discarded on arrival, with no reply (R342). -/
theorem State.Reaches.stale {s : State} {h : Hdr} {op : Nat} (k : s.Reaches h op) {i : Instr} {b : Bytes} (row : exec i s = .next (s.command h op b))
    (hb : b.length % 4 = 0 ∧ b.length ≤ 4096) {g : Nat} (hg : (s.path h.path).lastGen h.tag = some g) (hn : newerGen h.gen g = false) :
    exec i s = .next (s.staled h) := by
  have hg' : ((s.advance h.tick).path h.path).lastGen h.tag = some g := hg
  have he : s.arrive h op b = s.staled h := by
    rw [k.enters b hb]
    unfold State.enqueue
    have eh : (newEntry h op b (s.advance h.tick).now false 0 0).hdr = h := rfl
    simp only [eh, hg', hn, Bool.not_false, if_true, Bool.not_eq_true]
    rfl
  rw [row, State.command, he, State.settle_idle _ (State.idle_as (s.staled_waits h) k.idle)]

theorem State.heard_frame (s : State) (h : Hdr) (op : Nat) (b : Bytes) : Frame [.paths, .fw] (s.advance h.tick) (s.heard h op b) := by
  have h1 : Frame [.paths] (s.advance h.tick) (s.arrived h op b) := onPath_frame _ _ _
  have h2 : Frame [.fw] (s.arrived h op b) (s.heard h op b) := onFw_frame _ (fun w => { w with turn := h.path.idx.val }) fun _ hw => hw
  exact h2.step rfl (h1.widen rfl)

theorem State.turned_frame (s : State) (h : Hdr) (op : Nat) (b : Bytes) (r : Reply) :
    Frame [.ring4, .paths, .host, .fw, .grove, .link] (s.advance h.tick) (s.turned h op b r) := by
  unfold State.turned
  exact (handReply_frame _ _ _ _ _ _ _).step rfl ((onPath_frame _ _ _).step rfl ((s.heard_frame h op b).widen rfl))

section
variable (s : State) (h : Hdr) (k : BitVec 32)

theorem State.inputConfig_turnsAway (cfg : BitVec 32) :
    s.TurnsAway h k (.inputConfig h k cfg) 0x0201 16 0x0205 setC (leBytes 4 cfg.toNat) (fld cfg 16 12 = 0) True :=
  (cardInputConfig_selects _).structTurnsAway 4 (fld · 16 12 == 0) rfl rfl (by decide) (by decide)
    (by simp [cardInputConfig]) (by simp)

theorem State.tuConfig_turnsAway (cfg : BitVec 256) :
    s.TurnsAway h k (.tuConfig h k cfg) 0x0301 8 0x0302 setC (leBytes 32 cfg.toNat) (fld cfg 40 44 = 0 ∧ fld cfg 1 21 = 0) True :=
  (cardTuConfig_selects _).structTurnsAway 32 (zeroFields · [(40, 44), (1, 21)]) rfl rfl (by decide) (by decide)
    (by simp [cardTuConfig]) (by simp [zeroFields])

theorem State.cmpConfig_turnsAway (cfg : BitVec 32) :
    s.TurnsAway h k (.cmpConfig h k cfg) 0x0302 16 0x0308 setC (leBytes 4 cfg.toNat) (fld cfg 0 4 = 0) True :=
  (cardCmpConfig_selects _).structTurnsAway 4 (fld · 0 4 == 0) rfl rfl (by decide) (by decide)
    (by simp [cardCmpConfig]) (by simp)

theorem State.combinerConfig_turnsAway (cfg : BitVec 128) :
    s.TurnsAway h k (.combinerConfig h k cfg) 0x0303 4 0x0304 setC (leBytes 16 cfg.toNat) (fld cfg 32 15 = 0 ∧ fld cfg 0 12 = 0) True :=
  (cardCombinerConfig_selects _).structTurnsAway 16 (zeroFields · [(32, 15), (0, 12)]) rfl rfl (by decide) (by decide)
    (by simp [cardCombinerConfig]) (by simp [zeroFields])

theorem State.trigoutConfig_turnsAway (cfg : BitVec 64) :
    s.TurnsAway h k (.trigoutConfig h k cfg) 0x0305 4 0x030B setC (leBytes 8 cfg.toNat) (fld cfg 11 17 = 0 ∧ fld cfg 2 6 = 0) True :=
  (cardTrigoutConfig_selects _).structTurnsAway 8 (zeroFields · [(11, 17), (2, 6)]) rfl rfl (by decide) (by decide)
    (by simp [cardTrigoutConfig]) (by simp [zeroFields])

theorem State.captureConfig_turnsAway (cfg : BitVec 384) :
    s.TurnsAway h k (.captureConfig h k cfg) 0x0401 4 0x0409 setC (leBytes 48 cfg.toNat) (fld cfg 240 24 = 0 ∧ fld cfg 64 39 = 0 ∧ fld cfg 0 41 = 0) True :=
  (cardCaptureConfig_selects _).structTurnsAway 48 (zeroFields · [(240, 24), (64, 39), (0, 41)]) rfl rfl (by decide) (by decide)
    (by simp [cardCaptureConfig]) (by simp [zeroFields])

theorem State.decimConfig_turnsAway (cfg : BitVec 128) :
    s.TurnsAway h k (.decimConfig h k cfg) 0x0402 4 0x040B setC (leBytes 16 cfg.toNat) (fld cfg 81 15 = 0 ∧ fld cfg 5 59 = 0) True :=
  (cardDecimConfig_selects _).structTurnsAway 16 (zeroFields · [(81, 15), (5, 59)]) rfl rfl (by decide) (by decide)
    (by simp [cardDecimConfig]) (by simp [zeroFields])

theorem State.accConfig_turnsAway (cfg : BitVec 256) :
    s.TurnsAway h k (.accConfig h k cfg) 0x0501 4 0x0505 setC (leBytes 32 cfg.toNat) (fld cfg 128 31 = 0 ∧ fld cfg 72 8 = 0 ∧ fld cfg 2 62 = 0) True :=
  (cardAccConfig_selects _).structTurnsAway 32 (zeroFields · [(128, 31), (72, 8), (2, 62)]) rfl rfl (by decide) (by decide)
    (by simp [cardAccConfig]) (by simp [zeroFields])

theorem State.memPortConfig_turnsAway (cfg : BitVec 64) :
    s.TurnsAway h k (.memPortConfig h k cfg) 0x0601 23 0x0604 setS (leBytes 8 cfg.toNat) (fld cfg 4 28 = 0 ∧ fld cfg 0 2 = 0) True :=
  (cardMemPortConfig_selects _).structTurnsAway 8 (zeroFields · [(4, 28), (0, 2)]) rfl rfl (by decide) (by decide)
    (by simp [cardMemPortConfig]) (by simp [zeroFields])

theorem State.readoutRings_turnsAway (cfg : BitVec 256) :
    s.TurnsAway h k (.readoutRings h k cfg) 0x0701 4 0x0701 setC (leBytes 32 cfg.toNat) (fld cfg 96 13 = 0 ∧ fld cfg 3 45 = 0) True :=
  (cardReadoutRings_selects _).structTurnsAway 32 (zeroFields · [(96, 13), (3, 45)]) rfl rfl (by decide) (by decide)
    (by simp [cardReadoutRings]) (by simp [zeroFields])

theorem State.seqSegmentDefine_turnsAway (cfg : BitVec 128) :
    s.TurnsAway h k (.seqSegmentDefine h k cfg) 0x0902 4096 0x0902 setT (leBytes 16 cfg.toNat) (flag cfg 0 = false) True :=
  (cardSegmentDefine_selects _).structTurnsAway 16 (!flag · 0) rfl rfl (by decide) (by decide)
    (by simp [cardSegmentDefine]) (by simp)

theorem State.monWindowSet_turnsAway (cfg : BitVec 64) :
    s.TurnsAway h k (.monWindowSet h k cfg) 0x0A02 8 0x0A01 setS (leBytes 8 cfg.toNat) (fld cfg 48 11 = 0 ∧ fld cfg 1 11 = 0) True :=
  (cardMonWindowSet_selects _).structTurnsAway 8 (zeroFields · [(48, 11), (1, 11)]) rfl rfl (by decide) (by decide)
    (by simp [cardMonWindowSet]) (by simp [zeroFields])

theorem State.quadFusion_turnsAway (w : BitVec 32) :
    s.TurnsAway h k (.quadFusion h k w) 0x0202 4 0x0205 setC (leBytes 4 w.toNat) (onlyBits w.toNat 3 = true) False :=
  (cardQuadFusion_selects _).turnsAway rfl rfl (by decide) (by simp) (by simp [cardQuadFusion]) fun hc => by rwa [word_second]

theorem State.quadPower_turnsAway (w : BitVec 32) :
    s.TurnsAway h k (.quadPower h k w) 0x0203 4 0x0205 setC (leBytes 4 w.toNat) (onlyBits w.toNat 1 = true) False :=
  (cardQuadPower_selects _).turnsAway rfl rfl (by decide) (by simp) (by simp [cardQuadPower]) fun hc => by rwa [word_second]

theorem State.swTrigger_turnsAway (w : BitVec 32) (tick : BitVec 64) :
    s.TurnsAway h k (.swTrigger h k w tick) 0x0304 8 0x0309 setW (leBytes 4 w.toNat ++ leBytes 8 tick.toNat)
      (onlyBits w.toNat 1 = true ∧ (bit w.toNat 0 = true ∨ tick.toNat = 0)) False := by
  have row : exec (.swTrigger h k w tick) s = .next (s.command h 0x0304 (leBytes 4 k.toNat ++ (leBytes 4 w.toNat ++ leBytes 8 tick.toNat))) := by
    rw [← List.append_assoc]; rfl
  refine (cardSwTrigger_selects _).turnsAway row rfl (by decide) (by simp) (by simp [cardSwTrigger]) fun hc => ?_
  have hw : word (leBytes 4 k.toNat ++ (leBytes 4 w.toNat ++ leBytes 8 tick.toNat)) 1 = w.toNat := by rw [word_next, word_here]
  have ht : leAt (leBytes 4 k.toNat ++ (leBytes 4 w.toNat ++ leBytes 8 tick.toNat)) 8 8 = tick.toNat := by
    rw [leAt_past _ _ 4 8 4 (leBytes_length ..), leAt_past _ _ 0 8 4 (leBytes_length ..), leAt_only]
    exact Nat.mod_eq_of_lt tick.isLt
  rw [hw, ht]
  simpa using hc

theorem State.accSnapshot_turnsAway : s.TurnsAway h k (.accSnapshot h k) 0x0502 4 0x0505 setW [] True False :=
  (cardAccSnapshot_selects _).turnsAway (by rw [List.append_nil]; rfl) rfl (by decide) (by decide) (by simp [cardAccSnapshot]) fun _ => rfl

theorem State.calSliceQuery_turnsAway : s.TurnsAway h k (.calSliceQuery h k) 0x0807 16 0x0802 setS [] True True :=
  (cardCalSliceQuery_selects _).turnsAway (by rw [List.append_nil]; rfl) rfl (by decide) (by decide) (by simp [cardCalSliceQuery]) fun _ => rfl

end

theorem State.Hears.keyInstall_otherPath {s : State} {h : Hdr} (k : s.Hears h 0x0C01) (hp : h.path ≠ .pcie) (x y : BitVec 384) :
    s.Refuses (.keyInstall h x y) h 0x0C01 (leBytes 48 x.toNat ++ leBytes 48 y.toNat) (Reply.bad 0x0005) :=
  k.otherPath rfl (c := cardKeyInstall _) rfl (by simp) (by decide) hp ⟨rfl, rfl⟩ rfl fun _ _ => rfl

theorem State.Hears.cmdRingSetup_otherPath {s : State} {h : Hdr} (k : s.Hears h 0x0003) (hp : h.path ≠ .pcie) (setup : BitVec 256)
    (h1 : fld setup 96 13 = 0) (h2 : fld setup 1 63 = 0) :
    s.Refuses (.cmdRingSetup h setup) h 0x0003 (leBytes 32 setup.toNat) (Reply.bad 0x0005) := by
  have hr : (cardCmdRingSetup (leBytes 32 setup.toNat)).reservedOk = true := by
    unfold cardCmdRingSetup
    rw [structAt_only 32 setup]
    simp [zeroFields, h1, h2]
  exact k.otherPath rfl (c := cardCmdRingSetup (leBytes 32 setup.toNat)) rfl (by simp) (by decide) hp ⟨rfl, rfl⟩ hr fun _ _ => rfl

/-- Settles O50: the cards of the commands with a SELECT word, their query twins, the mark P, outdated tickets, and the frame of a command turned away. -/
theorem commandsTurnedAwayHaveNoEffect : Obligations.CommandsTurnedAwayHaveNoEffect := by
  intro s h k
  refine ⟨s.inputConfig_turnsAway h k, s.quadFusion_turnsAway h k, s.quadPower_turnsAway h k, s.tuConfig_turnsAway h k, s.cmpConfig_turnsAway h k,
    s.combinerConfig_turnsAway h k, s.swTrigger_turnsAway h k, s.trigoutConfig_turnsAway h k, s.captureConfig_turnsAway h k,
    s.decimConfig_turnsAway h k, s.accConfig_turnsAway h k, s.accSnapshot_turnsAway h k, s.memPortConfig_turnsAway h k, s.readoutRings_turnsAway h k,
    s.calSliceQuery_turnsAway h k, s.seqSegmentDefine_turnsAway h k, s.monWindowSet_turnsAway h k,
    ?_, ?_, ?_, ?_, ?_, ?_, ?_, ?_, ?_, ?_, ?_, ?_, ?_, ?_, ?_,
    fun x y setup hp => ⟨fun k => k.keyInstall_otherPath hp x y, fun k => k.cmdRingSetup_otherPath hp setup⟩, ?stale, s.turned_frame h⟩
  case stale =>
    rintro i op b g row k hg hn
    obtain ⟨rfl, rfl, rfl⟩ | ⟨rfl, rfl, rfl⟩ | ⟨rfl, rfl, rfl⟩ | ⟨w, rfl, rfl, rfl⟩ := row
    · exact k.stale rfl (by decide) hg hn
    · exact k.stale rfl (by decide) hg hn
    · exact k.stale rfl (by decide) hg hn
    · exact k.stale rfl (by simp) hg hn
  all_goals exact State.queryTurnsAway rfl rfl (by decide) (by decide)
end Sys2Proof.Machine
end

section
/-!
The time of a crossing (R72 to R74): the bounds of U, and what the rounding of V to the grid of F samples per tick does to them.
-/
namespace Sys2Proof.Machine

/-- U of R72 is clamped. -/
theorem uOf_range (n d : Int) : 1 ≤ uOf n d ∧ uOf n d ≤ 2 ^ 32 := by
  unfold uOf clampInt
  split
  · decide
  · split <;> omega

theorem linearU_range (a b level : Int) : 1 ≤ linearU a b level ∧ linearU a b level ≤ 2 ^ 32 := by
  unfold linearU
  split <;> exact uOf_range _ _

/-- A part of at most the whole, rounded to a multiple of 2^-32, is at most the whole. -/
theorem roundDiv_part_le {x d : Int} (h0 : 0 ≤ x) (h1 : x ≤ d) (hd : 0 < d) : roundDiv (x * 2 ^ 32) d.toNat ≤ 2 ^ 32 := by
  obtain ⟨d, rfl⟩ := Int.eq_ofNat_of_zero_le (Int.le_of_lt hd)
  obtain ⟨x, rfl⟩ := Int.eq_ofNat_of_zero_le h0
  have hn : ¬ ((x : Int) * 2 ^ 32 < 0) := by omega
  have hx : ((x : Int) * 2 ^ 32).toNat = x * 2 ^ 32 := by omega
  rw [roundDiv, if_neg hn, hx, Int.toNat_natCast]
  have : (x * 2 ^ 32 * 2 + d) / (2 * d) < 2 ^ 32 + 1 := (Nat.div_lt_iff_lt_mul (by omega)).mpr (by omega)
  exact_mod_cast Nat.lt_succ_iff.mp this

/-- Between values on different sides of a level that rise, U is the part of the way, at least 1. -/
theorem linearU_rising {a b level : Int} (ha : a < level) (hb : level ≤ b) :
    (linearU a b level : Int) = max 1 (roundDiv ((level - a) * 2 ^ 32) (b - a).toNat) := by
  have hle := roundDiv_part_le (x := level - a) (d := b - a) (by omega) (by omega) (by omega)
  rw [linearU, if_pos (by omega), uOf, clampInt]
  split
  · omega
  · split <;> omega

/-- The position of a crossing after the sample before it: U of R72, and whether it is interpolated linearly (R74). -/
def crossingU (cubic : Bool) (level : Int) (prev : List Nat) (w : Nat) (next : Option Nat) : Nat × Bool :=
  let w0 := prev.headD 0
  let lin := linearU (valueOf w0) (valueOf w) level
  match cubic && !(ovrOf w0 || ovrOf w), prev[1]?, next with
    | true, some wm, some w2 => if ovrOf wm || ovrOf w2 then (lin, true) else (cubicU (valueOf wm) (valueOf w0) (valueOf w) (valueOf w2) level, false)
    | _, _, _ => (lin, true)

theorem crossing_eq (cubic : Bool) (f m : Nat) (level : Int) (prev : List Nat) (w : Nat) (next : Option Nat) :
    crossing cubic f m level prev w next =
      { time := (m - 1) / f * 2 ^ 32 + ((m - 1) % f * 2 ^ 32 + (crossingU cubic level prev w next).1 + f / 2) / f
        ovr := ovrOf (prev.headD 0) || ovrOf w
        linear := (crossingU cubic level prev w next).2 } := rfl

theorem crossingU_range (cubic : Bool) (level : Int) (prev : List Nat) (w : Nat) (next : Option Nat) :
    1 ≤ (crossingU cubic level prev w next).1 ∧ (crossingU cubic level prev w next).1 ≤ 2 ^ 32 := by
  unfold crossingU
  dsimp only
  split
  · split
    · exact linearU_range _ _ _
    · exact uOf_range _ _
  · exact linearU_range _ _ _

/-- An interpolation that is linear is the one between the two samples. -/
theorem crossingU_linear {cubic : Bool} {level : Int} {prev : List Nat} {w : Nat} {next : Option Nat} (h : (crossingU cubic level prev w next).2 = true) :
    (crossingU cubic level prev w next).1 = linearU (valueOf (prev.headD 0)) (valueOf w) level := by
  unfold crossingU at h ⊢
  dsimp only at h ⊢
  split at h
  · split at h
    · next e => rw [if_pos e]
    · exact Bool.noConfusion h
  · rfl

/-- With an overrange among the two samples the interpolation is linear (R74). -/
theorem crossingU_ovr (cubic : Bool) (level : Int) (prev : List Nat) (w : Nat) (next : Option Nat) (h : (ovrOf (prev.headD 0) || ovrOf w) = true) :
    (crossingU cubic level prev w next).2 = true := by
  unfold crossingU
  simp only [h, Bool.not_true, Bool.and_false]

/-- V of R73 on the grid of F samples per tick, for a crossing
between samples n and n + 1 with n = F × q + p: between the samples, and after the first but for F = 4. -/
theorem crossing_grid {f p q n U V : Nat} (hf : f = 1 ∨ f = 2 ∨ f = 4) (h1 : 1 ≤ U) (h2 : U ≤ 2 ^ 32) (hV : V = (p * 2 ^ 32 + U + f / 2) / f)
    (hn : f * q + p = n) :
    n * 2 ^ 32 ≤ f * (q * 2 ^ 32 + V) ∧ (f ≤ 2 → n * 2 ^ 32 < f * (q * 2 ^ 32 + V)) ∧ f * (q * 2 ^ 32 + V) ≤ (n + 1) * 2 ^ 32 := by
  obtain rfl | rfl | rfl := hf <;> omega

/-- Settles O56: U is clamped, V lies on the grid of the samples, and a linear U is the one between the two samples. -/
theorem crossingTimesAreInterpolated : Obligations.CrossingTimesAreInterpolated := by
  intro cubic f k m level prev w next hf hm
  have hf' : f = 2 ^ k ∧ (f = 1 ∨ f = 2 ∨ f = 4) := by
    obtain ⟨rfl, rfl⟩ | ⟨rfl, rfl⟩ | ⟨rfl, rfl⟩ := hf <;> decide
  obtain ⟨h1, h2⟩ := crossingU_range cubic level prev w next
  dsimp only
  rw [crossing_eq]
  refine ⟨(crossingU cubic level prev w next).1, h1, h2, ?_⟩
  obtain ⟨V, hV⟩ : ∃ V, V = ((m - 1) % f * 2 ^ 32 + (crossingU cubic level prev w next).1 + f / 2) / f := ⟨_, rfl⟩
  obtain ⟨g1, g2, g3⟩ := crossing_grid hf'.2 h1 h2 hV (Nat.div_add_mod (m - 1) f)
  rw [Nat.sub_add_cancel hm] at g3
  rw [← hV]
  refine ⟨⟨V, ?_, ?_, ?_⟩, g1, g2, g3, rfl, crossingU_ovr cubic level prev w next, ?_⟩
  · rw [Nat.shiftRight_eq_div_pow, ← hf'.1, hV]
  · dsimp only; omega
  · exact Nat.mul_add_mod' ..
  · rintro hl a b rfl rfl ha hb
    rw [crossingU_linear hl]
    exact linearU_rising ha hb

end Sys2Proof.Machine
end

section
/-!
The state after power-up at the reset values of the tables (R16, R491): of several equal elements, the reset value of one.
-/
namespace Sys2Proof.Machine

theorem vector_replicate_get {α : Type} {n : Nat} (x : α) (i : Fin n) : (Vector.replicate n x).get i = x := by
  simp [Vector.get]

@[simp] theorem State.reset_quads (q : Fin 4) : State.reset.quads.get q = Quad.reset := vector_replicate_get _ q
@[simp] theorem State.reset_units (u : Fin 8) : State.reset.units.get u = TUnit.reset := vector_replicate_get _ u
@[simp] theorem State.reset_groups (g : Fin 4) : State.reset.groups.get g = Group.reset := vector_replicate_get _ g
@[simp] theorem State.reset_accs (g : Fin 4) : State.reset.accs.get g = Acc.reset := vector_replicate_get _ g


/-- TU_CONFIG's reset value (R59): HYST 16, cubic interpolation, LEVEL_A 0. -/
theorem TUnit.reset_cfg : fld TUnit.reset.cfg 84 12 = 16 ∧ flag TUnit.reset.cfg 23 = true ∧ fld TUnit.reset.cfg 96 16 = 0 := by decide +kernel

/-- A group's reset values (R76, R100, R129). -/
theorem Group.reset_tables :
    Group.reset.state = .off ∧ fld Group.reset.comb 14 2 = 1 ∧ fld Group.reset.cap 192 48 = 1 ∧ fld Group.reset.cap 128 32 = 256 ∧
    fld Group.reset.cap 103 25 = 1 ∧ fld Group.reset.cap 44 4 = 4 ∧ fld Group.reset.dec 96 32 = 0x01000000 ∧ fld Group.reset.dec 64 17 = 1 := by
  decide +kernel

/-- ACC_CONFIG's reset value (R140). -/
theorem Acc.reset_cfg :
    fld Acc.reset.cfg 163 13 = 1024 ∧ fld Acc.reset.cfg 159 4 = 8 ∧ fld Acc.reset.cfg 96 32 = 1 ∧ fld Acc.reset.cfg 80 16 = 3 ∧
    fld Acc.reset.cfg 68 4 = 2 := by
  decide +kernel

/-- Settles O49: each structure of the tables has its reset value, evaluated. -/
theorem resetLeavesTheTablesValues : Obligations.ResetLeavesTheTablesValues := by
  unfold Obligations.ResetLeavesTheTablesValues
  simp only [State.reset_quads, State.reset_units, State.reset_groups, State.reset_accs]
  refine ⟨?board, ?clock, fun _ => TUnit.reset_cfg, fun _ => ?group, ?cal, ?host, ?quads, ?stim, ?grove, ?events, rfl, rfl, rfl⟩
  case group => simpa only [and_assoc] using And.intro Group.reset_tables Acc.reset_cfg
  case board => decide +kernel
  case clock => decide +kernel
  case cal => decide +kernel
  case host => decide +kernel
  case quads => exact fun _ => ⟨rfl, rfl, rfl⟩
  case stim => decide +kernel
  case grove => exact ⟨rfl, rfl, rfl, rfl, rfl⟩
  case events => decide +kernel

end Sys2Proof.Machine
end

section
/-!
The commands of the input family (R28, R35, R39, R364 to R366): what their cards find and do, and the next state where nothing is found against them.
-/
namespace Sys2Proof.Machine
open Sys2Proof.Laws

/-- Steps 8 to 14 of R335 find nothing against a command of a card with a SELECT word where its reserved bits, its length, its state and its own checks are in order. -/
theorem Card.Selects.judge_none {c : Card} {b : Bytes} {n reason : Nat} {states : List Nat} {ok : Bool} {calm : Prop}
    (q : c.Selects b n reason states ok calm) {h : Hdr} {s : State} (hh : headerOk h = true) (hr : (selOk b && ok) = true) (hz : c.sizeOk = true)
    (he : s.engineState ∈ states) (hb : c.busy s = none) (hc : c.checks s = none) : c.judge h b s = none := by
  obtain ⟨m1, m2, m3⟩ := q.marks
  rw [Card.judge_admitted hh (q.reserved.trans hr) (by simp [Card.admits, m1, m2, m3]) hz hb b, q.states, if_pos he, hc]

/-- A command row is heard and its card runs: steps 8 to 14 of R335 find nothing, and the card leaves alone what waits. -/
structure State.Passes (s : State) (i : Instr) (h : Hdr) (op : Nat) (b : Bytes) (c : Card) (ps : List Part) : Prop where
  hears : s.Hears h op
  row : exec i s = .next (s.command h op b)
  size : b.length % 4 = 0 ∧ b.length ≤ 4096
  opcode : op ≠ 0x10000
  card : cardOf op b = some c
  after : c.after = id
  judge : c.judge h b (s.heard h op b) = none
  frame : Frame ps (s.heard h op b) (c.run h (s.heard h op b)).1
  waits : (ps.contains .paths || ps.contains .board || ps.contains .fw) = false

theorem State.Passes.does {s : State} {i : Instr} {h : Hdr} {op : Nat} {b : Bytes} {c : Card} {ps : List Part} (p : s.Passes i h op b c ps)
    {r : Reply} {effect : State → State} (run : c.run h (s.heard h op b) = (effect (s.heard h op b), .done r)) : s.Does i h op b r effect := by
  have hu := p.frame.waitsAs p.waits
  rw [run] at hu
  exact p.row.trans (congrArg _ (p.hears.ran b p.size c p.opcode p.card p.after p.judge _ r run hu))

theorem State.Passes.holds {s : State} {i : Instr} {h : Hdr} {op : Nat} {b : Bytes} {c : Card} {ps : List Part} (p : s.Passes i h op b c ps)
    {kind : HeldKind} {effect : State → State} (run : c.run h (s.heard h op b) = (effect (s.heard h op b), .held kind)) :
    s.Holds i h op b kind effect := by
  have hu := p.frame.waitsAs p.waits
  rw [run] at hu
  exact p.row.trans (congrArg _ (p.hears.held b p.size c p.card p.after p.judge _ kind run hu))

/-! What the words of the payload are. -/

theorem onlyBits_of_lt {v k : Nat} (h : v < 2 ^ k) : onlyBits v (2 ^ k - 1) = true := by
  rw [onlyBits, Nat.and_two_pow_sub_one_of_lt_two_pow h]
  exact beq_self_eq_true v

theorem selFin_of_selIndex {n : Nat} [NeZero n] {b : Bytes} {i : Fin n} (h : selIndex b = i.val) : selFin n b = i := by
  rw [selFin, h]
  exact Fin.ofNat_val_eq_self i

/-! INPUT_CONFIG (R28, R364, R365), for any payload that selects input i and brings the structure cfg. -/

section
variable {b : Bytes} {i : Fin 16} {cfg : BitVec 32} (hi : selIndex b = i.val) (hc : structAt 32 b 4 = cfg)
include hi hc

theorem cardInputConfig_checks_none {s : State} (hf : filterCode cfg ≠ 3) (hu : (s.inputs.get i).cfg = cfg ∨ s.inUse i = false) :
    (cardInputConfig b).checks s = none := by
  obtain hu | hu := hu <;> simp [cardInputConfig, firstOf, selFin_of_selIndex hi, hi, hc, hf, hu]

theorem cardInputConfig_run (h : Hdr) (s : State) : (cardInputConfig b).run h s =
    if (s.inputs.get i).cfg = cfg then (s, .done Reply.ok) else (s.onInput i fun x => { x with cfg := cfg }, .held (.input i.val)) := by
  simp only [cardInputConfig, selFin_of_selIndex hi, hc]

end

/-! QUAD_FUSION and QUAD_POWER (R35, R39, R366), for any payload that selects quad q and brings the word m. -/

section
variable {b : Bytes} {q : Fin 4} {m : Nat} (hq : selIndex b = q.val) (hm : word b 1 = m)
include hq hm

theorem cardQuadFusion_checks_none {s : State} (h3 : m ≠ 3)
    (hu : m = (s.quads.get q).fusion ∨ s.quadInUse q (s.quads.get q).fusion = false ∧ s.quadInUse q m = false) :
    (cardQuadFusion b).checks s = none := by
  obtain hu | ⟨hu, hv⟩ := hu
  · simp [cardQuadFusion, firstOf, selFin_of_selIndex hq, hq, hm, h3, ← hu]
  · simp [cardQuadFusion, firstOf, selFin_of_selIndex hq, hq, hm, h3, hu, hv]

theorem cardQuadFusion_run (h : Hdr) (s : State) : (cardQuadFusion b).run h s =
    if (s.quads.get q).fusion = m then (s, .done Reply.ok)
    else if (s.quads.get q).state = .ready then
      ((s.quiesce q).onQuad q fun k => { k with fusion := m, state := .retiming, since := s.now }, .held (.fusion q.val))
    else (s.onQuad q fun k => { k with fusion := m }, .done Reply.ok) := by
  simp only [cardQuadFusion, selFin_of_selIndex hq, hm]

theorem cardQuadPower_busy_none {s : State} (hs : (s.quads.get q).state.busy = false ∨ m = 1 ∧ (s.quads.get q).state = .retiming) :
    (cardQuadPower b).busy s = none := by
  obtain hs | ⟨h1, hs⟩ := hs
  · simp [cardQuadPower, firstOf, selFin_of_selIndex hq, hs]
  · simp [cardQuadPower, firstOf, selFin_of_selIndex hq, hm, h1, hs]

theorem cardQuadPower_checks_none {s : State} (hu : m = 1 ∨ (s.quads.get q).state = .off ∨ s.quadInUse q (s.quads.get q).fusion = false) :
    (cardQuadPower b).checks s = none := by
  obtain hu | hu | hu := hu <;> simp [cardQuadPower, firstOf, selFin_of_selIndex hq, hq, hm, hu]

theorem cardQuadPower_run (h : Hdr) (s : State) : (cardQuadPower b).run h s =
    if m = 0 then
      if (s.quads.get q).state = .off then (s, .done Reply.ok)
      else ((s.quiesce q).onQuad q fun k => { k with state := .off, since := s.now }, .done Reply.ok)
    else if (s.quads.get q).state = .off then
      (s.onQuad q fun k => { k with state := .powering, since := s.now, ticket := h.ticket.toNat }, .done Reply.deferred)
    else (s, .done Reply.ok) := by
  simp only [cardQuadPower, selFin_of_selIndex hq, hm]

end

theorem cardQuadFusion_busy_none {b : Bytes} {q : Fin 4} {s : State} (hq : selIndex b = q.val) (hs : (s.quads.get q).state.busy = false) :
    (cardQuadFusion b).busy s = none := by
  simp [cardQuadFusion, firstOf, selFin_of_selIndex hq, hs]

/-! The three rows, heard where nothing is against them. -/

section
variable {s : State} {h : Hdr} {select : BitVec 32} (he : s.engineState ∈ setC)
include he

theorem State.Hears.inputConfig_passes (k : s.Hears h 0x0201) {cfg : BitVec 32} {i : Fin 16} (hi : select.toNat = i.val) (hr : fld cfg 16 12 = 0)
    (hf : filterCode cfg ≠ 3) (hu : (s.inputs.get i).cfg = cfg ∨ s.inUse i = false) :
    s.Passes (.inputConfig h select cfg) h 0x0201 (leBytes 4 select.toNat ++ leBytes 4 cfg.toNat)
      (cardInputConfig (leBytes 4 select.toNat ++ leBytes 4 cfg.toNat)) [.inputs] where
  hears := k
  row := rfl
  size := by simp
  opcode := by decide
  card := rfl
  after := rfl
  frame := cardInputConfig_frame _ _ _
  waits := rfl
  judge := by
    have hc : structAt 32 (leBytes 4 select.toNat ++ leBytes 4 cfg.toNat) 4 = cfg := structAt_past 4 select cfg
    refine (cardInputConfig_selects _).judge_none k.flags.2 ?_ (by simp [cardInputConfig]) he rfl
      (cardInputConfig_checks_none ((selIndex_here _ _ (by omega)).trans hi) hc hf hu)
    rw [selOk_here _ _ (by omega), hc, hr]
    rfl

theorem State.Hears.quadFusion_passes (k : s.Hears h 0x0202) {mode : BitVec 32} {q : Fin 4} (hq : select.toNat = q.val) (hm : mode.toNat < 3)
    (hs : (s.quads.get q).state.busy = false)
    (hu : mode.toNat = (s.quads.get q).fusion ∨ s.quadInUse q (s.quads.get q).fusion = false ∧ s.quadInUse q mode.toNat = false) :
    s.Passes (.quadFusion h select mode) h 0x0202 (leBytes 4 select.toNat ++ leBytes 4 mode.toNat)
      (cardQuadFusion (leBytes 4 select.toNat ++ leBytes 4 mode.toNat)) [.inputs, .quads, .banks, .units, .tagged, .evaluated] where
  hears := k
  row := rfl
  size := by simp
  opcode := by decide
  card := rfl
  after := rfl
  frame := cardQuadFusion_frame _ _ _
  waits := rfl
  judge := by
    have hi := (selIndex_here select (leBytes 4 mode.toNat) (by omega)).trans hq
    refine (cardQuadFusion_selects _).judge_none k.flags.2 ?_ (by simp [cardQuadFusion]) he (cardQuadFusion_busy_none hi hs)
      (cardQuadFusion_checks_none hi (word_second _ _) (by omega) hu)
    rw [selOk_here _ _ (by omega), word_second]
    exact onlyBits_of_lt (k := 2) (by omega)

theorem State.Hears.quadPower_passes (k : s.Hears h 0x0203) {on : BitVec 32} {q : Fin 4} (hq : select.toNat = q.val) (hm : on.toNat < 2)
    (hs : (s.quads.get q).state.busy = false ∨ on.toNat = 1 ∧ (s.quads.get q).state = .retiming)
    (hu : on.toNat = 1 ∨ (s.quads.get q).state = .off ∨ s.quadInUse q (s.quads.get q).fusion = false) :
    s.Passes (.quadPower h select on) h 0x0203 (leBytes 4 select.toNat ++ leBytes 4 on.toNat)
      (cardQuadPower (leBytes 4 select.toNat ++ leBytes 4 on.toNat)) [.inputs, .quads, .banks, .units, .tagged, .evaluated] where
  hears := k
  row := rfl
  size := by simp
  opcode := by decide
  card := rfl
  after := rfl
  frame := cardQuadPower_frame _ _ _
  waits := rfl
  judge := by
    have hi := (selIndex_here select (leBytes 4 on.toNat) (by omega)).trans hq
    refine (cardQuadPower_selects _).judge_none k.flags.2 ?_ (by simp [cardQuadPower]) he (cardQuadPower_busy_none hi (word_second _ _) hs)
      (cardQuadPower_checks_none hi (word_second _ _) hu)
    rw [selOk_here _ _ (by omega), word_second]
    exact onlyBits_of_lt (k := 1) (by omega)

/-- INPUT_CONFIG: the setting in force is answered at once, another is stored and waits for the channel to settle. -/
theorem State.Hears.inputConfig (k : s.Hears h 0x0201) {cfg : BitVec 32} {i : Fin 16} (hi : select.toNat = i.val) (hr : fld cfg 16 12 = 0)
    (hf : filterCode cfg ≠ 3) :
    ((s.inputs.get i).cfg = cfg →
      s.Does (.inputConfig h select cfg) h 0x0201 (leBytes 4 select.toNat ++ leBytes 4 cfg.toNat) Reply.ok id) ∧
    ((s.inputs.get i).cfg ≠ cfg → s.inUse i = false →
      s.Holds (.inputConfig h select cfg) h 0x0201 (leBytes 4 select.toNat ++ leBytes 4 cfg.toNat) (.input i.val)
        fun u => u.onInput i fun x => { x with cfg := cfg }) := by
  have run := cardInputConfig_run ((selIndex_here select (leBytes 4 cfg.toNat) (by omega)).trans hi) (structAt_past 4 select cfg) h
    (s.heard h 0x0201 (leBytes 4 select.toNat ++ leBytes 4 cfg.toNat))
  exact ⟨fun hc => (k.inputConfig_passes he hi hr hf (.inl hc)).does (run.trans (if_pos hc)),
    fun hc hu => (k.inputConfig_passes he hi hr hf (.inr hu)).holds (run.trans (if_neg hc))⟩

/-- QUAD_FUSION: the mode in force is answered at once, another is stored on a quad that is off, and re-times a quad that is ready. -/
theorem State.Hears.quadFusion (k : s.Hears h 0x0202) {mode : BitVec 32} {q : Fin 4} (hq : select.toNat = q.val) (hm : mode.toNat < 3)
    (hs : (s.quads.get q).state.busy = false)
    (hu : mode.toNat = (s.quads.get q).fusion ∨ s.quadInUse q (s.quads.get q).fusion = false ∧ s.quadInUse q mode.toNat = false) :
    ((s.quads.get q).fusion = mode.toNat →
      s.Does (.quadFusion h select mode) h 0x0202 (leBytes 4 select.toNat ++ leBytes 4 mode.toNat) Reply.ok id) ∧
    ((s.quads.get q).fusion ≠ mode.toNat → (s.quads.get q).state = .off →
      s.Does (.quadFusion h select mode) h 0x0202 (leBytes 4 select.toNat ++ leBytes 4 mode.toNat) Reply.ok
        fun u => u.onQuad q fun k => { k with fusion := mode.toNat }) ∧
    ((s.quads.get q).fusion ≠ mode.toNat → (s.quads.get q).state = .ready →
      s.Holds (.quadFusion h select mode) h 0x0202 (leBytes 4 select.toNat ++ leBytes 4 mode.toNat) (.fusion q.val)
        fun u => (u.quiesce q).onQuad q fun k => { k with fusion := mode.toNat, state := .retiming, since := u.now }) := by
  have run := cardQuadFusion_run ((selIndex_here select (leBytes 4 mode.toNat) (by omega)).trans hq) (word_second _ _) h
    (s.heard h 0x0202 (leBytes 4 select.toNat ++ leBytes 4 mode.toNat))
  have p := k.quadFusion_passes he hq hm hs hu
  exact ⟨fun hf => p.does (run.trans (if_pos hf)),
    fun hf ho => p.does (run.trans ((if_neg hf).trans (if_neg (ho ▸ by decide)))),
    fun hf ho => p.holds (run.trans ((if_neg hf).trans (if_pos ho)))⟩

/-- QUAD_POWER 0 switches a quad off that is ready and not in use. -/
theorem State.Hears.quadPower_off (k : s.Hears h 0x0203) {on : BitVec 32} {q : Fin 4} (hq : select.toNat = q.val) (h0 : on.toNat = 0) :
    ((s.quads.get q).state = .off →
      s.Does (.quadPower h select on) h 0x0203 (leBytes 4 select.toNat ++ leBytes 4 on.toNat) Reply.ok id) ∧
    ((s.quads.get q).state = .ready → s.quadInUse q (s.quads.get q).fusion = false →
      s.Does (.quadPower h select on) h 0x0203 (leBytes 4 select.toNat ++ leBytes 4 on.toNat) Reply.ok
        fun u => (u.quiesce q).onQuad q fun k => { k with state := .off, since := u.now }) := by
  have run := cardQuadPower_run ((selIndex_here select (leBytes 4 on.toNat) (by omega)).trans hq) (word_second _ _) h
    (s.heard h 0x0203 (leBytes 4 select.toNat ++ leBytes 4 on.toNat))
  rw [if_pos h0] at run
  exact ⟨fun hs => (k.quadPower_passes he hq (by omega) (.inl (hs ▸ rfl)) (.inr (.inl hs))).does (run.trans (if_pos hs)),
    fun hs hu => (k.quadPower_passes he hq (by omega) (.inl (hs ▸ rfl)) (.inr (.inr hu))).does (run.trans (if_neg (hs ▸ by decide)))⟩

/-- QUAD_POWER 1 starts the power-on of a quad that is off. -/
theorem State.Hears.quadPower_on (k : s.Hears h 0x0203) {on : BitVec 32} {q : Fin 4} (hq : select.toNat = q.val) (h1 : on.toNat = 1) :
    ((s.quads.get q).state = .off →
      s.Does (.quadPower h select on) h 0x0203 (leBytes 4 select.toNat ++ leBytes 4 on.toNat) Reply.deferred
        fun u => u.onQuad q fun k => { k with state := .powering, since := u.now, ticket := h.ticket.toNat }) ∧
    ((s.quads.get q).state = .ready ∨ (s.quads.get q).state = .retiming →
      s.Does (.quadPower h select on) h 0x0203 (leBytes 4 select.toNat ++ leBytes 4 on.toNat) Reply.ok id) := by
  have run := cardQuadPower_run ((selIndex_here select (leBytes 4 on.toNat) (by omega)).trans hq) (word_second _ _) h
    (s.heard h 0x0203 (leBytes 4 select.toNat ++ leBytes 4 on.toNat))
  rw [if_neg (by omega)] at run
  refine ⟨fun hs => (k.quadPower_passes he hq (by omega) (.inl (hs ▸ rfl)) (.inl h1)).does (run.trans (if_pos hs)), ?_⟩
  rintro (hs | hs)
  · exact (k.quadPower_passes he hq (by omega) (.inl (hs ▸ rfl)) (.inl h1)).does (run.trans (if_neg (hs ▸ by decide)))
  · exact (k.quadPower_passes he hq (by omega) (.inr ⟨h1, hs⟩) (.inl h1)).does (run.trans (if_neg (hs ▸ by decide)))

end

/-- Settles O3: the cards of the three commands, each where it finds nothing against the command. -/
theorem inputCommandsTakeEffect : Obligations.InputCommandsTakeEffect := by
  intro s h select he
  refine ⟨fun cfg k hs hr hf => ?_, fun mode q k hq hm hs hu => k.quadFusion he hq hm hs hu, fun on q k hq => ⟨?_, ?_, ?_, ?_⟩⟩
  · have hi : select.toNat = (Fin.ofNat 16 select.toNat).val := (Nat.mod_eq_of_lt hs).symm
    obtain ⟨same, new⟩ := k.inputConfig he hi hr hf
    exact ⟨same, fun hc hu => by have := new hc hu; rwa [← hi] at this⟩
  · exact fun h0 => (k.quadPower_off he hq (h0 ▸ rfl)).1
  · exact fun h0 => (k.quadPower_off he hq (h0 ▸ rfl)).2
  · exact fun h1 => (k.quadPower_on he hq (h1 ▸ rfl)).1
  · exact fun h1 => (k.quadPower_on he hq (h1 ▸ rfl)).2

end Sys2Proof.Machine
end

section
/-!
The events of the sample links (R45 to R52, R108, R178): what a transfer does on a link that delivers and on one on trial, and the rows that end a wait of a link.
-/
namespace Sys2Proof.Machine

theorem State.advance_banks (s : State) (t : Nat) : (s.advance t).banks = s.banks := rfl

theorem State.onBank_congr {s : State} {b : Fin 16} {f g : Bank → Bank} (h : f (s.banks.get b) = g (s.banks.get b)) : s.onBank b f = s.onBank b g := by
  rw [State.onBank, State.onBank, vmod_congr _ _ _ _ h]

/-- The state with the sample link of one bank changed. -/
def State.onLink (s : State) (b : Fin 16) (f : SampleLink → SampleLink) : State := s.onBank b fun k => { k with link := f k.link }

theorem State.onLink_congr {s : State} {b : Fin 16} {f g : SampleLink → SampleLink} (h : f (s.banks.get b).link = g (s.banks.get b).link) :
    s.onLink b f = s.onLink b g := State.onBank_congr (congrArg (fun l => { s.banks.get b with link := l }) h)

/-! A transfer (R45 to R48, R51). -/

section
variable {s : State} {b : Fin 16} (data : LinkData)

/-- A link that delivers judges a transfer within the time of the block expected, and no earlier than the re-send awaited. -/
theorem State.linkBlock_delivering (hc : (s.banks.get b).link.checking = none) (hu : (s.banks.get b).link.up = true)
    (h1 : s.blockFirst (s.banks.get b).link.expect + 260 ≤ s.now) (h2 : s.now ≤ s.blockFirst (s.banks.get b).link.expect + 1220)
    (ha : ∀ a, (s.banks.get b).link.awaiting = some a → a ≤ s.now) :
    s.linkBlock b data = (s.received b data).2.elim ((s.received b data).1.blockFailed b) ((s.received b data).1.blockPassed b) := by
  have hw : ((s.banks.get b).link.awaiting.any fun a => s.now < a) = false := by
    cases e : (s.banks.get b).link.awaiting with
    | none => rfl
    | some a => simpa using ha a e
  unfold State.linkBlock
  simp only [hc]
  rw [if_neg (by simp [hu, hw, h1, h2])]
  cases (s.received b data).2 <;> rfl

/-- A link on trial counts the transfers that pass, and trains anew after one that fails. -/
theorem State.linkBlock_trial {n : Nat} (hc : (s.banks.get b).link.checking = some n) :
    s.linkBlock b data = (s.received b data).1.trialBlock b n (s.received b data).2.isSome := by
  unfold State.linkBlock
  simp only [hc]

theorem State.trialBlock_passes {n : Nat} (hn : n < 1024) :
    s.trialBlock b n true = s.onLink b fun k => { k with
      checking := some (n + 1), expect := (s.banks.get b).link.expect + 1
      txNext := max (s.banks.get b).link.txNext ((s.banks.get b).link.expect + 1) } := by
  rw [State.trialBlock, if_neg (by omega), if_pos rfl]
  exact State.onLink_congr (f := fun k => { k with checking := some (n + 1), expect := k.expect + 1, txNext := max k.txNext (k.expect + 1) }) rfl

theorem State.trialBlock_fails {n : Nat} (hn : n < 1024) : s.trialBlock b n false = s.retrainFailed b := by
  rw [State.trialBlock, if_neg (by omega), if_neg (by decide)]

/-- A failed attempt is awaited again where that is within the block's deadline. -/
theorem State.blockFailed_awaits (h : s.now + 240 ≤ s.blockFirst (s.banks.get b).link.expect + 1220) :
    s.blockFailed b = s.onLink b fun k => { k with awaiting := some (s.now + 240) } := by
  rw [State.blockFailed]
  exact if_pos (by omega)

theorem State.blockFailed_faults (h : s.blockFirst (s.banks.get b).link.expect + 1220 < s.now + 240) :
    s.blockFailed b = s.bankFault b (s.blockFirst (s.banks.get b).link.expect) := by
  rw [State.blockFailed]
  exact if_neg (by omega)

theorem State.retrainFailed_again (h : (s.banks.get b).link.retries < 3) :
    s.retrainFailed b = s.onLink b fun k => { k with retries := k.retries + 1, checking := none } := if_pos h

theorem State.retrainFailed_last (h : 3 ≤ (s.banks.get b).link.retries) :
    s.retrainFailed b =
      let u := s.onLink b fun k => { k with abandoned := true, checking := none }
      if s.board.boot = .init then u.bootFail 0x0206 (quadOf b).val else u := if_neg (by omega)

end

/-! The rows. -/

section
variable {s : State} {t : Nat} {b : Fin 16}

theorem sampleLinkBlock_row {data : LinkData} (hd : data.wf = true) : exec (.sampleLinkBlock t b data) s = s.event t fun v => v.linkBlock b data := by
  show execSampleLinkBlock t b data s = _
  rw [execSampleLinkBlock, hd, if_neg (by decide)]

/-- A transfer without the shape of a wire's is refused (log 28). -/
theorem sampleLinkBlock_illFormed {data : LinkData} (hd : data.wf = false) : exec (.sampleLinkBlock t b data) s = .refused .illFormed := by
  show execSampleLinkBlock t b data s = _
  rw [execSampleLinkBlock, hd, if_pos (by decide)]

/-- A transfer on a link that delivers, as the check at its tick says. -/
theorem State.sampleLinkBlock_delivering {data : LinkData} (hd : data.wf = true) (hc : (s.banks.get b).link.checking = none) (hu : (s.banks.get b).link.up = true)
    (h1 : (s.advance t).blockFirst (s.banks.get b).link.expect + 260 ≤ (s.advance t).now)
    (h2 : (s.advance t).now ≤ (s.advance t).blockFirst (s.banks.get b).link.expect + 1220)
    (ha : ∀ a, (s.banks.get b).link.awaiting = some a → a ≤ (s.advance t).now) {g : State → State}
    (h : (((s.advance t).received b data).2.elim (((s.advance t).received b data).1.blockFailed b) (((s.advance t).received b data).1.blockPassed b)) =
      g (s.advance t)) : s.TurnsThen (.sampleLinkBlock t b data) t g :=
  State.event_turnsThen (sampleLinkBlock_row hd) ((State.linkBlock_delivering data (s := s.advance t) hc hu h1 h2 ha).trans h)

theorem State.sampleLinkBlock_trial {data : LinkData} {n : Nat} (hd : data.wf = true) (hc : (s.banks.get b).link.checking = some n) {g : State → State}
    (h : ((s.advance t).received b data).1.trialBlock b n ((s.advance t).received b data).2.isSome = g (s.advance t)) :
    s.TurnsThen (.sampleLinkBlock t b data) t g :=
  State.event_turnsThen (sampleLinkBlock_row hd) ((State.linkBlock_trial data (s := s.advance t) hc).trans h)

theorem State.nak_turns {a : Nat} (ha : (s.banks.get b).link.awaiting = some a) :
    s.Turns (.nak t b) t fun v => v.onLink b fun k => { k with resend := some (k.expect, a - 130) } := by
  refine congrArg Host.Outcome.next (State.onBank_congr ?_)
  simp only [State.advance_banks, ha]

theorem State.linkResend_turns {e a : Nat} (hr : (s.banks.get b).link.resend = some (e, a)) (ha : a ≤ (s.advance t).now) :
    s.Turns (.linkResend t b) t fun v => v.onLink b fun k => { k with resend := none, cnt := { k.cnt with resends := k.cnt.resends + 1 } } := by
  refine congrArg Host.Outcome.next (State.onBank_congr ?_)
  simp only [State.advance_banks, hr]
  rw [if_neg (by omega)]

theorem State.alignmentFifoRelease_turns {blk : Block} {rest : List Block} (overrun : Bool) (hf : (s.banks.get b).link.fifo = blk :: rest)
    (ha : blk.first + 1240 ≤ (s.advance t).now) :
    s.Turns (.alignmentFifoRelease t b overrun) t fun v => (v.release b blk).ringWrite b overrun := by
  show execAlignmentFifoRelease t b overrun s = _
  simp only [execAlignmentFifoRelease, State.advance_banks, hf]
  rw [if_neg (by omega)]

/-- A retraining that ends well puts the link on trial from the next block on. -/
theorem State.linkRetrainDone_trained (hc : (s.advance t).canRetrain b = true) :
    s.TurnsThen (.linkRetrainDone t b true) t fun v => v.onLink b fun k =>
      { k with checking := some 0, expect := v.nextBlock v.now, txNext := v.nextBlock v.now, replay := [], ovrHold := 0 } := by
  show execLinkRetrainDone t b true s = _
  simp only [execLinkRetrainDone, State.event, hc, Bool.not_true, Bool.false_eq_true, if_false]
  rfl

theorem State.linkRetrainDone_failed (hc : (s.advance t).canRetrain b = true) {g : State → State} (h : (s.advance t).retrainFailed b = g (s.advance t)) :
    s.TurnsThen (.linkRetrainDone t b false) t g := by
  show execLinkRetrainDone t b false s = .next (g (s.advance t)).settle
  simp only [execLinkRetrainDone, State.event, hc, Bool.not_true, Bool.not_false, Bool.false_eq_true, if_false, if_true, h]

theorem State.bankReturned_turns (hc : (s.banks.get b).link.checking = some 1024) :
    s.Turns (.bankReturned t b) t fun v =>
      let n := v.nextBlock v.now
      (v.onLink b fun k => { k with
        up := true, faulted := false, checking := none, retries := 0, expect := n, txNext := n, start := v.blockFirst n, fifo := [], replay := [] }).raise
          { code := 0x0284, obj := b.val } :=
  congrArg Host.Outcome.next (if_neg fun h => h hc)

end

/-- Settles O20: each row by what its operation does in the state given. -/
theorem linkEventsTakeEffect : Obligations.LinkEventsTakeEffect := by
  intro s t b l onLink
  refine ⟨?delivering, ?trial, fun data => sampleLinkBlock_illFormed, fun a => State.nak_turns, fun e a => State.linkResend_turns,
    fun blk rest overrun => State.alignmentFifoRelease_turns overrun, ?retrained, State.bankReturned_turns⟩
  case delivering =>
    intro data hd hc hu v first h1 h2 ha r
    have turns {g : State → State} := State.sampleLinkBlock_delivering (g := g) hd hc hu h1 h2 ha
    refine ⟨fun ws hw => turns ?_, fun hn => ⟨fun hf => turns ?_, fun hf => turns ?_⟩⟩
    · show r.2.elim _ _ = _
      rw [hw]
      rfl
    · show r.2.elim _ _ = _
      rw [hn]
      exact State.blockFailed_awaits hf
    · show r.2.elim _ _ = _
      rw [hn]
      exact State.blockFailed_faults hf
  case trial =>
    intro data n hd hc hn r
    have turns {g : State → State} := State.sampleLinkBlock_trial (t := t) (g := g) hd hc
    refine ⟨fun hw => turns ?_, fun hw => turns ?_⟩
    · show r.1.trialBlock b n r.2.isSome = _
      rw [hw]
      exact State.trialBlock_passes hn
    · show r.1.trialBlock b n r.2.isSome = _
      rw [hw]
      exact State.trialBlock_fails hn
  case retrained =>
    intro hf ha hc hd
    have ready : (s.advance t).canRetrain b = true := by
      show (l.faulted && !l.abandoned && l.checking.isNone && decide (s.clock.drive ≠ .stopped)) = true
      simp [hf, ha, hc, hd]
    exact ⟨State.linkRetrainDone_trained ready, fun h => State.linkRetrainDone_failed ready (State.retrainFailed_again h),
      fun h => State.linkRetrainDone_failed ready (State.retrainFailed_last h)⟩

end Sys2Proof.Machine
end

section
/-!
The events of banks and quads (R28, R31, R35, R39, R222 to R225, R366): what a background estimate does, and the end of each step of a quad's power-on.
-/
namespace Sys2Proof.Machine

/-! A background estimate (R222 to R225). -/

/-- The live coefficients of a slice moved a quarter of the way to an estimate, in each quantity that has one (R223). -/
def SliceCoef.toward (c : SliceCoef) (e : SliceEstimate) : SliceCoef where
  offset := (e.offset.map (quarter c.offset)).getD c.offset
  gain := (e.gain.map (quarter c.gain)).getD c.gain
  skew := (e.skew.map (quarter c.skew)).getD c.skew

/-- An estimate of a slice is counted and kept as one of the last two (R223, R225). -/
def State.estimated (s : State) (b : Fin 16) (n : Nat) (e : SliceEstimate) : State := s.onBank b fun k => { k with
  bgEstimates := k.bgEstimates + 1, bgSkips := k.bgSkips + (if e.gain = none ∧ e.skew = none then 1 else 0)
  bg := modAt k.bg n fun g => { offsets := (e.offset.toList ++ g.offsets).take 2, gains := (e.gain.toList ++ g.gains).take 2, skews := (e.skew.toList ++ g.skews).take 2 } }

section
variable {s : State} {b : Fin 16} {n : Nat} (e : SliceEstimate)

theorem State.bgEstimate_spare (hn : (s.banks.get b).spare = some n) :
    s.bgEstimate b e =
      let new := ((s.banks.get b).live.getD n {}).toward e
      if sliceOk (liveUnits new) then
        (((s.estimated b n e).onBank b fun k => { k with live := k.live.set n new }).onBank b fun k => { k with converged := k.converges }).judgeBg (quadOf b)
      else (s.estimated b n e).sliceOut b n := by
  have skips : (e.gain.isNone && e.skew.isNone) = decide (e.gain = none ∧ e.skew = none) := by
    cases e.gain <;> cases e.skew <;> rfl
  unfold State.bgEstimate
  simp only [hn, skips, decide_eq_true_eq]
  rfl

/-! The estimate's row, on a bank that converts and delivers. -/

variable {t : Nat} (hc : (s.advance t).converts b = true)
include hc

theorem State.backgroundEstimate_row (hu : (s.banks.get b).link.up = true) :
    exec (.backgroundEstimate t b e) s = .next ((s.advance t).bgEstimate b e) := by
  have hu : ((s.advance t).banks.get b).link.up = true := hu
  show execBackgroundEstimate t b e s = _
  simp only [execBackgroundEstimate, hc, hu, Bool.and_self, if_true]

variable (hu : (s.banks.get b).link.up = true) (hn : (s.banks.get b).spare = some n) {new : SliceCoef}
  (hnew : ((s.banks.get b).live.getD n {}).toward e = new)
include hu hn hnew

/-- Within the limits of R224 the slice takes its new live coefficients. -/
theorem State.backgroundEstimate_moves (ok : sliceOk (liveUnits new) = true) : s.Turns (.backgroundEstimate t b e) t fun v =>
    (((v.estimated b n e).onBank b fun k => { k with live := k.live.set n new }).onBank b fun k => { k with converged := k.converges }).judgeBg (quadOf b) := by
  subst hnew
  exact (State.backgroundEstimate_row e hc hu).trans (congrArg _ ((State.bgEstimate_spare (s := s.advance t) e hn).trans (if_pos ok)))

/-- Beyond them it is taken out (R32). -/
theorem State.backgroundEstimate_takesOut (out : sliceOk (liveUnits new) = false) : s.Turns (.backgroundEstimate t b e) t fun v =>
    (v.estimated b n e).sliceOut b n := by
  subst hnew
  exact (State.backgroundEstimate_row e hc hu).trans
    (congrArg _ ((State.bgEstimate_spare (s := s.advance t) e hn).trans (if_neg (ne_true_of_eq_false out))))

end

/-- The spare takes a position and frees its occupant (R31). -/
theorem State.sliceSubstitution_turns {s : State} {t : Nat} {b : Fin 16} {n : Nat} (pos : Fin 32) (hc : (s.advance t).converts b = true) (hn : (s.banks.get b).spare = some n) :
    s.Turns (.sliceSubstitution t b pos) t fun v => v.onBank b fun k => { k with
      oldPositions := some (v.beatFrom v.now, k.positions), spare := some (k.positions.getD pos.val 0), positions := k.positions.set pos.val n } := by
  have hn : ((s.advance t).banks.get b).spare = some n := hn
  show execSliceSubstitution t b pos s = _
  simp only [execSliceSubstitution, hn, hc, Bool.not_true, Bool.false_eq_true, if_false]

/-! The steps of a quad (R35, R39). -/

section
variable {s : State} {t : Nat} {q : Fin 4}

theorem State.quadStep_due {from_ next : QuadState} {after : Nat} {f : State → State} (h : (s.quads.get q).state = from_)
    (ht : (s.quads.get q).since + after ≤ s.now) :
    s.quadStep q from_ after next f = f (s.onQuad q fun k => { k with state := next, since := s.now }) := if_pos ⟨h, ht⟩

theorem State.onQuad_get (s : State) (q : Fin 4) (f : Quad → Quad) : (s.onQuad q f).quads.get q = f (s.quads.get q) := vmod_get_self ..

/-- QUAD_READY carries the ticket of the quad's command (R366). -/
theorem State.quadReady_ticket {n : Nat} (h : (s.quads.get q).ticket = n) :
    s.quadReady q =
      let u := (s.raise { code := 0x0280, obj := q.val, ticket := n }).onQuad q fun x => { x with ticket := 0 }
      if u.board.boot = .init ∧ four.all (fun r => (u.quads.get r).state = .ready) then (u.bootBit 26).noteReady else u := by
  subst h; rfl

theorem State.quadPoweringDone_turns (h : (s.quads.get q).state = .powering) (ht : (s.quads.get q).since + 40000000 ≤ (s.advance t).now) :
    s.Turns (.quadPoweringDone t q) t fun v => v.onQuad q fun x => { x with state := .training, since := v.now } :=
  congrArg _ (State.quadStep_due (s := s.advance t) h ht)

theorem State.quadTrainingDone_turns (h : (s.quads.get q).state = .training) (ht : (s.quads.get q).since + 400000 ≤ (s.advance t).now) :
    s.Turns (.quadTrainingDone t q) t fun v => (v.onQuad q fun x => { x with state := .converging, since := v.now }).trainLinks q :=
  congrArg _ (State.quadStep_due (s := s.advance t) h ht)

theorem State.quadConverged_turns (h : (s.quads.get q).state = .converging) (ht : (s.quads.get q).since + 1320000000 ≤ (s.advance t).now) :
    s.Turns (.quadConverged t q) t fun v =>
      let u := ((v.onQuad q fun x => { x with state := .ready, since := v.now }).raise { code := 0x0280, obj := q.val, ticket := (s.quads.get q).ticket }).onQuad q
        fun x => { x with ticket := 0 }
      if u.board.boot = .init ∧ four.all (fun r => (u.quads.get r).state = .ready) then (u.bootBit 26).noteReady else u :=
  congrArg _ ((State.quadStep_due (s := s.advance t) h ht).trans (State.quadReady_ticket (by rw [State.onQuad_get]; rfl)))

theorem State.quadRetimingDone_turns (h : (s.quads.get q).state = .retiming) (ht : (s.quads.get q).since ≤ (s.advance t).now) :
    s.TurnsThen (.quadRetimingDone t q) t fun v =>
      ((v.onQuad q fun x => { x with state := .ready, since := v.now }).trainLinks q).finish (.fusion q.val) Reply.ok :=
  State.event_turnsThen (f := fun v => v.quadStep q .retiming 0 .ready fun u => (u.trainLinks q).finish (.fusion q.val) Reply.ok) rfl
    (State.quadStep_due (s := s.advance t) h ht)

end

/-- Settles O21: a substitution, an estimate and each step of a quad, where its condition holds. -/
theorem quadEventsTakeEffect : Obligations.QuadEventsTakeEffect := by
  intro s t
  refine ⟨fun b pos n => State.sliceSubstitution_turns pos, ?estimate,
    fun q => ⟨State.quadPoweringDone_turns, State.quadTrainingDone_turns, State.quadConverged_turns, State.quadRetimingDone_turns⟩, fun i => rfl⟩
  case estimate =>
    intro b e n hc hu hn old moved new counted
    have hm : ∀ live est, moved live est = (est.map (quarter live)).getD live := fun live est => by cases est <;> rfl
    have hnew : old.toward e = new := by simp only [new, hm, SliceCoef.toward]
    exact ⟨State.backgroundEstimate_moves e hc hu hn hnew, State.backgroundEstimate_takesOut e hc hu hn hnew⟩

end Sys2Proof.Machine
end

section
/-!
The rows of clocks, links, quads and inputs: what each leaves alone (R43, R47, R51, R258, R263, R264, R271).
-/
namespace Sys2Proof.Machine
open Sys2Proof.Laws

/-- Settles O35: each row's own frame, in the order of the rows. -/
theorem clockAndInputRowsLeaveTheRest : Obligations.ClockAndInputRowsLeaveTheRest := fun s t =>
  ⟨(execLockWindowEnd_changes t · · · s), (execLockLost_changes t · s), (execBandSearchDone_changes t · · · s), execAcquisitionDone_changes t s,
    execCommonStart_changes t s, (execSyncEdge_changes t · · s), execSyncTimeout_changes t s, execPlanHopTimeout_changes t s,
    execRefLost_changes t s, (execRefReturned_changes t · · s), (execSlewEnd_changes t · s), execFallbackSwitch_changes t s,
    execClockRestore_changes t s, execFallbackStandby_changes t s, execSampleClockStop_changes t s, (execSampleClockRestart_changes t · s),
    execXoLost_changes t s, (execKeeperTrim_changes t · s), execSqRephaseDone_changes t s, (execSampleLinkBlock_changes t · · s),
    (execNak_changes t · s), (execLinkResend_changes t · s), (execAlignmentFifoRelease_changes t · · s), (execLinkRetrainDone_changes t · · s),
    (execBankReturned_changes t · s), (execSliceSubstitution_changes t · · s), (execBackgroundEstimate_changes t · · s),
    (execQuadPoweringDone_changes t · s), (execQuadTrainingDone_changes t · s), (execQuadConverged_changes t · s),
    (execQuadRetimingDone_changes t · s), (execInputSettled_changes t · s)⟩

end Sys2Proof.Machine
end

section
/-!
The commands of the trigger family (R59 to R61, R76, R96, R97, R367 to R370): what their cards find and do, and the next state where nothing is found against them.
-/
namespace Sys2Proof.Machine
open Sys2Proof.Laws

/-- A command of a card with a SELECT word is heard and its card runs, where neither its reserved bits, nor its state, nor its own checks are against it. -/
theorem Card.Selects.passes {c : Card} {b : Bytes} {n reason : Nat} {states : List Nat} {ok : Bool} {calm : Prop} (q : c.Selects b n reason states ok calm)
    {s : State} {h : Hdr} {i : Instr} {op : Nat} {ps : List Part} (hears : s.Hears h op) (row : exec i s = .next (s.command h op b))
    (card : cardOf op b = some c) (after : c.after = id) (opcode : op ≠ 0x10000) (size : b.length % 4 = 0 ∧ b.length ≤ 4096)
    (waits : (ps.contains .paths || ps.contains .board || ps.contains .fw) = false) (frame : ∀ u, Frame ps u (c.run h u).1)
    (hz : c.sizeOk = true) (reserved : (selOk b && ok) = true) (he : s.engineState ∈ states) (busy : c.busy (s.heard h op b) = none)
    (checks : c.checks (s.heard h op b) = none) : s.Passes i h op b c ps where
  hears := hears
  row := row
  size := size
  opcode := opcode
  card := card
  after := after
  judge := q.judge_none hears.flags.2 reserved hz he busy checks
  frame := frame _
  waits := waits

/-- The reserved bits of SELECT and of a structure of j bytes after it, where SELECT is in range and the structure's are zero. -/
theorem reserved_clear (j : Nat) {select : BitVec 32} {cfg : BitVec (8 * j)} {f : BitVec (8 * j) → Bool} (hs : select.toNat < 65536) (hf : f cfg = true) :
    (selOk (leBytes 4 select.toNat ++ leBytes j cfg.toNat) && f (structAt (8 * j) (leBytes 4 select.toNat ++ leBytes j cfg.toNat) 4)) = true := by
  rw [selOk_here _ _ hs, structAt_past, hf, Bool.and_self]

/-! What the cards find and do, for any payload that selects the object i and brings the structure cfg. -/

section
variable {b : Bytes} {i : Fin 8} {cfg : BitVec 256} (hi : selIndex b = i.val) (hc : structAt 256 b 4 = cfg)
include hi hc

theorem cardTuConfig_checks_none {s : State} (hr : s.referenced i.val = false) (hp : fld cfg 28 4 ∈ permitted (fld cfg 32 8))
    (hv : tuInvalid cfg = false) : (cardTuConfig b).checks s = none := by
  simp [cardTuConfig, firstOf, hi, hc, hr, hp, hv]

theorem cardTuConfig_run (h : Hdr) (s : State) : (cardTuConfig b).run h s =
    (s.reconfigure fun v => v.onUnit i fun x =>
      { x with cfg := cfg, cond := {}, last := none, atTick := none, cancels := x.cancels + (if x.atTick.isSome then 1 else 0) }, .done Reply.ok) := by
  simp only [cardTuConfig, selFin_of_selIndex hi, hc]

end

section
variable {b : Bytes} {i : Fin 16} (hi : selIndex b = i.val)
include hi

theorem cardCmpConfig_checks_none {s : State} (hm : s.cmpMask i.val = 0) : (cardCmpConfig b).checks s = none := by
  simp [cardCmpConfig, firstOf, hi, hm]

theorem cardCmpConfig_run {cfg : BitVec 32} (hc : structAt 32 b 4 = cfg) (h : Hdr) (s : State) : (cardCmpConfig b).run h s =
    (s.reconfigure fun v => v.onInput i fun k => { k.cmpRestart with cmp := cfg }, .done Reply.ok) := by
  simp only [cardCmpConfig, selFin_of_selIndex hi, hc]

end

section
variable {b : Bytes} {g : Fin 4} (hg : selIndex b = g.val)
include hg

theorem cardCombinerConfig_checks_none {s : State} (hl : (s.groups.get g).live = false) : (cardCombinerConfig b).checks s = none := by
  simp [cardCombinerConfig, firstOf, selFin_of_selIndex hg, hg, hl]

theorem cardCombinerConfig_run {cfg : BitVec 128} (hc : structAt 128 b 4 = cfg) (h : Hdr) (s : State) : (cardCombinerConfig b).run h s =
    (s.onGroup g fun k => { k with comb := cfg }, .done Reply.ok) := by
  simp only [cardCombinerConfig, selFin_of_selIndex hg, hc]

end

section
variable {b : Bytes} {o : Fin 4} {cfg : BitVec 64} (ho : selIndex b = o.val) (hc : structAt 64 b 4 = cfg)
include ho hc

theorem cardTrigoutConfig_checks_none {s : State} (hw : outSource cfg = 1 ∨ outSource cfg = 2 → fld cfg 28 16 ≠ 0)
    (hx : 2 ≤ outSource cfg → outIndex cfg ≤ 3) : (cardTrigoutConfig b).checks s = none := by
  have hl : ¬ 4 ≤ o.val := by omega
  simpa [cardTrigoutConfig, firstOf, ho, hc, hl] using ⟨hw, hx⟩

/-- A setting other than the one in force forgets the output's pulses; a level is shown as far back as the output's delay reaches (R97). -/
theorem cardTrigoutConfig_run (h : Hdr) (s : State) : (cardTrigoutConfig b).run h s =
    if (s.trigouts.get o).cfg = cfg then (s, .done Reply.ok)
    else
      let lag := 160 + outDelay cfg
      let g := vnat s.groups (outIndex cfg)
      (s.onOut o fun t => { t with
        cfg := cfg, starts := [], high := t.high && outSource (s.trigouts.get o).cfg ≠ 3
        levels := if outSource cfg = 3 then
            (s.now + 1, g.armedAt (s.now + 1 - lag)) :: ((g.armedLog.filter fun x => s.now + 1 < x.1 + lag).reverse.map fun x => (x.1 + lag, x.2))
          else [] }, .done Reply.ok) := by
  simp only [cardTrigoutConfig, selFin_of_selIndex ho, hc]

end

/-! SW_TRIGGER (R96, R367, R370), for any payload that selects unit u and brings the word w and the tick x. -/

section
variable {b : Bytes} {u : Fin 8} {w x : Nat} (hu : selIndex b = u.val) (hw : word b 1 = w) (hx : leAt b 8 8 = x)
include hu hw

theorem cardSwTrigger_busy_none {s : State} (ha : bit w 0 = true → (s.units.get u).atTick = none) : (cardSwTrigger b).busy s = none := by
  cases hb : bit w 0 with
  | false => simp [cardSwTrigger, firstOf, hw, hb]
  | true => simp [cardSwTrigger, firstOf, selFin_of_selIndex hu, ha hb]

include hx

theorem cardSwTrigger_checks_none {s : State} (on : (s.units.get u).on = true) (src : (s.units.get u).source = 0x40)
    (ha : bit w 0 = true → (s.now : Int) - 1280 ≤ s.internal x) : (cardSwTrigger b).checks s = none := by
  have hl : ¬ 8 ≤ u.val := by omega
  cases hb : bit w 0 with
  | false => simp [cardSwTrigger, firstOf, selFin_of_selIndex hu, hu, hl, hw, hb, on, src]
  | true => simp [cardSwTrigger, firstOf, selFin_of_selIndex hu, hu, hl, hw, hx, hb, on, src, Int.not_lt.mpr (ha hb)]

theorem cardSwTrigger_run (h : Hdr) (s : State) : (cardSwTrigger b).run h s =
    if bit w 0 then (s.onUnit u fun k => { k with atTick := some (s.internal x).toNat }, .done (Reply.ok (leBytes 8 x)))
    else (s.tag { source := 0x40, rising := true, time := (s.now - 1280) * 2 ^ 32, unit := u.val }, .done (Reply.ok (leBytes 8 (s.groveAt (s.now - 1280))))) := by
  simp only [cardSwTrigger, selFin_of_selIndex hu, hu, hw, hx]

end

/-- SW_TRIGGER brings its flags and its tick after SELECT. -/
theorem swTrigger_payload (select flags : BitVec 32) (tick : BitVec 64) :
    word (leBytes 4 select.toNat ++ leBytes 4 flags.toNat ++ leBytes 8 tick.toNat) 1 = flags.toNat ∧
      leAt (leBytes 4 select.toNat ++ leBytes 4 flags.toNat ++ leBytes 8 tick.toNat) 8 8 = tick.toNat := by
  rw [List.append_assoc, word_next, word_here, leAt_past _ _ 4 8 4 (leBytes_length ..), leAt_past _ _ 0 8 4 (leBytes_length ..), leAt_only]
  exact ⟨rfl, Nat.mod_eq_of_lt tick.isLt⟩

/-! The rows, heard where nothing is against them. -/

section
variable {s : State} {h : Hdr} {select : BitVec 32}

theorem State.Hears.tuConfig (k : s.Hears h 0x0301) (he : s.engineState ∈ setC) {i : Fin 8} (hi : select.toNat = i.val) {cfg : BitVec 256}
    (h1 : fld cfg 40 44 = 0) (h2 : fld cfg 1 21 = 0) (hr : s.referenced i.val = false) (hp : fld cfg 28 4 ∈ permitted (fld cfg 32 8))
    (hv : tuInvalid cfg = false) :
    s.Does (.tuConfig h select cfg) h 0x0301 (leBytes 4 select.toNat ++ leBytes 32 cfg.toNat) Reply.ok fun u =>
      u.reconfigure fun v => v.onUnit i fun x =>
        { x with cfg := cfg, cond := {}, last := none, atTick := none, cancels := x.cancels + (if x.atTick.isSome then 1 else 0) } := by
  have hi := (selIndex_here select (leBytes 32 cfg.toNat) (by omega)).trans hi
  have hc := structAt_past 32 select cfg
  exact ((cardTuConfig_selects _).passes k rfl rfl rfl (by decide) (by simp) rfl (cardTuConfig_frame _ h) (by simp [cardTuConfig])
    (reserved_clear 32 (f := (zeroFields · [(40, 44), (1, 21)])) (by omega) (by simp [zeroFields, h1, h2])) he rfl
    (cardTuConfig_checks_none hi hc hr hp hv)).does (cardTuConfig_run hi hc h _)

theorem State.Hears.cmpConfig (k : s.Hears h 0x0302) (he : s.engineState ∈ setC) {i : Fin 16} (hi : select.toNat = i.val) {cfg : BitVec 32}
    (hr : fld cfg 0 4 = 0) (hm : s.cmpMask i.val = 0) :
    s.Does (.cmpConfig h select cfg) h 0x0302 (leBytes 4 select.toNat ++ leBytes 4 cfg.toNat) Reply.ok fun u =>
      u.reconfigure fun v => v.onInput i fun k => { k.cmpRestart with cmp := cfg } := by
  have hi := (selIndex_here select (leBytes 4 cfg.toNat) (by omega)).trans hi
  exact ((cardCmpConfig_selects _).passes k rfl rfl rfl (by decide) (by simp) rfl (cardCmpConfig_frame _ h) (by simp [cardCmpConfig])
    (reserved_clear 4 (f := (fld · 0 4 == 0)) (by omega) (by simp [hr])) he rfl
    (cardCmpConfig_checks_none hi hm)).does (cardCmpConfig_run hi (structAt_past 4 select cfg) h _)

theorem State.Hears.combinerConfig (k : s.Hears h 0x0303) (he : s.engineState ∈ setC) {g : Fin 4} (hg : select.toNat = g.val) {cfg : BitVec 128}
    (h1 : fld cfg 32 15 = 0) (h2 : fld cfg 0 12 = 0) (hl : (s.groups.get g).live = false) :
    s.Does (.combinerConfig h select cfg) h 0x0303 (leBytes 4 select.toNat ++ leBytes 16 cfg.toNat) Reply.ok fun u =>
      u.onGroup g fun k => { k with comb := cfg } := by
  have hg := (selIndex_here select (leBytes 16 cfg.toNat) (by omega)).trans hg
  exact ((cardCombinerConfig_selects _).passes k rfl rfl rfl (by decide) (by simp) rfl (cardCombinerConfig_frame _ h) (by simp [cardCombinerConfig])
    (reserved_clear 16 (f := (zeroFields · [(32, 15), (0, 12)])) (by omega) (by simp [zeroFields, h1, h2])) he rfl
    (cardCombinerConfig_checks_none hg hl)).does (cardCombinerConfig_run hg (structAt_past 16 select cfg) h _)

theorem State.Hears.trigoutConfig (k : s.Hears h 0x0305) (he : s.engineState ∈ setC) {o : Fin 4} (ho : select.toNat = o.val) {cfg : BitVec 64}
    (h1 : fld cfg 11 17 = 0) (h2 : fld cfg 2 6 = 0) (hw : outSource cfg = 1 ∨ outSource cfg = 2 → fld cfg 28 16 ≠ 0)
    (hx : 2 ≤ outSource cfg → outIndex cfg ≤ 3) :
    ((s.trigouts.get o).cfg = cfg →
      s.Does (.trigoutConfig h select cfg) h 0x0305 (leBytes 4 select.toNat ++ leBytes 8 cfg.toNat) Reply.ok id) ∧
    ((s.trigouts.get o).cfg ≠ cfg →
      s.Does (.trigoutConfig h select cfg) h 0x0305 (leBytes 4 select.toNat ++ leBytes 8 cfg.toNat) Reply.ok fun u =>
        let lag := 160 + outDelay cfg
        let g := vnat s.groups (outIndex cfg)
        u.onOut o fun t => { t with
          cfg := cfg, starts := [], high := t.high && outSource (s.trigouts.get o).cfg ≠ 3
          levels := if outSource cfg = 3 then
              (u.now + 1, g.armedAt (u.now + 1 - lag)) :: ((g.armedLog.filter fun x => u.now + 1 < x.1 + lag).reverse.map fun x => (x.1 + lag, x.2))
            else [] }) := by
  have ho := (selIndex_here select (leBytes 8 cfg.toNat) (by omega)).trans ho
  have hc := structAt_past 8 select cfg
  have p := (cardTrigoutConfig_selects _).passes k (i := .trigoutConfig h select cfg) rfl rfl rfl (by decide) (by simp) rfl (cardTrigoutConfig_frame _ h)
    (by simp [cardTrigoutConfig]) (reserved_clear 8 (f := (zeroFields · [(11, 17), (2, 6)])) (by omega) (by simp [zeroFields, h1, h2])) he rfl
    (cardTrigoutConfig_checks_none ho hc hw hx)
  have run := cardTrigoutConfig_run ho hc h (s.heard h 0x0305 (leBytes 4 select.toNat ++ leBytes 8 cfg.toNat))
  exact ⟨fun same => p.does (run.trans (if_pos same)), fun new => p.does (run.trans (if_neg new))⟩

/-- SW_TRIGGER on an enabled SW unit: now, or at a tick not before 1,280 ticks back. -/
theorem State.Hears.swTrigger (k : s.Hears h 0x0304) (he : s.engineState ∈ setW) {flags : BitVec 32} {tick : BitVec 64} {u : Fin 8}
    (hu : select.toNat = u.val) (on : (s.units.get u).on = true) (src : (s.units.get u).source = 0x40) :
    (flags = 0 → tick = 0 → s.Does (.swTrigger h select flags tick) h 0x0304 (leBytes 4 select.toNat ++ leBytes 4 flags.toNat ++ leBytes 8 tick.toNat)
      (Reply.ok (leBytes 8 ((s.advance h.tick).groveAt ((s.advance h.tick).now - 1280))))
      fun v => v.tag { source := 0x40, rising := true, time := (v.now - 1280) * 2 ^ 32, unit := u.val }) ∧
    (flags = 1 → (s.units.get u).atTick = none → ((s.advance h.tick).now : Int) - 1280 ≤ (s.advance h.tick).internal tick.toNat →
      s.Does (.swTrigger h select flags tick) h 0x0304 (leBytes 4 select.toNat ++ leBytes 4 flags.toNat ++ leBytes 8 tick.toNat)
        (Reply.ok (leBytes 8 tick.toNat)) fun v => v.onUnit u fun x => { x with atTick := some (v.internal tick.toNat).toNat }) := by
  obtain ⟨hw, hx⟩ := swTrigger_payload select flags tick
  have hi : selIndex (leBytes 4 select.toNat ++ leBytes 4 flags.toNat ++ leBytes 8 tick.toNat) = u.val := by
    rw [List.append_assoc, selIndex_here _ _ (by omega), hu]
  have sel : selOk (leBytes 4 select.toNat ++ leBytes 4 flags.toNat ++ leBytes 8 tick.toNat) = true := by
    rw [List.append_assoc, selOk_here _ _ (by omega)]
  have passes (reserved : (onlyBits flags.toNat 1 && (bit flags.toNat 0 || decide (tick.toNat = 0))) = true)
      (later : bit flags.toNat 0 = true → (s.units.get u).atTick = none ∧ ((s.advance h.tick).now : Int) - 1280 ≤ (s.advance h.tick).internal tick.toNat) :=
    (cardSwTrigger_selects _).passes k (i := .swTrigger h select flags tick) rfl rfl rfl (by decide) (by simp) rfl (cardSwTrigger_frame _ h)
      (by simp [cardSwTrigger]) (by rw [sel, hw, hx, reserved]; rfl) he (cardSwTrigger_busy_none hi hw fun hb => (later hb).1)
      (cardSwTrigger_checks_none hi hw hx on src fun hb => (later hb).2)
  have run := cardSwTrigger_run hi hw hx h (s.heard h 0x0304 (leBytes 4 select.toNat ++ leBytes 4 flags.toNat ++ leBytes 8 tick.toNat))
  constructor
  · rintro rfl rfl
    exact (passes rfl (absurd · (by decide))).does (run.trans (if_neg (by decide)))
  · rintro rfl free due
    exact (passes rfl fun _ => ⟨free, due⟩).does (run.trans (if_pos (by decide)))

end

/-- Settles O4: the cards of the five commands, each where it finds nothing against the command. -/
theorem triggerCommandsTakeEffect : Obligations.TriggerCommandsTakeEffect := by
  intro s h select
  have sel {n : Nat} [NeZero n] (hs : select.toNat < n) : select.toNat = (Fin.ofNat n select.toNat).val := (Nat.mod_eq_of_lt hs).symm
  refine ⟨fun cfg k he hs h1 h2 hr hp hv => ?_, fun cfg k he hs hr hm => ?_, fun cfg k he hs h1 h2 hl => k.combinerConfig he (sel hs) h1 h2 hl,
    fun flags tick u k he hu on src => k.swTrigger he hu on src, fun cfg o k he ho h1 h2 hw hx => k.trigoutConfig he ho h1 h2 hw hx⟩
  · exact k.tuConfig he (sel hs) h1 h2 (by rwa [← sel hs]) hp hv
  · exact k.cmpConfig he (sel hs) hr (by rwa [← sel hs])

end Sys2Proof.Machine
end

section
/-!
The events of the trigger family (R55, R58, R77, R96, R97, R369, R530): the edges of a TRIGIN pin, a software trigger that falls due, and the pulses and levels of the trigger outputs.
-/
namespace Sys2Proof.Machine

/-- Where the one number there may be is not beyond n, none is. -/
theorem option_any_lt_false {o : Option Nat} {f : Nat → Nat} {n : Nat} (h : ∀ x, o = some x → f x ≤ n) : (o.any fun x => n < f x) = false :=
  (Option.any_eq_false ..).mpr fun x hx => decide_eq_false (Nat.not_lt.mpr (h x hx))

/-! An edge of a TRIGIN pin (R58, R530). -/

/-- A pin's level and the time of its last edge of that direction are noted. -/
def State.noteEdge (s : State) (pin : Fin 4) (level : Bool) (fell rose : Option Nat) (time : Nat) : State := s.onBoard fun b =>
  { b with trigin := b.trigin.set pin.val (level, if level then fell else some time, if level then some time else rose) }

/-- The row of an edge that is measured not later than now. -/
theorem State.triginEdge_row {s : State} {t tick : Nat} {pin : Fin 4} {level : Bool} (fraction : BitVec 32) (ht : tick ≤ max s.now t) {u : State}
    (h : (s.advance t).triginEdge pin level (tick * 2 ^ 32 + fraction.toNat) = u) : exec (.triginEdge t pin level tick fraction) s = .next u :=
  congrArg Host.Outcome.next ((if_neg (Nat.not_lt.mpr ht)).trans h)

section
variable {s : State} {pin : Fin 4} {level was : Bool} {fell rose : Option Nat}
  (hp : s.board.trigin.getD pin.val (false, none, none) = (was, fell, rose)) (hl : was ≠ level)
include hp hl

/-- An edge is noted, and tagged unless one of its direction came less than 40 ticks before. -/
theorem State.triginEdge_changing (time : Nat) :
    s.triginEdge pin level time =
      if (if level then rose else fell).any fun y => time < y + 40 * 2 ^ 32 then s.noteEdge pin level fell rose time
      else (s.noteEdge pin level fell rose time).tag { source := 0x10 + pin.val, rising := level, time := time, unit := 0 } := by
  unfold State.triginEdge
  simp only [hp]
  exact if_neg hl

variable {t tick : Nat} (fraction : BitVec 32) (ht : tick ≤ max s.now t)
include ht

theorem State.triginEdge_tagged (far : ∀ y, (if level then rose else fell) = some y → y + 40 * 2 ^ 32 ≤ tick * 2 ^ 32 + fraction.toNat) :
    s.Turns (.triginEdge t pin level tick fraction) t fun v => (v.noteEdge pin level fell rose (tick * 2 ^ 32 + fraction.toNat)).tag
      { source := 0x10 + pin.val, rising := level, time := tick * 2 ^ 32 + fraction.toNat, unit := 0 } := by
  have occupied : ((if level then rose else fell).any fun y => tick * 2 ^ 32 + fraction.toNat < y + 40 * 2 ^ 32) = false :=
    option_any_lt_false far
  exact State.triginEdge_row fraction ht
    ((State.triginEdge_changing (s := s.advance t) hp hl _).trans (if_neg (ne_true_of_eq_false occupied)))

theorem State.triginEdge_untagged {y : Nat} (last : (if level then rose else fell) = some y) (near : tick * 2 ^ 32 + fraction.toNat < y + 40 * 2 ^ 32) :
    s.Turns (.triginEdge t pin level tick fraction) t fun v => v.noteEdge pin level fell rose (tick * 2 ^ 32 + fraction.toNat) := by
  have occupied : ((if level then rose else fell).any fun y => tick * 2 ^ 32 + fraction.toNat < y + 40 * 2 ^ 32) = true :=
    (Option.any_eq_true ..).mpr ⟨y, last, decide_eq_true near⟩
  exact State.triginEdge_row fraction ht ((State.triginEdge_changing (s := s.advance t) hp hl _).trans (if_pos occupied))

end

/-- A pending AT_TICK whose samples have reached the unit is cleared and tagged (R96). -/
theorem State.swTriggerDue_turns {s : State} {t x : Nat} {u : Fin 8} (hx : (s.units.get u).atTick = some x) (due : x + 1280 ≤ max s.now t) :
    s.Turns (.swTriggerDue t u) t fun v =>
      (v.onUnit u fun k => { k with atTick := none }).tag { source := 0x40, rising := true, time := x * 2 ^ 32, unit := u.val } := by
  have hx : ((s.advance t).units.get u).atTick = some x := hx
  show execSwTriggerDue t u s = _
  simp only [execSwTriggerDue, hx]
  exact congrArg _ (if_neg (Nat.not_lt.mpr due))

/-! The outputs (R97, R369). -/

theorem State.onOut_congr {s : State} {o : Fin 4} {f g : Trigout → Trigout} (h : f (s.trigouts.get o) = g (s.trigouts.get o)) :
    s.onOut o f = s.onOut o g := by
  rw [State.onOut, State.onOut, vmod_congr _ _ _ _ h]

theorem leastOf_eq_min? (l : List Nat) : leastOf l = l.min? := by
  cases l <;> rfl

section
variable {s : State} {t : Nat} {o : Fin 4}

/-- The earliest pulse, once due, drives the output high until its width is over, and extends a pulse that is high. -/
theorem State.trigoutPulseStart_turns {x : Nat} (hx : x ∈ (s.trigouts.get o).starts) (least : ∀ y ∈ (s.trigouts.get o).starts, x ≤ y)
    (due : x ≤ max s.now t) :
    s.Turns (.trigoutPulseStart t o) t fun v => v.onOut o fun k => { k with
      high := true, starts := k.starts.erase x, endAt := if k.high then max k.endAt (x + outWidth k.cfg) else x + outWidth k.cfg } := by
  have first : leastOf ((s.advance t).trigouts.get o).starts = some x := by
    rw [leastOf_eq_min?]
    exact List.min?_eq_some_iff.mpr ⟨hx, least⟩
  refine congrArg Host.Outcome.next (State.onOut_congr ?_)
  simp only [first]
  exact if_pos due

/-- A pulse that is over and that none extends goes low. -/
theorem State.trigoutPulseEnd_turns (high : (s.trigouts.get o).high = true) (past : (s.trigouts.get o).endAt ≤ max s.now t)
    (pulse : outSource (s.trigouts.get o).cfg ≠ 3) (last : ∀ y ∈ (s.trigouts.get o).starts, (s.trigouts.get o).endAt < y) :
    s.Turns (.trigoutPulseEnd t o) t fun v => v.onOut o fun k => { k with high := false } := by
  refine congrArg Host.Outcome.next (State.onOut_congr (if_pos ?_))
  simp only [Bool.and_eq_true, decide_eq_true_eq, List.all_eq_true]
  exact ⟨⟨⟨high, past⟩, pulse⟩, last⟩

/-- A level that is due is shown. -/
theorem State.trigoutLevelChange_turns {x : Nat} {level : Bool} {rest : List (Nat × Bool)} (hx : (s.trigouts.get o).levels = (x, level) :: rest)
    (due : x ≤ max s.now t) : s.Turns (.trigoutLevelChange t o) t fun v => v.onOut o fun k => { k with high := level, levels := rest } := by
  have hx : ((s.advance t).trigouts.get o).levels = (x, level) :: rest := hx
  refine congrArg Host.Outcome.next (State.onOut_congr ?_)
  simp only [hx]
  exact if_pos due

end

/-- Settles O22: each row by what its operation does where its condition holds. -/
theorem triggerEventsTakeEffect : Obligations.TriggerEventsTakeEffect := by
  intro s t
  refine ⟨rfl, rfl, ?edge, fun u x => State.swTriggerDue_turns, fun o x => State.trigoutPulseStart_turns, fun o => State.trigoutPulseEnd_turns,
    fun o x level rest => State.trigoutLevelChange_turns⟩
  case edge =>
    rintro pin level was fell rose tick _ fraction ht rfl hp hl
    exact ⟨State.triginEdge_tagged hp hl fraction ht, fun y => State.triginEdge_untagged hp hl fraction ht⟩

end Sys2Proof.Machine
end

section
/-!
The events of capture and accumulation (R84, R86, R103, R110 to R159): the ends of fills and hold-offs, the blocks of a record, and what completes.
-/
namespace Sys2Proof.Machine

/-! Fills and hold-offs (R84 to R86, R103). -/

section
variable {s : State} {g : Fin 4} {e : Nat}

/-- A fill ends once its last sample has reached capture, and a closing that waited for it follows. -/
theorem State.fillEnds_due (hs : (s.groups.get g).state = .filling) (hn : (s.groups.get g).ending = none) (he : (s.groups.get g).postEnd = some e)
    (due : e ≤ atCapture (s.groups.get g).f s.now) :
    s.fillEnds g =
      if (s.groups.get g).closeAtFill = 0 then s.setGroupState g ((s.groups.get g).stateAt s.now)
      else ((s.setGroupState g ((s.groups.get g).stateAt s.now)).closeGroup g (s.groups.get g).closeAtFill s.now).onGroup g
        fun y => { y with closeAtFill := 0 } := by
  unfold State.fillEnds
  exact if_neg (by simp [hs, hn, he, due])

theorem fillComplete_row {t : Nat} {w u : State} (hw : (s.advance t).decideTo (s.advance t).now = w) (h : w.fillEnds g = u) :
    exec (.fillComplete t g) s = .next u := by
  subst hw h
  rfl

/-- A hold-off whose re-arm sample has come ends, where the group is not ending. -/
theorem holdoffExpiry_due {t : Nat} {w : State} (hw : (s.advance t).decideTo (s.advance t).now = w) (hs : (w.groups.get g).state = .holdoff)
    (hn : (w.groups.get g).ending = none) (he : (w.groups.get g).rearm = some e) (due : e ≤ atCapture (w.groups.get g).f w.now) :
    exec (.holdoffExpiry t g) s = .next (w.setGroupState g .armed) := by
  subst hw
  exact congrArg Host.Outcome.next (if_pos (by simp [hs, hn, he, due]))

end

/-! The blocks of a record (R110, R116, R118, R194). -/

section
variable {s : State} {g : Fin 4} {r : Record} {stop : Nat} (tainted : Bool)

/-- The next block of a segmented record is written at its place, once its samples have reached capture. -/
theorem State.segmentBlock_due (hs : r.stop = some stop) {j : Nat} (hj : r.nextBlock stop = some j) (due : r.needs stop j ≤ atCapture r.f s.now) :
    s.segmentBlock g r tainted =
      (s.onMem fun m => m.put ((s.groups.get g).segBase (s.groups.get g).f r.segment + 2048 * j)
        (blockOf (((s.payload r stop).drop (2044 * j)).take 2044) tainted)).onGroup g fun y =>
          y.onCurrent fun z => { z with written := z.written ++ [j] } := by
  unfold State.segmentBlock
  simp only [hs, hj]
  exact if_neg (Nat.not_lt.mpr due)

/-- The stored samples of each channel that the blocks of a streamed record hold. -/
def Record.streamed (r : Record) : Nat := (r.places.length - 1) / max 1 r.inputs.length * roundSize r

/-- The stored samples of the next block of a streamed record, of the next channel of the round under way. -/
def State.streamWords (s : State) (r : Record) (stop : Nat) : List Nat :=
  let p := s.span r (r.inputs.getD ((r.places.length - 1) % max 1 r.inputs.length) 0) stop
  ((List.range (min (roundSize r) (r.count stop - r.streamed))).map fun i : Nat => p.stored r.decim (jLow r.decim r.trig r.first + r.streamed + i)).flatten

variable (hs : r.stop.getD (2 ^ 80) = stop) (more : r.streamed < r.count stop)
  (due : r.upTo stop (r.streamed + roundSize r) ≤ atCapture r.f s.now)
include hs more due

/-- A streamed record takes the next position of the stream for the samples that have reached capture; with none free it ends. -/
theorem State.streamData_due :
    s.streamData g r tainted =
      if (s.groups.get g).streamFree = 0 then
        (s.streamOverflow g r.seq).onGroup g fun y => y.onCurrent fun z => z.cut (z.endOf r.streamed) 8 (s.streamOverflow g r.seq).events.seq
      else s.putStream g (blockOf ((s.streamWords r stop).map (leBytes 2)).flatten tainted) := by
  subst hs
  unfold State.streamData
  refine if_neg ?_
  simp only [Bool.or_eq_true, decide_eq_true_eq, not_or, Nat.not_le, Nat.not_lt]
  exact ⟨more, due⟩

end

/-- The row of a block of the record in assembly (R110, R116, R194). -/
theorem recordBlockWritten_row {s : State} {g : Fin 4} {r : Record} (hr : (s.groups.get g).current = some r) (t : Nat) (taint : Option (Nat × Nat)) :
    exec (.recordBlockWritten t g taint) s =
      .next ((if (s.groups.get g).streaming then (s.advance t).streamData g r taint.isSome
        else (s.advance t).segmentBlock g r taint.isSome).taintRecord g taint) := by
  have hr : ((s.advance t).groups.get g).current = some r := hr
  show execRecordBlockWritten t g taint s = _
  simp only [execRecordBlockWritten, hr]
  rfl

theorem recordBlockWritten_segmented {s : State} {g : Fin 4} {r : Record} {t stop j : Nat} (hr : (s.groups.get g).current = some r)
    (seg : (s.groups.get g).streaming = false) (hs : r.stop = some stop) (hj : r.nextBlock stop = some j)
    (due : r.needs stop j ≤ atCapture r.f (s.advance t).now) (taint : Option (Nat × Nat)) :
    exec (.recordBlockWritten t g taint) s =
      .next ((((s.advance t).onMem fun m => m.put ((s.groups.get g).segBase (s.groups.get g).f r.segment + 2048 * j)
        (blockOf ((((s.advance t).payload r stop).drop (2044 * j)).take 2044) taint.isSome)).onGroup g fun y =>
          y.onCurrent fun z => { z with written := z.written ++ [j] }).taintRecord g taint) := by
  rw [recordBlockWritten_row hr, seg, if_neg Bool.false_ne_true, State.segmentBlock_due _ hs hj due]
  rfl

theorem recordBlockWritten_streamed {s : State} {g : Fin 4} {r : Record} {t stop : Nat} (hr : (s.groups.get g).current = some r)
    (str : (s.groups.get g).streaming = true) (hs : r.stop.getD (2 ^ 80) = stop) (more : r.streamed < r.count stop)
    (due : r.upTo stop (r.streamed + roundSize r) ≤ atCapture r.f (s.advance t).now) (taint : Option (Nat × Nat)) :
    exec (.recordBlockWritten t g taint) s =
      .next ((if (s.groups.get g).streamFree = 0 then
        ((s.advance t).streamOverflow g r.seq).onGroup g fun y => y.onCurrent fun z =>
          z.cut (z.endOf r.streamed) 8 ((s.advance t).streamOverflow g r.seq).events.seq
        else (s.advance t).putStream g (blockOf (((s.advance t).streamWords r stop).map (leBytes 2)).flatten taint.isSome)).taintRecord g taint) := by
  rw [recordBlockWritten_row hr, str, if_pos rfl, State.streamData_due _ hs more due]
  rfl

/-! What completes: records, their additions, and snapshots (R110, R143, R144, R153, R157, R159). -/

section
variable {s w : State} {g : Fin 4} {t stop : Nat} {r : Record} (hw : (s.advance t).decideTo (s.advance t).now = w)
  (hr : (w.groups.get g).current = some r) (hs : r.stop = some stop) (due : stop ≤ atCapture r.f w.now)
include hw hr hs due

theorem recordComplete_due (written : r.allWritten (w.groups.get g).streaming stop = true)
    (committed : (w.accs.get g).committed r (w.finalFlags r stop) = true) :
    exec (.recordComplete t g) s = .next (w.completeRecord g r stop) := by
  show execRecordComplete t g s = _
  simp only [execRecordComplete, hw, hr, hs]
  exact congrArg _ (if_neg (by simp [due, written, committed]))

theorem accumulationCommit_due (act : (w.accs.get g).active = true) (going : (w.accs.get g).stopped = false)
    (next : (w.accs.get g).nextSeq = r.seq) (admitted : (w.accs.get g).excludes (w.finalFlags r stop) = false) :
    exec (.accumulationCommit t g) s = .next (w.commitRecord g r stop (w.finalFlags r stop)) := by
  show execAccumulationCommit t g s = _
  simp only [execAccumulationCommit, hw, hr, hs]
  exact congrArg _ (if_neg (by simp [due, act, going, next, admitted]))

end

/-- The oldest snapshot is written to its slot and queued, once the records it covers are complete; in DONE the last one releases the store. -/
theorem snapshotComplete_due {s : State} {g : Fin 4} {k : Snap} {rest : List Snap} (hk : (s.accs.get g).snaps = k :: rest)
    (covered : leAt k.header 24 4 ≠ 0 → ∀ r ∈ (s.groups.get g).records, k.lastSeq < r.seq) (t : Nat) :
    exec (.snapshotComplete t g) s = .next (
      let a := (s.advance t).onMem fun m => m.putBlocks (slotBase (s.groups.get g) (s.accs.get g) k.slot) (snapBlocks k)
      let u := (a.addItem g (a.snapItem g k)).onAcc g fun y => { y with snaps := rest }
      if (u.groups.get g).state = .done ∧ rest = [] then u.onAcc g Acc.release else u) := by
  have hk : ((s.advance t).accs.get g).snaps = k :: rest := hk
  have free : ¬ (leAt k.header 24 4 ≠ 0 ∧ (s.groups.get g).records.any (fun r => r.seq ≤ k.lastSeq) = true) := by
    rintro ⟨hc, waits⟩
    obtain ⟨r, hr, hle⟩ := List.any_eq_true.mp waits
    exact absurd (covered hc r hr) (Nat.not_lt.mpr (of_decide_eq_true hle))
  show execSnapshotComplete t g s = _
  simp only [execSnapshotComplete, hk, List.isEmpty_iff]
  exact congrArg _ (if_neg free)

/-- Settles O23: each row by what its operation does where its condition holds. -/
theorem captureEventsTakeEffect : Obligations.CaptureEventsTakeEffect := by
  intro s t g v w x
  refine ⟨fun e hs hn he due => fillComplete_row rfl (State.fillEnds_due (s := w) hs hn he due), fun e hs hn he due => holdoffExpiry_due rfl hs hn he due,
    fun r stop taint hr => ⟨fun seg hs j hj due => recordBlockWritten_segmented hr seg hs hj due taint, ?stream⟩,
    fun r stop hr hs due written committed => recordComplete_due rfl hr hs due written committed,
    fun r stop hr hs due act going next admitted => accumulationCommit_due rfl hr hs due act going next admitted,
    fun k rest hk covered => snapshotComplete_due hk covered t⟩
  case stream =>
    intro str hs done n more due
    have row := recordBlockWritten_streamed (t := t) hr str hs more due taint
    refine ⟨fun full => row.trans ?_, fun free => row.trans ?_⟩
    · rw [if_pos full]; rfl
    · rw [if_neg free]; rfl

end Sys2Proof.Machine
end

section
/-!
Grove triggers, priority frames and ranging (R88, R89, R433 to R437, R445, R447, R449, R451, R454): what a frame's PSEQ decides, and what each frame and time limit then does.
-/
namespace Sys2Proof.Machine

/-- While the bough transmitters run, a row of the grove has the effect of its operation (R426). -/
theorem State.bough_turnsThen {s : State} (on : s.boughOn = true) {i : Instr} {t : Nat} (f : State → State) {g : State → State}
    (row : exec i s = s.bough t f) (h : f (s.advance t) = g (s.advance t)) : s.TurnsThen i t g :=
  State.event_turnsThen row ((if_pos on).trans h)

/-! The PSEQ of a frame (R434, R435). -/

/-- A frame whose PSEQ is the next on its port is acknowledged and counted in. -/
def State.accepted (s : State) (p : Fin 5) (pseq : Nat) : State :=
  s.onPort p fun b => { (b.sendPack pseq s.grove.devaddr) with rxP := (b.rxP + 1) % 256 }

section
variable {s : State} {p : Fin 5} {pseq : Nat} (up : (s.port p).link = .up)
include up

theorem State.frameIn_next (hp : pseq % 256 = (s.port p).rxP) : s.frameIn p pseq = (s.accepted p pseq, true) := by
  unfold State.frameIn
  exact (if_neg (not_not_intro up)).trans (if_pos hp)

theorem State.frameIn_again (hp : pseq % 256 ≠ (s.port p).rxP) (near : ((s.port p).rxP + 256 - pseq % 256) % 256 ≤ 128) :
    s.frameIn p pseq = (s.onPort p fun b => b.sendPack pseq s.grove.devaddr, false) := by
  unfold State.frameIn
  exact (if_neg (not_not_intro up)).trans ((if_neg hp).trans (if_pos near))

end

/-! Grove triggers and trigger requests (R88, R89, R437, R449, R451). -/

/-- A trigger request is queued (R437, R451): by the manager up to 16, and by a device that sends it on up to 8. -/
def Grove.request (x : Grove) (q : TrigReq) : Grove :=
  if x.role = .manager then (if 16 ≤ x.requests.length then { x with queueDrops := x.queueDrops + 1 } else { x with requests := x.requests ++ [q] })
  else if x.role = .orphanRoot then { x with orphanRequestDrops := x.orphanRequestDrops + 1 }
  else if 8 ≤ x.forwards.length then { x with requestDrops := x.requestDrops + 1 }
  else { x with forwards := x.forwards ++ [q] }

section
variable {s u : State} {pseq : Nat} (origin tick fraction : Nat)

/-- A frame that is not the next one only leaves its PACK. -/
theorem State.groveTriggerIn_again (h : s.frameIn 0 pseq = (u, false)) (gtn : Nat) : s.groveTriggerIn pseq origin tick fraction gtn = u := by
  simp [State.groveTriggerIn, h]

theorem State.requestIn_again {p : Fin 5} (h : s.frameIn p pseq = (u, false)) : s.requestIn p pseq origin tick fraction = u := by
  simp [State.requestIn, h]

/-- A grove trigger is relayed and delivered, but not by an orphan. -/
theorem State.groveTriggerIn_next (h : s.frameIn 0 pseq = (u, true)) (gtn : Nat) :
    s.groveTriggerIn pseq origin tick fraction gtn =
      if s.grove.role.orphan then u else (u.broadcastDown origin tick fraction gtn).groveTrigger origin tick fraction gtn := by
  cases o : s.grove.role.orphan <;> simp [State.groveTriggerIn, h, o]

theorem State.requestIn_next {p : Fin 5} (h : s.frameIn p pseq = (u, true)) :
    s.requestIn p pseq origin tick fraction =
      u.onGrove fun x => x.request { origin := origin, tick := tick, fraction := fraction, arrived := s.now } := by
  unfold State.requestIn State.onGrove Grove.request
  simp only [h, Bool.not_true, Bool.false_eq_true, if_false]
  cases u.grove.role <;> rfl

end

section
variable {s : State} {q : TrigReq} {rest : List TrigReq}

/-- The manager takes the oldest request 256 ticks after the last: out of time order it drops it, else it broadcasts it with the next GTN. -/
theorem State.groveBroadcast_takes (hq : s.grove.requests = q :: rest) (hm : s.grove.role = .manager) (arrived : q.arrived ≤ s.now)
    (spaced : ∀ x, s.grove.lastSent = some x → x + 256 ≤ s.now) :
    s.groveBroadcast =
      if s.grove.lastBroadcast.any fun x => q.tick * 2 ^ 32 + q.fraction ≤ x then
        (s.onGrove fun x => { x with requests := rest }).onGrove fun x => { x with orderDrops := x.orderDrops + 1 }
      else
        (((s.onGrove fun x => { x with requests := rest }).onGrove fun x =>
          { x with gtn := (x.gtn + 1) % 2 ^ 32, lastBroadcast := some (q.tick * 2 ^ 32 + q.fraction), lastSent := some s.now }).broadcastDown
            q.origin q.tick q.fraction s.grove.gtn).groveTrigger q.origin q.tick q.fraction s.grove.gtn := by
  unfold State.groveBroadcast
  simp only [hq]
  exact if_neg (by simp [hm, arrived, option_any_lt_false spaced])

/-- The next queued request goes up, 256 ticks after the last. -/
theorem State.requestForward_takes (hq : s.grove.forwards = q :: rest) (arrived : q.arrived ≤ s.now)
    (spaced : ∀ x, s.grove.lastForward = some x → x + 256 ≤ s.now) :
    s.requestForward = (s.onGrove fun x => { x with forwards := rest, lastForward := some s.now }).frameOut 0
      { kind := 2, pseq := 0, origin := q.origin, tick := q.tick, fraction := q.fraction, value := 0 } := by
  unfold State.requestForward
  simp only [hq]
  exact if_neg (by simp [arrived, option_any_lt_false spaced])

end

/-- A frame without PACK is sent again 6,000 ticks after its departure, and after the eighth time takes the port down (R435). -/
theorem State.resendFrame_due {s : State} {p : Fin 5} {f : OutFrame} {rest : List OutFrame} (hf : (s.port p).frames = f :: rest)
    (up : (s.port p).link = .up) (due : f.departed + 6000 ≤ s.now) :
    s.resendFrame p =
      if 7 ≤ f.resends then s.portDown p s.now
      else s.onPort p fun b => { b with
        frames := { f with departed := f.departed + 6000, resends := f.resends + 1 } :: rest, pframeResends := b.pframeResends + 1
        wire := frameBytes f.frame :: b.wire } := by
  unfold State.resendFrame
  simp only [hf]
  exact if_pos (by simp [up, due])

/-! Ranging (R445, R447, R454). -/

section
variable {s u : State} {p : Fin 5} {pseq : Nat}

theorem State.rangeReq_next (h : s.frameIn 0 pseq = (u, true)) (t1 t1frac number arrival turnaround : Nat) :
    s.rangeReq pseq t1 t1frac number arrival turnaround =
      (u.onGrove fun x => { x with
        upSum := (if number = 0 then 0 else x.upSum) + (((s.grove64 * 2 ^ 32 + arrival : Nat) : Int) - (t1 * 2 ^ 32 + t1frac : Nat))
        upCount := if number = 0 then 1 else x.upCount + 1 }).frameOut 0
          { kind := 4, pseq := 0, origin := s.grove.devaddr, tick := s.grove64, fraction := arrival, value := turnaround } := by
  unfold State.rangeReq
  simp only [h]
  rfl

theorem State.rangeReply_next (h : s.frameIn p pseq = (u, true)) (turnaround arrival : Nat) :
    s.rangeReply p pseq turnaround arrival = u.onPort p fun b => { b with run := b.run.map fun k =>
      { k with done := k.done + 1, sum := k.sum + 50000 * (((s.grove64 * 2 ^ 32 + arrival : Nat) : Int) - k.t1) - (turnaround * 2 ^ 32 : Nat) } } := by
  unfold State.rangeReply
  simp only [h]
  rfl

theorem State.rangeExchange_due {r : RangeRun} (hr : (s.port p).run = some r) (up : (s.port p).link = .up) (more : r.done < 1024) :
    s.rangeExchange p = (s.onPort p fun b => { b with run := some { r with t1 := s.grove64 * 2 ^ 32 } }).frameOut p
      { kind := 3, pseq := 0, origin := s.grove.devaddr, tick := s.grove64, fraction := 0, value := r.done } := by
  unfold State.rangeExchange
  simp only [hr]
  exact if_neg (by simp [up, more])

/-- After 1,024 exchanges the mean delay is sent and reported. -/
theorem State.rangeComplete_due {r : RangeRun} (hr : (s.port p).run = some r) (done : 1024 ≤ r.done) :
    s.rangeComplete p =
      let d := roundDiv r.sum (2 * 2 ^ 32 * r.done)
      ((s.onPort p fun b => { b with run := none, delay := d, ranged := true, longCable := 100000000 < d }).frameOut p
        { kind := 5, pseq := 0, origin := s.grove.devaddr, tick := 0, fraction := 0, value := unsigned 32 d }).each r.tickets fun u k =>
          u.raise { code := 0x0B87, obj := p.val, ticket := k, vals := [unsigned 64 d] } := by
  unfold State.rangeComplete
  simp only [hr]
  exact if_neg (Nat.not_lt.mpr done)

theorem State.trackingRange_due (up : (s.port p).link = .up) (idle : (s.port p).run = none) (worker : (s.port p).partner.map LinkMsg.role = some 1) :
    s.trackingRange p = s.startRange p [] := by
  unfold State.trackingRange
  exact if_pos (by simp only [up, idle, worker]; rfl)

/-- The device below takes the mean delay as its offset: a device that joined again reports it, and an aligned one follows it. -/
theorem State.rangeResult_next (h : s.frameIn 0 pseq = (u, true)) (counted : s.grove.upCount ≠ 0) (mean : Nat) :
    s.rangeResult pseq mean =
      let off := roundDiv (50000 * s.grove.upSum) (2 ^ 32 * s.grove.upCount) - signed 32 mean
      let noted := u.onGrove fun x => { x with upOffset := off, upSum := 0, upCount := 0, rejoin := none }
      match s.grove.rejoin with
      | none => if s.tracking then noted.track else noted
      | some (tick, epoch) => (if s.grove.aligned then noted.track else noted).raise
          { code := 0x0B85, vals := [s.grove.orphanTick, tick, epoch, unsigned 64 off, if 50000 < off.natAbs then 1 else 0] } := by
  unfold State.rangeResult
  simp only [h]
  exact if_neg (by simp [counted])

end

/-- A frame that comes again on its port is only acknowledged (R435). -/
theorem State.frame_again {s : State} (on : s.boughOn = true) {t : Nat} {p : Fin 5} {pseq : Nat} {i : Instr} (up : (s.port p).link = .up)
    (below : ∀ k : Fin 4, p = k.succ → ∃ o tick fr, i = .triggerRequest t k pseq o tick fr)
    (above : p = 0 → ∃ o tick fr gtn, i = .groveTrigger t pseq o tick fr gtn)
    (hp : pseq % 256 ≠ (s.port p).rxP) (near : ((s.port p).rxP + 256 - pseq % 256) % 256 ≤ 128) :
    s.TurnsThen i t fun v => v.onPort p fun b => b.sendPack pseq s.grove.devaddr := by
  have again := State.frameIn_again (s := s.advance t) up hp near
  cases p using Fin.cases with
  | zero =>
    obtain ⟨o, tick, fr, gtn, rfl⟩ := above rfl
    exact State.bough_turnsThen on (fun v => v.groveTriggerIn pseq (o % 65536) tick.toNat fr.toNat gtn.toNat) rfl
      (State.groveTriggerIn_again _ _ _ again _)
  | succ k =>
    obtain ⟨o, tick, fr, rfl⟩ := below k rfl
    exact State.bough_turnsThen on (fun v => v.requestIn k.succ pseq (o % 65536) tick.toNat fr.toNat) rfl (State.requestIn_again _ _ _ again)

/-- Settles O33: each row by what its operation does where its condition holds. -/
theorem groveTriggersAndRangingTakeEffect : Obligations.GroveTriggersAndRangingTakeEffect := by
  intro s t on g taken request
  have next {p : Fin 5} {pseq : Nat} (up : (s.port p).link = .up) (hp : pseq % 256 = (s.port p).rxP) :
      (s.advance t).frameIn p pseq = (taken (s.advance t) p pseq, true) := State.frameIn_next (s := s.advance t) up hp
  have turns {i : Instr} (f : State → State) {g : State → State} (row : exec i s = s.bough t f) (h : f (s.advance t) = g (s.advance t)) :
      s.TurnsThen i t g := State.bough_turnsThen on f row h
  refine ⟨fun p pseq i up below above => State.frame_again on up below above, ?trigger, ?request, ?broadcast, ?forward,
    fun p pseq => turns (·.packIn p pseq) rfl rfl, ?resend, ?rangeReq, ?rangeReply, ?exchange, ?tracking, ?result⟩
  case trigger =>
    intro pseq origin tick fr gtn up hp
    have h := State.groveTriggerIn_next (origin % 65536) tick.toNat fr.toNat (next up hp) gtn.toNat
    exact ⟨fun o => turns (·.groveTriggerIn pseq (origin % 65536) tick.toNat fr.toNat gtn.toNat) rfl (h.trans (if_pos o)),
      fun o => turns (·.groveTriggerIn pseq (origin % 65536) tick.toNat fr.toNat gtn.toNat) rfl (h.trans (if_neg (ne_true_of_eq_false o)))⟩
  case request =>
    intro p pseq origin tick fr up hp
    exact turns (·.requestIn p.succ pseq (origin % 65536) tick.toNat fr.toNat) rfl (State.requestIn_next _ _ _ (next up hp))
  case broadcast =>
    intro q rest hq hm arrived spaced time off
    have h := State.groveBroadcast_takes (s := s.advance t) hq hm arrived spaced
    refine ⟨fun x hx late => turns (·.groveBroadcast) rfl (h.trans (if_pos ?_)), fun early => turns (·.groveBroadcast) rfl (h.trans (if_neg ?_))⟩
    · exact (Option.any_eq_true ..).mpr ⟨x, hx, decide_eq_true late⟩
    · exact ne_true_of_eq_false ((Option.any_eq_false ..).mpr fun x hx => decide_eq_false (Nat.not_le.mpr (early x hx)))
  case forward =>
    intro q rest hq arrived spaced
    exact turns (·.requestForward) rfl (State.requestForward_takes (s := s.advance t) hq arrived spaced)
  case resend =>
    intro p f rest hf up due
    have h := State.resendFrame_due (s := s.advance t) hf up due
    exact ⟨fun spent => turns (·.resendFrame p) rfl (h.trans (if_pos spent)),
      fun more => turns (·.resendFrame p) rfl (h.trans (if_neg (Nat.not_le.mpr more)))⟩
  case rangeReq =>
    intro pseq t1 t1frac number arrival turnaround up hp
    have first : number = 0 ↔ number.toNat = 0 := BitVec.toNat_inj.symm
    refine turns (·.rangeReq pseq t1.toNat t1frac.toNat number.toNat arrival.toNat turnaround.toNat) rfl ((State.rangeReq_next (next up hp) ..).trans ?_)
    simp only [first]
    rfl
  case rangeReply =>
    intro p pseq turnaround arrival up hp
    exact turns (·.rangeReply p.succ pseq turnaround.toNat arrival.toNat) rfl (State.rangeReply_next (next up hp) _ _)
  case exchange =>
    intro p r hr
    exact ⟨fun up more => turns (·.rangeExchange p.succ) rfl (State.rangeExchange_due (s := s.advance t) hr up more),
      fun done => turns (·.rangeComplete p.succ) rfl (State.rangeComplete_due (s := s.advance t) hr done)⟩
  case tracking =>
    intro p up idle worker
    exact turns (·.trackingRange p.succ) rfl (State.trackingRange_due (s := s.advance t) up idle worker)
  case result =>
    intro pseq mean up hp counted u noted
    have h := State.rangeResult_next (next up hp) counted mean.toNat
    refine ⟨fun first => turns (·.rangeResult pseq mean.toNat) rfl (h.trans ?_),
      fun tick epoch again => turns (·.rangeResult pseq mean.toNat) rfl (h.trans ?_)⟩
    · have first : (s.advance t).grove.rejoin = none := first
      simp only [first]
      rfl
    · have again : (s.advance t).grove.rejoin = some (tick, epoch) := again
      simp only [again]
      rfl

end Sys2Proof.Machine
end

section
/-!
The rows of triggers, capture and accumulation: what each leaves alone (R55, R77, R86, R97, R110, R116, R143, R153).
-/
namespace Sys2Proof.Machine
open Sys2Proof.Laws

/-- Settles O36: each row's own frame, in the order of the rows. -/
theorem acquisitionRowsLeaveTheRest : Obligations.AcquisitionRowsLeaveTheRest := fun s t =>
  ⟨execTriggerUnitDecision_changes t s, execTaggedEventDelivery_changes t s, (execTriginEdge_changes t · · · · s), (execSwTriggerDue_changes t · s),
    (execTrigoutPulseStart_changes t · s), (execTrigoutPulseEnd_changes t · s), (execTrigoutLevelChange_changes t · s),
    (execFillComplete_changes t · s), (execHoldoffExpiry_changes t · s), (execRecordBlockWritten_changes t · · s),
    (execRecordComplete_changes t · s), (execAccumulationCommit_changes t · s), (execSnapshotComplete_changes t · s)⟩

end Sys2Proof.Machine
end

section
/-!
The commands of the capture and accumulation families (R100 to R105, R129, R140, R155, R371 to R373): what their cards find and do, and the next state
where nothing is found against them.
-/
namespace Sys2Proof.Machine
open Sys2Proof.Laws

/-! The settings of a group and a snapshot, for any payload that selects group g. -/

section
variable {b : Bytes} {g : Fin 4} (hg : selIndex b = g.val)
include hg

theorem cardCaptureConfig_checks_none {s : State} {cfg : BitVec 384} (hc : structAt 384 b 4 = cfg) (hl : (s.groups.get g).live = false)
    (hv : capInvalid cfg = false) : (cardCaptureConfig b).checks s = none := by
  simp [cardCaptureConfig, firstOf, selFin_of_selIndex hg, hg, hc, hl, hv]

theorem cardCaptureConfig_run {cfg : BitVec 384} (hc : structAt 384 b 4 = cfg) (h : Hdr) (s : State) : (cardCaptureConfig b).run h s =
    (s.onGroup g fun x => { x with cap := cfg, state := if x.state = .off then .configured else x.state }, .done Reply.ok) := by
  simp only [cardCaptureConfig, selFin_of_selIndex hg, hc]

theorem cardDecimConfig_checks_none {s : State} {cfg : BitVec 128} (hc : structAt 128 b 4 = cfg) (hl : (s.groups.get g).live = false)
    (mode : decMode cfg ≤ 4) (f1 : 1 ≤ decFactor cfg) (f2 : decFactor cfg ≤ 65536) (r1 : 4096 ≤ decRatio cfg) (r2 : decRatio cfg ≤ 16777216) :
    (cardDecimConfig b).checks s = none := by
  have f0 : decFactor cfg ≠ 0 := Nat.ne_zero_of_lt f1
  simp [cardDecimConfig, firstOf, selFin_of_selIndex hg, hg, hc, hl, mode, f0, f2, r1, r2]

theorem cardDecimConfig_run {cfg : BitVec 128} (hc : structAt 128 b 4 = cfg) (h : Hdr) (s : State) : (cardDecimConfig b).run h s =
    (s.onGroup g fun x => { x with dec := cfg }, .done Reply.ok) := by
  simp only [cardDecimConfig, selFin_of_selIndex hg, hc]

theorem cardAccConfig_checks_none {s : State} {cfg : BitVec 256} (hc : structAt 256 b 4 = cfg) (hl : (s.groups.get g).live = false)
    (hv : accInvalid cfg = false) : (cardAccConfig b).checks s = none := by
  simp [cardAccConfig, firstOf, selFin_of_selIndex hg, hg, hc, hl, hv]

theorem cardAccConfig_run {cfg : BitVec 256} (hc : structAt 256 b 4 = cfg) (h : Hdr) (s : State) : (cardAccConfig b).run h s =
    (s.onAcc g fun a => { a with cfg := cfg }, .done Reply.ok) := by
  simp only [cardAccConfig, selFin_of_selIndex hg, hc]

theorem cardAccSnapshot_busy_none {s : State} (hn : (s.accs.get g).snaps = []) : (cardAccSnapshot b).busy s = none := by
  simp [cardAccSnapshot, firstOf, selFin_of_selIndex hg, hn]

theorem cardAccSnapshot_checks_none {s : State} (hl : (s.groups.get g).live = true) (hm : (s.accs.get g).mode ≠ 0)
    (free : (s.accs.get g).occupied.length + (if (s.accs.get g).restarts then 0 else 1) < (s.accs.get g).slots)
    (kept : ∀ t, (s.accs.get g).lastBegun = some t → snapInterval (s.groups.get g) (s.accs.get g) ≤ s.now - t) :
    (cardAccSnapshot b).checks s = none := by
  have interval : ((s.accs.get g).lastBegun.any fun t => decide (s.now - t < snapInterval (s.groups.get g) (s.accs.get g))) = false :=
    (Option.any_eq_false ..).mpr fun t ht => by simp [kept t ht]
  simp [cardAccSnapshot, firstOf, selFin_of_selIndex hg, hg, hl, hm, Nat.not_le.mpr free, interval]

theorem cardAccSnapshot_run {s : State} {k : Nat} (hk : (s.accs.get g).freeSlot = some k) (h : Hdr) : (cardAccSnapshot b).run h s =
    (s.takeSnap g k false false, .done (Reply.ok (leBytes 1 k ++ zeros 7 ++ leBytes 8 (s.snapSeq g)))) := by
  simp only [cardAccSnapshot, selFin_of_selIndex hg, hk]

end

/-! GROUP_ARM and GROUP_STOP (R104, R105, R371, R372), for any payload whose word names group g. -/

theorem groupOf_armGroup {b : Bytes} {g : Fin 4} (hg : armGroup b = g.val) : Fin.ofNat 4 (armGroup b) = g := by
  rw [hg]
  exact Fin.ofNat_val_eq_self g

section
variable {b : Bytes} {g : Fin 4} (hg : armGroup b = g.val)
include hg

theorem cardGroupArm_checks_none {s : State} {place : Option Nat} (hs : (s.groups.get g).state = .configured ∨ (s.groups.get g).state = .done)
    (hc : s.groupCheck g = .ok place) : (cardGroupArm b).checks s = none := by
  have hl : ¬ 4 ≤ armGroup b := by omega
  simp only [cardGroupArm, groupOf_armGroup hg, hc]
  obtain hs | hs := hs <;> simp [firstOf, orElse', hl, hs]

/-- An arm that no arm waits before reserves its placement, and commits where no stripe changes its grain (R104, R170). -/
theorem cardGroupArm_run {s : State} {place : Option Nat} (hc : s.groupCheck g = .ok place) (hw : (s.groups.get g).armWait = none) (h : Hdr) :
    (cardGroupArm b).run h s =
      if (s.regrains ((s.reserve g place).holds g) (s.groups.get g).grain).isEmpty then
        (((s.reserve g place).armNow g).1, .done (Reply.ok ((s.reserve g place).armNow g).2))
      else ((s.reserve g place).onGroup g fun x => { x with armWait := some { path := h.path, reinit := true } }, .held (.arm g.val)) := by
  show s.armRun (Fin.ofNat 4 (armGroup b)) h.path = _
  rw [groupOf_armGroup hg, State.armRun, if_neg (by simp [hw])]
  simp only [hc]

theorem cardGroupStop_checks_none (s : State) : (cardGroupStop b).checks s = none := by
  have hl : ¬ 4 ≤ armGroup b := by omega
  simp [cardGroupStop, firstOf, hl]

theorem cardGroupStop_run (h : Hdr) (s : State) : (cardGroupStop b).run h s =
    (s.stopGroup g (bit (word b 0) 9), .done (Reply.ok (leBytes 8 (if (s.groups.get g).live then s.groveAt (s.now - 1375) else 0)))) := by
  simp only [cardGroupStop, groupOf_armGroup hg]

end

/-- The word of a GROUP_ARM row: ENABLE is set, and the group and the reserved bits are those of the word given. -/
theorem armWord_fields {w : BitVec 32} (hw : w.toNat < 1024) :
    armGroup (leBytes 4 (w ||| 0x100#32).toNat) = fld w 0 8 ∧ bit (word (leBytes 4 (w ||| 0x100#32).toNat) 0) 8 = true ∧
      onlyBits (word (leBytes 4 (w ||| 0x100#32).toNat) 0) 0x3FF = true := by
  have small : (w ||| 0x100#32).toNat < 2 ^ 10 := by
    rw [BitVec.toNat_or]
    exact Nat.or_lt_two_pow hw (by decide)
  refine ⟨?_, ?_, ?_⟩
  · rw [armGroup, word_only, BitVec.toNat_or]
    show (w.toNat ||| 256) % 2 ^ 8 = w.toNat % 2 ^ 8
    rw [Nat.or_mod_two_pow]
    exact Nat.or_zero _
  · rw [word_only, bit_testBit, BitVec.toNat_or, Nat.testBit_or]
    exact Bool.or_true _
  · rw [word_only]
    exact onlyBits_of_lt (k := 10) small

/-- The word of a GROUP_STOP row: ENABLE is clear, and the group, FINISH and the reserved bits are those of the word given. -/
theorem stopWord_fields {w : BitVec 32} (hw : w.toNat < 1024) :
    armGroup (leBytes 4 (w &&& 0xFFFFFEFF#32).toNat) = fld w 0 8 ∧ bit (word (leBytes 4 (w &&& 0xFFFFFEFF#32).toNat) 0) 8 = false ∧
      bit (word (leBytes 4 (w &&& 0xFFFFFEFF#32).toNat) 0) 9 = flag w 9 ∧ onlyBits (word (leBytes 4 (w &&& 0xFFFFFEFF#32).toNat) 0) 0x3FF = true := by
  have small : (w &&& 0xFFFFFEFF#32).toNat < 2 ^ 10 := by
    rw [BitVec.toNat_and]
    exact Nat.lt_of_le_of_lt Nat.and_le_left hw
  refine ⟨?_, ?_, ?_, ?_⟩
  · rw [armGroup, word_only, BitVec.toNat_and]
    show (w.toNat &&& 0xFFFFFEFF) % 2 ^ 8 = w.toNat % 2 ^ 8
    rw [Nat.and_mod_two_pow]
    exact (Nat.and_two_pow_sub_one_eq_mod _ 8).trans (Nat.mod_mod _ _)
  · rw [word_only, bit_testBit, BitVec.toNat_and, Nat.testBit_and]
    exact Bool.and_false _
  · rw [word_only, flag, bit_testBit, bit_testBit, BitVec.toNat_and, Nat.testBit_and]
    exact Bool.and_true _
  · rw [word_only]
    exact onlyBits_of_lt (k := 10) small

/-! The rows, heard where nothing is against them. -/

section
variable {s : State} {h : Hdr} {g : Fin 4} {select : BitVec 32}

theorem State.Hears.captureConfig (k : s.Hears h 0x0401) (he : s.engineState ∈ setC) (hg : select.toNat = g.val) {cfg : BitVec 384}
    (h1 : fld cfg 240 24 = 0) (h2 : fld cfg 64 39 = 0) (h3 : fld cfg 0 41 = 0) (hl : (s.groups.get g).live = false) (hv : capInvalid cfg = false) :
    s.Does (.captureConfig h select cfg) h 0x0401 (leBytes 4 select.toNat ++ leBytes 48 cfg.toNat) Reply.ok fun u =>
      u.onGroup g fun x => { x with cap := cfg, state := if x.state = .off then .configured else x.state } := by
  have hg := (selIndex_here select (leBytes 48 cfg.toNat) (by omega)).trans hg
  have hc := structAt_past 48 select cfg
  exact ((cardCaptureConfig_selects _).passes k rfl rfl rfl (by decide) (by simp) rfl (cardCaptureConfig_frame _ h) (by simp [cardCaptureConfig])
    (reserved_clear 48 (f := (zeroFields · [(240, 24), (64, 39), (0, 41)])) (by omega) (by simp [zeroFields, h1, h2, h3])) he rfl
    (cardCaptureConfig_checks_none hg hc hl hv)).does (cardCaptureConfig_run hg hc h _)

theorem State.Hears.decimConfig (k : s.Hears h 0x0402) (he : s.engineState ∈ setC) (hg : select.toNat = g.val) {cfg : BitVec 128}
    (h1 : fld cfg 81 15 = 0) (h2 : fld cfg 5 59 = 0) (hl : (s.groups.get g).live = false) (mode : decMode cfg ≤ 4) (f1 : 1 ≤ decFactor cfg)
    (f2 : decFactor cfg ≤ 65536) (r1 : 4096 ≤ decRatio cfg) (r2 : decRatio cfg ≤ 16777216) :
    s.Does (.decimConfig h select cfg) h 0x0402 (leBytes 4 select.toNat ++ leBytes 16 cfg.toNat) Reply.ok fun u =>
      u.onGroup g fun x => { x with dec := cfg } := by
  have hg := (selIndex_here select (leBytes 16 cfg.toNat) (by omega)).trans hg
  have hc := structAt_past 16 select cfg
  exact ((cardDecimConfig_selects _).passes k rfl rfl rfl (by decide) (by simp) rfl (cardDecimConfig_frame _ h) (by simp [cardDecimConfig])
    (reserved_clear 16 (f := (zeroFields · [(81, 15), (5, 59)])) (by omega) (by simp [zeroFields, h1, h2])) he rfl
    (cardDecimConfig_checks_none hg hc hl mode f1 f2 r1 r2)).does (cardDecimConfig_run hg hc h _)

theorem State.Hears.accConfig (k : s.Hears h 0x0501) (he : s.engineState ∈ setC) (hg : select.toNat = g.val) {cfg : BitVec 256}
    (h1 : fld cfg 128 31 = 0) (h2 : fld cfg 72 8 = 0) (h3 : fld cfg 2 62 = 0) (hl : (s.groups.get g).live = false) (hv : accInvalid cfg = false) :
    s.Does (.accConfig h select cfg) h 0x0501 (leBytes 4 select.toNat ++ leBytes 32 cfg.toNat) Reply.ok fun u =>
      u.onAcc g fun a => { a with cfg := cfg } := by
  have hg := (selIndex_here select (leBytes 32 cfg.toNat) (by omega)).trans hg
  have hc := structAt_past 32 select cfg
  exact ((cardAccConfig_selects _).passes k rfl rfl rfl (by decide) (by simp) rfl (cardAccConfig_frame _ h) (by simp [cardAccConfig])
    (reserved_clear 32 (f := (zeroFields · [(128, 31), (72, 8), (2, 62)])) (by omega) (by simp [zeroFields, h1, h2, h3])) he rfl
    (cardAccConfig_checks_none hg hc hl hv)).does (cardAccConfig_run hg hc h _)

theorem State.Hears.accSnapshot (k : s.Hears h 0x0502) (he : s.engineState ∈ setW) (hg : select.toNat = g.val) {n : Nat}
    (idle : (s.accs.get g).snaps = []) (hl : (s.groups.get g).live = true) (hm : (s.accs.get g).mode ≠ 0)
    (free : (s.accs.get g).occupied.length + (if (s.accs.get g).restarts then 0 else 1) < (s.accs.get g).slots)
    (kept : ∀ t, (s.accs.get g).lastBegun = some t → snapInterval (s.groups.get g) (s.accs.get g) ≤ (s.advance h.tick).now - t)
    (hn : (s.accs.get g).freeSlot = some n) :
    s.Does (.accSnapshot h select) h 0x0502 (leBytes 4 select.toNat)
      (Reply.ok (leBytes 1 n ++ zeros 7 ++ leBytes 8 ((s.heard h 0x0502 (leBytes 4 select.toNat)).snapSeq g))) fun u => u.takeSnap g n false false := by
  have hs : select.toNat < 65536 := by omega
  have hg := (selIndex_only select hs).trans hg
  exact ((cardAccSnapshot_selects _).passes k rfl rfl rfl (by decide) (by simp) rfl (cardAccSnapshot_frame _ h) (by simp [cardAccSnapshot])
    (by rw [selOk_only select hs]; rfl) he (cardAccSnapshot_busy_none hg idle)
    (cardAccSnapshot_checks_none hg hl hm free kept)).does (cardAccSnapshot_run (s := s.heard h 0x0502 (leBytes 4 select.toNat)) hg hn h)

/-- A command of one word is heard and its card runs, where the card has no marks and nothing can be busy, and neither the word's reserved bits, nor the
state, nor the card's own checks are against it. -/
theorem State.Hears.word_passes {op : Nat} (k : s.Hears h op) {i : Instr} {v : BitVec 32} {c : Card} {ps : List Part}
    (row : exec i s = .next (s.command h op (leBytes 4 v.toNat))) (card : cardOf op (leBytes 4 v.toNat) = some c) (opcode : op ≠ 0x10000)
    (marks : c.pcieOnly = false ∧ c.boughOnly = false ∧ c.own = false) (after : c.after = id) (calm : ∀ u, c.busy u = none)
    (reserved : c.reservedOk = true) (size : c.sizeOk = true) (he : s.engineState ∈ c.states)
    (checks : c.checks (s.heard h op (leBytes 4 v.toNat)) = none) (frame : ∀ u, Frame ps u (c.run h u).1)
    (waits : (ps.contains .paths || ps.contains .board || ps.contains .fw) = false) : s.Passes i h op (leBytes 4 v.toNat) c ps where
  hears := k
  row := row
  size := by simp
  opcode := opcode
  card := card
  after := after
  judge := by
    obtain ⟨m1, m2, m3⟩ := marks
    have he : (s.heard h op (leBytes 4 v.toNat)).engineState ∈ c.states := he
    rw [Card.judge_admitted k.flags.2 reserved (by simp [Card.admits, m1, m2, m3]) size (calm _), if_pos he, checks]
  frame := frame _
  waits := waits

/-- GROUP_ARM of a group that passes the consistency check: its arm commits, or waits for the stripes that change their grain. -/
theorem State.Hears.groupArm (k : s.Hears h 0x0403) (he : s.engineState ∈ setW) {w : BitVec 32} {place : Option Nat} (hg : fld w 0 8 = g.val)
    (hw : w.toNat < 1024) (hs : (s.groups.get g).state = .configured ∨ (s.groups.get g).state = .done)
    (hc : (s.heard h 0x0403 (leBytes 4 (w ||| 0x100#32).toNat)).groupCheck g = .ok place) (hn : (s.groups.get g).armWait = none) :
    ((s.regrains ((s.reserve g place).holds g) (s.groups.get g).grain).isEmpty = true →
      s.Does (.groupArm h w) h 0x0403 (leBytes 4 (w ||| 0x100#32).toNat)
        (Reply.ok (((s.heard h 0x0403 (leBytes 4 (w ||| 0x100#32).toNat)).reserve g place).armNow g).2) fun u => ((u.reserve g place).armNow g).1) ∧
    ((s.regrains ((s.reserve g place).holds g) (s.groups.get g).grain).isEmpty = false →
      s.Holds (.groupArm h w) h 0x0403 (leBytes 4 (w ||| 0x100#32).toNat) (.arm g.val) fun u =>
        (u.reserve g place).onGroup g fun x => { x with armWait := some { path := h.path, reinit := true } }) := by
  obtain ⟨group, enable, reserved⟩ := armWord_fields hw
  have hg := group.trans hg
  have card : cardOf 0x0403 (leBytes 4 (w ||| 0x100#32).toNat) = some (cardGroupArm (leBytes 4 (w ||| 0x100#32).toNat)) := congrArg some (if_pos enable)
  have p := k.word_passes (i := .groupArm h w) rfl card (by decide) ⟨rfl, rfl, rfl⟩ rfl (fun _ => rfl) reserved (by simp [cardGroupArm]) he
    (cardGroupArm_checks_none hg hs hc) (cardGroupArm_frame _ h) rfl
  have run := cardGroupArm_run hg hc hn h
  exact ⟨fun settled => p.does (run.trans (if_pos settled)), fun waits => p.holds (run.trans (if_neg (ne_true_of_eq_false waits)))⟩

/-- GROUP_STOP answers the tick from which the stop governs, for a group in use. -/
theorem State.Hears.groupStop (k : s.Hears h 0x0403) (he : s.engineState ∈ setW) {w : BitVec 32} (hg : fld w 0 8 = g.val) (hw : w.toNat < 1024) :
    s.Does (.groupStop h w) h 0x0403 (leBytes 4 (w &&& 0xFFFFFEFF#32).toNat)
      (Reply.ok (leBytes 8 (if (s.groups.get g).live then (s.advance h.tick).groveAt ((s.advance h.tick).now - 1375) else 0)))
      fun u => u.stopGroup g (flag w 9) := by
  obtain ⟨group, enable, finish, reserved⟩ := stopWord_fields hw
  have hg := group.trans hg
  have card : cardOf 0x0403 (leBytes 4 (w &&& 0xFFFFFEFF#32).toNat) = some (cardGroupStop (leBytes 4 (w &&& 0xFFFFFEFF#32).toNat)) :=
    congrArg some (if_neg (ne_true_of_eq_false enable))
  refine (k.word_passes rfl card (by decide) ⟨rfl, rfl, rfl⟩ rfl (fun _ => rfl) reserved (by simp [cardGroupStop]) he
    (cardGroupStop_checks_none hg _) (cardGroupStop_frame _ h) rfl).does ((cardGroupStop_run hg h _).trans ?_)
  rw [finish]
  rfl

end

/-- Settles O5: the cards of the six commands, each where it finds nothing against the command. -/
theorem captureCommandsTakeEffect : Obligations.CaptureCommandsTakeEffect := fun _ _ _ =>
  ⟨fun _ _ k he hg h1 h2 h3 hl hv => k.captureConfig he hg h1 h2 h3 hl hv,
    fun _ _ k he hg h1 h2 hl mode f1 f2 r1 r2 => k.decimConfig he hg h1 h2 hl mode f1 f2 r1 r2,
    fun _ _ k he hg hw hs hc hn => k.groupArm he hg hw hs hc hn, fun _ k he hg hw => k.groupStop he hg hw,
    fun _ _ k he hg h1 h2 h3 hl hv => k.accConfig he hg h1 h2 h3 hl hv,
    fun _ _ k he hg idle hl hm free kept hn => k.accSnapshot he hg idle hl hm free kept hn⟩

end Sys2Proof.Machine
end

section
/-!
Writes to the array (R110, R166 to R168, R173, R180, R181, R191, R192): what a write through BAR2, of a port or of a record's block leaves in memory.
-/
namespace Sys2Proof.Machine
open Sys2Proof.Laws

/-! The array after a write. -/

theorem cellAt_put_written (m : Memory) (a : Nat) {bs : Bytes} {i : Nat} {b : Byte} (h : bs[i]? = some b) : cellAt (m.put a bs).cells (a + i) = b := by
  have hi : i < bs.length := (List.getElem?_eq_some_iff.mp h).1
  rw [cellAt_put, if_pos (by omega), Nat.add_sub_cancel_left, List.getD_eq_getElem?_getD, h]
  rfl

theorem cellAt_put_outside (m : Memory) {a x : Nat} {bs : Bytes} (h : x < a ∨ a + bs.length ≤ x) :
    cellAt (m.put a bs).cells x = cellAt m.cells x := by
  rw [cellAt_put, if_neg (by omega)]

theorem Memory.get_put (m : Memory) (a : Nat) (bs : Bytes) : (m.put a bs).get a bs.length = bs := by
  refine List.ext_getElem (by simp [Memory.get, cellsAt]) fun i _ h => ?_
  simp only [Memory.get, cellsAt, List.getElem_map, List.getElem_range]
  exact cellAt_put_written m a (List.getElem?_eq_getElem h)

/-- Whole units written are good again, and no other unit changes (R192). -/
theorem Memory.mem_poison_put (m : Memory) (a k : Nat) (bs : Bytes) :
    k ∈ (m.put a bs).poison ↔ k ∈ m.poison ∧ ¬ (a ≤ 32 * k ∧ 32 * k + 32 ≤ a + bs.length) := by
  rw [Memory.put, List.mem_filter, Bool.not_eq_true', ← Bool.not_eq_true, Bool.and_eq_true, decide_eq_true_eq, decide_eq_true_eq]

/-! Writes through BAR2 (R166, R167, R191). -/

section
variable {s : State} {a : Nat} {d : Bytes}

theorem State.fwpWrite_available (hb : s.memBusy = false) (ha : a < s.memBytes) : s.fwpWrite a d = s.onMem fun m => m.put a d := by
  rw [State.fwpWrite, if_neg (by simp [hb]), if_neg (Nat.not_le.mpr ha)]

/-- A write that finds memory unavailable, or lies beyond it, is counted and discarded. -/
theorem State.fwpWrite_discarded (h : s.memBusy = true ∨ s.memBytes ≤ a) :
    (s.fwpWrite a d).mem.cells = s.mem.cells ∧ (s.fwpWrite a d).mem.poison = s.mem.poison := by
  unfold State.fwpWrite
  split
  · exact ⟨rfl, rfl⟩
  · next hb => rw [if_pos (h.resolve_left hb)]; exact ⟨rfl, rfl⟩

theorem State.bar2Write_mem : (s.bar2Write a d).mem = { (s.fwpWrite a d).mem with spoiled := (s.fwpWrite a d).mem.spoiled ||| s.spoilMask a d.length } := rfl

theorem State.fwpWrite_stim : (s.fwpWrite a d).stim = s.stim := (fwpWrite_frame s a d).rest .stim rfl

theorem State.bar2Write_stim : (s.bar2Write a d).stim = { s.stim with stirred := s.stim.stirred ++ s.stirs a d.length } := by
  show { (s.fwpWrite a d).stim with stirred := (s.fwpWrite a d).stim.stirred ++ s.stirs a d.length } = _
  rw [State.fwpWrite_stim]

/-- Where no bytes are open, those of available memory are read as they stand (R106, R181). -/
theorem State.fwpRead_get {n : Nat} (hb : s.memBusy = false) (ha : a < s.memBytes) (closed : s.mem.open_ = []) : (s.fwpRead a n).2 = s.mem.get a n := by
  rw [State.fwpRead, if_neg (by simp [hb]), if_neg (Nat.not_le.mpr ha), State.arrayRead, if_neg (by simp [Memory.isOpen, closed])]

/-- A write through BAR2 reads back where no bytes are open. -/
theorem State.bar2Write_readsBack (hb : s.memBusy = false) (ha : a < s.memBytes) (closed : s.mem.open_ = []) :
    ((s.bar2Write a d).fwpRead a d.length).2 = d := by
  have hm := (State.bar2Write_mem (s := s) (a := a) (d := d)).trans (by rw [State.fwpWrite_available hb ha])
  have hb' : (s.bar2Write a d).memBusy = false := by rw [State.memBusy, hm]; exact hb
  have ha' : a < (s.bar2Write a d).memBytes := by rw [State.memBytes, (bar2Write_frame s a d).is96]; exact ha
  rw [State.fwpRead_get hb' ha' (by rw [hm]; show subSpan s.mem.open_ _ _ = []; rw [closed]; rfl), hm]
  exact s.mem.get_put a d

theorem bar2Access_write {offset : Nat} (hd : d ≠ []) (hl : offset + d.length ≤ 2 ^ 28) (hr : s.board.boot ≠ .reset) (t : Nat) :
    exec (.bar2Access t offset (.write d)) s = .next ((s.advance t).bar2Write (s.mem.bar2 + offset) d) := by
  have wf : (Bar2Op.write d).wf offset = true := by simpa [Bar2Op.wf, hd] using hl
  show execBar2Access t offset (.write d) s = _
  rw [execBar2Access, wf, if_neg (by decide)]
  exact congrArg _ (if_neg hr)

end

/-! The writes of ports (R173, R180): the scheduler moves no bytes. -/

theorem Memory.scheduleNeighbours_cells (m : Memory) (i : Fin 128) (bank : Nat) (rows : List Nat) (now : Nat) :
    (m.scheduleNeighbours i bank rows now).cells = m.cells := by
  refine List.foldlRecOn rows _ (motive := fun u => Memory.cells u = m.cells) rfl fun u hu row _ => ?_
  dsimp only
  split
  · split
    · exact hu
    · exact hu
  · exact hu

theorem State.issueRequest_cells (s : State) (i : Fin 128) (r : MemReq) (byAge : Bool) : (s.issueRequest i r byAge).mem.cells = s.mem.cells := by
  have kept (c : Prop) [Decidable c] {u v : State} (hu : u.mem.cells = s.mem.cells) (hv : v.mem.cells = s.mem.cells) :
      (if c then u else v).mem.cells = s.mem.cells := by split <;> assumption
  exact kept _ rfl (kept _ (Memory.scheduleNeighbours_cells ..) rfl)

theorem State.schedule_cells (s : State) (i : Fin 128) : (s.schedule i).mem.cells = s.mem.cells := by
  unfold State.schedule
  split
  · rfl
  · rfl
  · exact s.issueRequest_cells ..
  · rfl

theorem State.memRequest_write_cells (s : State) (port : Fin 23) (unit level : Nat) (d : Bytes) (mask : BitVec 32) :
    (s.memRequest port unit (.write d mask) level).mem.cells =
      if s.memBytes ≤ 32 * unit then s.mem.cells else putCells s.mem.cells (32 * unit) (mergeUnit (s.mem.get (32 * unit) 32) d mask) := by
  have heard : (if portRt port.val then s.onMem fun m => m.onPort port fun p => p.setLevel level else s).mem.cells = s.mem.cells := by
    split <;> rfl
  unfold State.memRequest
  dsimp only
  split
  · exact heard
  · refine (State.schedule_cells _ _).trans ?_
    show putCells (Memory.cells _) _ (mergeUnit (cellsAt (Memory.cells _) _ _) _ _) = _
    rw [heard]
    rfl

/-- A unit merged under a mask changes the bytes that the mask names, and no others (R173). -/
theorem cellAt_mergeUnit (m : Memory) (unit : Nat) (d : Bytes) (mask : BitVec 32) (x : Nat) :
    cellAt (putCells m.cells (32 * unit) (mergeUnit (m.get (32 * unit) 32) d mask)) x =
      if x / 32 = unit ∧ flag mask (x % 32) = true then d.getD (x % 32) 0 else cellAt m.cells x := by
  have hl : (mergeUnit (m.get (32 * unit) 32) d mask).length = 32 := by simp [mergeUnit]
  rw [cellAt, putCells, packAt_put, hl]
  by_cases hx : x / 32 = unit
  · have here : x = 32 * unit + x % 32 := by omega
    have hi : x % 32 < 32 := Nat.mod_lt _ (by decide)
    have old : (m.get (32 * unit) 32).getD (x % 32) 0 = cellAt m.cells x := by
      simp [Memory.get, cellsAt, hi, ← here]
    have new : (mergeUnit (m.get (32 * unit) 32) d mask).getD (x % 32) 0 = if flag mask (x % 32) then d.getD (x % 32) 0 else cellAt m.cells x := by
      rw [← old]
      simp [mergeUnit, hi]
    rw [if_pos (by omega), show x - 32 * unit = x % 32 by omega, new]
    simp only [hx, true_and]
  · rw [if_neg (by omega), if_neg fun h => hx h.1]
    rfl

theorem memRequest_row {s : State} {port : Fin 23} {unit level : Nat} {d : Bytes} {mask : BitVec 32} (hd : d.length = 32) (hr : s.memRuns = true) (t : Nat) :
    exec (.memRequest t port unit (.write d mask) level) s = .next ((s.advance t).memRequest port unit (.write d mask) level) := by
  have wf : (MemAccess.write d mask).wf = true := by simp [MemAccess.wf, hd]
  show execMemRequest t port unit (.write d mask) level s = _
  rw [execMemRequest, wf, if_neg (by decide)]
  exact congrArg _ (if_pos hr)

/-! The blocks of records (R110, R124). -/

theorem blockOf_length (b : Bytes) (tainted : Bool) : (blockOf b tainted).length = 2048 := by
  simp only [blockOf, zeros, List.length_append, List.length_take, List.length_replicate, leBytes_length]
  omega

/-- Settles O42: each write is one Memory.put, or a merge into one unit, and what comes with it moves no bytes. -/
theorem memoryReadsBack : Obligations.MemoryReadsBack := by
  intro s t
  refine ⟨fun offset d hd hl hr => ?bar2, fun port unit level d mask hd hr => ?port, fun g r stop j taint hc seg hs hj due => ?block⟩
  case bar2 =>
    intro a
    have row : exec (.bar2Access t offset (.write d)) s = .next ((s.advance t).bar2Write a d) := bar2Access_write hd hl hr t
    refine ⟨fun hb ha => ⟨_, row, bar2Write_frame _ _ _, ?_⟩, fun h => ⟨_, row, ?_⟩⟩
    · have hb : (s.advance t).memBusy = false := hb
      have ha : a < (s.advance t).memBytes := ha
      have back := State.bar2Write_readsBack (d := d) hb ha
      have stim := State.bar2Write_stim (s := s.advance t) (a := a) (d := d)
      have mem : ((s.advance t).bar2Write a d).mem = { s.mem.put a d with spoiled := s.mem.spoiled ||| (s.advance t).spoilMask a d.length } := by
        rw [State.bar2Write_mem, State.fwpWrite_available hb ha]
        rfl
      rw [mem]
      exact ⟨fun i b hi => cellAt_put_written s.mem a hi, fun x hx => cellAt_put_outside s.mem hx,
        fun k => s.mem.mem_poison_put a k d, rfl, rfl, stim, back⟩
    · obtain ⟨cells, poison⟩ := State.fwpWrite_discarded (s := s.advance t) (d := d) h
      exact ⟨fun x => congrArg (cellAt · x) cells, poison⟩
  case port =>
    refine ⟨_, memRequest_row hd hr t, fun x => ?_⟩
    rw [State.memRequest_write_cells]
    show cellAt (if s.memBytes ≤ 32 * unit then s.mem.cells else putCells s.mem.cells (32 * unit) (mergeUnit (s.mem.get (32 * unit) 32) d mask)) x = _
    by_cases hm : s.memBytes ≤ 32 * unit
    · rw [if_pos hm, if_neg fun h => Nat.not_lt.mpr hm h.1]
    · rw [if_neg hm, cellAt_mergeUnit]
      simp only [Nat.not_le.mp hm, true_and]
  case block =>
    intro a b
    have mem : (((((s.advance t).onMem fun m => m.put a b).onGroup g fun y => y.onCurrent fun z => { z with written := z.written ++ [j] }).taintRecord g
        taint).mem) = s.mem.put a b := (taintRecord_frame _ g taint).rest .mem rfl
    refine ⟨_, recordBlockWritten_segmented hc seg hs hj due taint, Nat.le_of_eq (blockOf_length _ _), ?_⟩
    rw [mem]
    exact ⟨fun i y hy => cellAt_put_written s.mem a hy, fun x hx => cellAt_put_outside s.mem hx⟩

end Sys2Proof.Machine
end

section
/-!
PEAK decimation (R134, R136): a least word by a measure of its CODE, and what its replaced OVR leaves of it.
-/
namespace Sys2Proof.Machine

/-! CODE stands above the OVR bit. -/

@[simp] theorem codeOf_withOvr (w : Nat) (o : Bool) : codeOf (withOvr w o) = codeOf w := by
  have shift : withOvr w o / 16 = w / 16 := by
    unfold withOvr
    split <;> omega
  rw [codeOf, shift, codeOf]

/-! The least word of a list by a measure. -/

theorem leastBy_cons_cons (f : Nat → Int) (w v : Nat) (ws : List Nat) :
    leastBy f (w :: v :: ws) = if f w ≤ f (leastBy f (v :: ws)) then w else leastBy f (v :: ws) := rfl

theorem leastBy_mem (f : Nat → Int) {ws : List Nat} (h : ws ≠ []) : leastBy f ws ∈ ws := by
  induction ws with
  | nil => exact absurd rfl h
  | cons w ws ih =>
    cases ws with
    | nil => exact List.mem_cons_self
    | cons v ws =>
      rw [leastBy_cons_cons]
      split
      · exact List.mem_cons_self
      · exact List.mem_cons_of_mem w (ih (List.cons_ne_nil v ws))

theorem leastBy_le (f : Nat → Int) {ws : List Nat} {y : Nat} (hy : y ∈ ws) : f (leastBy f ws) ≤ f y := by
  induction ws with
  | nil => cases hy
  | cons w ws ih =>
    cases ws with
    | nil => exact Int.le_of_eq (congrArg f (List.mem_singleton.mp hy).symm)
    | cons v ws =>
      rw [leastBy_cons_cons]
      obtain rfl | hy := List.mem_cons.mp hy
      · split <;> omega
      · have := ih hy
        split <;> omega

/-! The stored sample of PEAK (R134). -/

theorem Span.stored_peak (p : Span) {d : BitVec 128} (j : Int) (hd : decMode d = 2) :
    let ws := p.interval (decN d) j
    p.stored d j = [withOvr (leastBy codeOf ws) (ws.any ovrOf), withOvr (leastBy (fun w => -codeOf w) ws) (ws.any ovrOf)] := by
  simp only [Span.stored, hd]

/-- Settles O55: MIN is the interval's least word by CODE and MAX its least by the negated CODE, and OVR is outside CODE. -/
theorem peakIsJudgedByCode : Obligations.PeakIsJudgedByCode := by
  intro p d j hd nonempty ws
  refine ⟨_, _, p.stored_peak j hd, ⟨leastBy codeOf ws, leastBy_mem _ nonempty, codeOf_withOvr _ _⟩, fun y hy => ?least,
    ⟨leastBy (fun w => -codeOf w) ws, leastBy_mem _ nonempty, codeOf_withOvr _ _⟩, fun y hy => ?greatest, fun one => ?single⟩
  case least =>
    rw [codeOf_withOvr]
    exact leastBy_le codeOf hy
  case greatest =>
    rw [codeOf_withOvr]
    exact Int.le_of_neg_le_neg (leastBy_le (fun w => -codeOf w) hy)
  case single =>
    obtain ⟨w, hw⟩ := List.length_eq_one_iff.mp one
    rw [show p.interval (decN d) j = [w] from hw]
    rfl

end Sys2Proof.Machine
end

section
/-!
The invariant of every reached state (R168, R316, R331, R403, R488): power-up meets it and every step keeps it.
-/
namespace Sys2Proof.Machine

/-- A step that runs a row keeps what the row keeps: the invariant speaks of no command that waits. -/
theorem State.wf_of_exec {i : Instr} {s u : State} {rest : List Instr} (hs : s.wf = true) (h : exec i { s with pending := rest } = .next u) :
    u.wf = true := (exec_keeps i _ u h).kept hs

/-- Settles O45: a step idles, or runs the row at the front of the queue, and every row keeps the invariant. -/
theorem stepKeepsTheInvariant : Obligations.StepKeepsTheInvariant := by
  intro s u hs h
  unfold step at h
  cases hp : s.pending with
  | nil =>
    simp only [hp] at h
    obtain rfl := Host.Outcome.next.inj h
    exact hs
  | cons i rest =>
    simp only [hp] at h
    exact State.wf_of_exec hs h

/-- Settles O46: the memories and the queue of events are empty, and the rotation stands on the first channel. -/
theorem resetHoldsTheInvariant : Obligations.ResetHoldsTheInvariant := ⟨by decide, rfl⟩

end Sys2Proof.Machine
end

section
/-!
The rows of the memory system and of readout: what each leaves alone (R166, R173, R181, R182, R186, R202, R211, R212, R217).
-/
namespace Sys2Proof.Machine
open Sys2Proof.Laws

/-- Settles O37: each row's own frame, in the order of the rows. -/
theorem memoryAndReadoutRowsLeaveTheRest : Obligations.MemoryAndReadoutRowsLeaveTheRest := fun s t =>
  ⟨(execMemRequest_changes t · · · · s), (execMemReadReturn_changes t · · s), (execRefreshDue_changes t · s),
    (execStackTempReading_changes t · · s), (execNeighbourRefreshForced_changes t · s), (execStripeReinitDone_changes t · s),
    execMemClockRelocked_changes t s, (execTrainingPassDone_changes t · s), (execMemInitDone_changes t · s), (execPageTimerExpiry_changes t · s),
    (execBar2Access_changes t · · s), (execDescriptorTake_changes t · · s), (execReadoutBlockRead_changes t · · s),
    (execCompletionPost_changes t · · s), (execStreamFlushTimeout_changes t · s), (execIrqTimerExpiry_changes t · s)⟩

end Sys2Proof.Machine
end

section
/-!
The commands of the memory family and READOUT_RINGS (R167, R174, R188, R190, R198, R374, R375): what their cards find and do, and the next state where
nothing is found against them.
-/
namespace Sys2Proof.Machine
open Sys2Proof.Laws

/-! What the cards find and do, for any payload that brings the words given. -/

section
variable {b : Bytes} {p : Fin 23} {cfg : BitVec 64} (hp : selIndex b = p.val) (hc : structAt 64 b 4 = cfg)
include hp hc

theorem cardMemPortConfig_checks_none {s : State} (hu : s.portUsers p.val = 0) (hq : p.val = 0x15 → s.stim.enabled = false)
    (ok : portCfgOk p.val cfg = true) : (cardMemPortConfig b).checks s = none := by
  have hl : ¬ 23 ≤ p.val := by omega
  simpa [cardMemPortConfig, firstOf, hp, hc, hu, hl, ok] using hq

theorem cardMemPortConfig_run (h : Hdr) (s : State) : (cardMemPortConfig b).run h s =
    (s.onMem fun m => m.onPort p fun x => { x with cfg := cfg }, .done Reply.ok) := by
  simp only [cardMemPortConfig, doOk, selFin_of_selIndex hp, hc]

end

theorem cardMemConfig_checks_none {b : Bytes} {cfg : BitVec 32} (hc : structAt 32 b 0 = cfg) (timer : 4 ≤ fld cfg 8 8) (rate : 8 ≤ fld cfg 0 4)
    (s : State) : (cardMemConfig b).checks s = none := by
  simp [cardMemConfig, firstOf, hc, timer, rate]

theorem cardMemConfig_run {b : Bytes} {cfg : BitVec 32} (hc : structAt 32 b 0 = cfg) (h : Hdr) (s : State) : (cardMemConfig b).run h s =
    (s.onMem fun m => { m with cfg := cfg }, .done Reply.ok) := by
  simp only [cardMemConfig, doOk, hc]

theorem cardMemClock_busy_none {s : State} (hq : s.mem.clock.queued = none) (b : Bytes) : (cardMemClock b).busy s = none := by
  simp [cardMemClock, firstOf, hq]

theorem cardMemClock_checks_none {b : Bytes} {rate : Nat} (hr : word b 0 = rate) {s : State} (hs : s.stim.enabled = false) (h3 : rate ≤ 3) :
    (cardMemClock b).checks s = none := by
  simp [cardMemClock, firstOf, hr, hs, h3]

theorem cardMemClock_run {b : Bytes} {rate : Nat} (hr : word b 0 = rate) (h : Hdr) (s : State) :
    (cardMemClock b).run h s = s.memClock rate h.ticket.toNat := by
  simp only [cardMemClock, hr]

/-! MEM_CLOCK's cases (R190). -/

section
variable {s : State} {rate : Nat} (ticket : Nat)

theorem State.memClock_same (idle : s.mem.clock.phase = .idle) (hr : s.mem.clock.rate = rate) : s.memClock rate ticket = (s, .done Reply.ok) := by
  rw [State.memClock, if_pos idle, if_pos hr.symm]

theorem State.memClock_starts (idle : s.mem.clock.phase = .idle) (hr : s.mem.clock.rate ≠ rate) :
    s.memClock rate ticket = (s.startMemChange rate, .held .memClock) := by
  rw [State.memClock, if_pos idle, if_neg hr.symm]

theorem State.memClock_joins (works : s.mem.clock.phase ≠ .idle) (hr : s.mem.clock.target = rate) : s.memClock rate ticket =
    (s.onMem fun m => { m with clock := { m.clock with deferred := m.clock.deferred ++ [ticket] } }, .done Reply.deferred) := by
  rw [State.memClock, if_neg works, if_pos hr.symm]

theorem State.memClock_queues (works : s.mem.clock.phase ≠ .idle) (hr : s.mem.clock.target ≠ rate) : s.memClock rate ticket =
    (s.onMem fun m => { m with clock := { m.clock with queued := some (rate, ticket) } }, .done Reply.deferred) := by
  rw [State.memClock, if_neg works, if_neg hr.symm]

end

section
variable {b : Bytes} {base : Nat} (hb : leAt b 0 5 = base)
include hb

theorem cardBar2Set_checks_none {s : State} (aligned : base % 2 ^ 28 = 0) (within : base < s.memBytes) : (cardBar2Set b).checks s = none := by
  have aligned : base % 268435456 = 0 := aligned
  simp [cardBar2Set, firstOf, hb, aligned, Nat.not_le.mpr within]

theorem cardBar2Set_run (h : Hdr) (s : State) : (cardBar2Set b).run h s = (s.onMem fun m => { m with bar2 := base }, .done Reply.ok) := by
  simp only [cardBar2Set, doOk, hb]

end

section
variable {b : Bytes} {g : Fin 4} {cfg : BitVec 256} (hg : selIndex b = g.val) (hc : structAt 256 b 4 = cfg)
include hg hc

theorem cardReadoutRings_checks_none {s : State} (hl : (s.groups.get g).live = false) (hd : (s.rings.get g).desc = none)
    (hw : (s.rings.get g).cpl.waiting = []) (hv : ringsInvalid cfg = false) : (cardReadoutRings b).checks s = none := by
  simp [cardReadoutRings, firstOf, selFin_of_selIndex hg, hg, hc, hl, hd, hw, hv]

theorem cardReadoutRings_run (h : Hdr) (s : State) : (cardReadoutRings b).run h s = (s.onRing g fun r => r.configure cfg, .done Reply.ok) := by
  simp only [cardReadoutRings, doOk, selFin_of_selIndex hg, hc]

end

/-! The rows, heard where nothing is against them. -/

/-- A command whose card has no marks is heard and its card runs, where neither its reserved bits, nor its length, nor its state, nor what is busy, nor the
card's own checks are against it. -/
theorem State.Hears.unmarked_passes {s : State} {h : Hdr} {op : Nat} (k : s.Hears h op) {i : Instr} {b : Bytes} {c : Card} {ps : List Part}
    (row : exec i s = .next (s.command h op b)) (card : cardOf op b = some c) (opcode : op ≠ 0x10000) (length : b.length % 4 = 0 ∧ b.length ≤ 4096)
    (marks : c.pcieOnly = false ∧ c.boughOnly = false ∧ c.own = false) (after : c.after = id) (reserved : c.reservedOk = true) (size : c.sizeOk = true)
    (he : s.engineState ∈ c.states) (busy : c.busy (s.heard h op b) = none) (checks : c.checks (s.heard h op b) = none)
    (frame : ∀ u, Frame ps u (c.run h u).1) (waits : (ps.contains .paths || ps.contains .board || ps.contains .fw) = false) : s.Passes i h op b c ps where
  hears := k
  row := row
  size := length
  opcode := opcode
  card := card
  after := after
  judge := by
    obtain ⟨m1, m2, m3⟩ := marks
    exact c.judge_none h b _ k.flags.2 reserved (by simp [Card.admits, m1, m2, m3]) size busy he checks
  frame := frame _
  waits := waits

section
variable {s : State} {h : Hdr}

theorem State.Hears.memPortConfig (k : s.Hears h 0x0601) (he : s.engineState ∈ setS) {select : BitVec 32} {p : Fin 23} (hp : select.toNat = p.val)
    {cfg : BitVec 64} (h1 : fld cfg 4 28 = 0) (h2 : fld cfg 0 2 = 0) (hu : s.portUsers p.val = 0) (hq : p.val = 0x15 → s.stim.enabled = false)
    (ok : portCfgOk p.val cfg = true) :
    s.Does (.memPortConfig h select cfg) h 0x0601 (leBytes 4 select.toNat ++ leBytes 8 cfg.toNat) Reply.ok fun u =>
      u.onMem fun m => m.onPort p fun x => { x with cfg := cfg } := by
  have hi := (selIndex_here select (leBytes 8 cfg.toNat) (by omega)).trans hp
  have hc := structAt_past 8 select cfg
  exact ((cardMemPortConfig_selects _).passes k rfl rfl rfl (by decide) (by simp) rfl (cardMemPortConfig_frame _ h) (by simp [cardMemPortConfig])
    (reserved_clear 8 (f := (zeroFields · [(4, 28), (0, 2)])) (by omega) (by simp [zeroFields, h1, h2])) he rfl
    (cardMemPortConfig_checks_none hi hc hu hq ok)).does (cardMemPortConfig_run hi hc h _)

theorem State.Hears.memConfig (k : s.Hears h 0x0602) (he : s.engineState ∈ setS) {cfg : BitVec 32} (h1 : fld cfg 16 16 = 0) (h2 : fld cfg 4 4 = 0)
    (timer : 4 ≤ fld cfg 8 8) (rate : 8 ≤ fld cfg 0 4) :
    s.Does (.memConfig h cfg) h 0x0602 (leBytes 4 cfg.toNat) Reply.ok fun u => u.onMem fun m => { m with cfg := cfg } := by
  have hc := structAt_only 4 cfg
  have reserved : (cardMemConfig (leBytes 4 cfg.toNat)).reservedOk = true := by
    show zeroFields (structAt (8 * 4) (leBytes 4 cfg.toNat) 0) _ = true
    rw [hc]
    simp [zeroFields, h1, h2]
  exact (k.word_passes rfl rfl (by decide) ⟨rfl, rfl, rfl⟩ rfl (fun _ => rfl) reserved (by simp [cardMemConfig]) he
    (cardMemConfig_checks_none hc timer rate _) (cardMemConfig_frame _ h) rfl).does (cardMemConfig_run hc h _)

theorem State.Hears.memClock_passes (k : s.Hears h 0x0603) (he : s.engineState ∈ [3, 4]) {rate : BitVec 32} (h3 : rate.toNat ≤ 3)
    (hs : s.stim.enabled = false) (hq : s.mem.clock.queued = none) :
    s.Passes (.memClock h rate) h 0x0603 (leBytes 4 rate.toNat) (cardMemClock (leBytes 4 rate.toNat)) [.mem] := by
  have reserved : (cardMemClock (leBytes 4 rate.toNat)).reservedOk = true := by
    show onlyBits (word _ 0) 0xF = true
    rw [word_only]
    exact onlyBits_of_lt (k := 4) (by omega)
  exact k.unmarked_passes rfl rfl (by decide) (by simp) ⟨rfl, rfl, rfl⟩ rfl reserved (by simp [cardMemClock]) he
    (cardMemClock_busy_none hq (leBytes 4 rate.toNat)) (cardMemClock_checks_none (word_only rate) hs h3) (cardMemClock_frame _ h) rfl

/-- MEM_CLOCK: the rate in force is answered at once, another starts the change, and while one runs its own rate joins it and another is queued. -/
theorem State.Hears.memClock (k : s.Hears h 0x0603) (he : s.engineState ∈ [3, 4]) {rate : BitVec 32} (h3 : rate.toNat ≤ 3)
    (hs : s.stim.enabled = false) (hq : s.mem.clock.queued = none) :
    (s.mem.clock.phase = .idle → s.mem.clock.rate = rate.toNat → s.Does (.memClock h rate) h 0x0603 (leBytes 4 rate.toNat) Reply.ok id) ∧
    (s.mem.clock.phase = .idle → s.mem.clock.rate ≠ rate.toNat →
      s.Holds (.memClock h rate) h 0x0603 (leBytes 4 rate.toNat) .memClock fun u => u.startMemChange rate.toNat) ∧
    (s.mem.clock.phase ≠ .idle → s.mem.clock.target = rate.toNat →
      s.Does (.memClock h rate) h 0x0603 (leBytes 4 rate.toNat) Reply.deferred fun u =>
        u.onMem fun m => { m with clock := { m.clock with deferred := m.clock.deferred ++ [h.ticket.toNat] } }) ∧
    (s.mem.clock.phase ≠ .idle → s.mem.clock.target ≠ rate.toNat →
      s.Does (.memClock h rate) h 0x0603 (leBytes 4 rate.toNat) Reply.deferred fun u =>
        u.onMem fun m => { m with clock := { m.clock with queued := some (rate.toNat, h.ticket.toNat) } }) := by
  have p := k.memClock_passes he h3 hs hq
  have run := cardMemClock_run (word_only rate) h (s.heard h 0x0603 (leBytes 4 rate.toNat))
  exact ⟨fun idle hr => p.does (run.trans (State.memClock_same _ idle hr)), fun idle hr => p.holds (run.trans (State.memClock_starts _ idle hr)),
    fun works hr => p.does (run.trans (State.memClock_joins _ works hr)), fun works hr => p.does (run.trans (State.memClock_queues _ works hr))⟩

/-- The 40 bits of BAR2_SET's base are the low five bytes of its payload, and the rest is zero. -/
theorem bar2Base_payload {base : Nat} (hb : base < 2 ^ 40) : leAt (leBytes 8 base) 0 5 = base ∧ leAt (leBytes 8 base) 5 3 = 0 := by
  rw [leAt_field 8 base 0 5 (by decide), leAt_field 8 base 5 3 (by decide), bits, bits, Nat.shiftRight_eq_div_pow, Nat.shiftRight_eq_div_pow]
  omega

theorem State.Hears.bar2Set (k : s.Hears h 0x0604) (he : s.engineState ∈ setS) {base : BitVec 64} (hb : base.toNat < 2 ^ 40)
    (aligned : base.toNat % 2 ^ 28 = 0) (within : base.toNat < s.memBytes) :
    s.Does (.bar2Set h base) h 0x0604 (leBytes 8 base.toNat) Reply.ok fun u => u.onMem fun m => { m with bar2 := base.toNat } := by
  obtain ⟨low, high⟩ := bar2Base_payload hb
  have within : base.toNat < (s.heard h 0x0604 (leBytes 8 base.toNat)).memBytes := within
  exact (k.unmarked_passes rfl rfl (by decide) (by simp) ⟨rfl, rfl, rfl⟩ rfl (beq_iff_eq.mpr high) (by simp [cardBar2Set]) he rfl
    (cardBar2Set_checks_none low aligned within) (cardBar2Set_frame _ h) rfl).does (cardBar2Set_run low h _)

theorem State.Hears.readoutRings (k : s.Hears h 0x0701) (he : s.engineState ∈ setC) {select : BitVec 32} {g : Fin 4} (hg : select.toNat = g.val)
    {cfg : BitVec 256} (h1 : fld cfg 96 13 = 0) (h2 : fld cfg 3 45 = 0) (hl : (s.groups.get g).live = false) (hd : (s.rings.get g).desc = none)
    (hw : (s.rings.get g).cpl.waiting = []) (hv : ringsInvalid cfg = false) :
    s.Does (.readoutRings h select cfg) h 0x0701 (leBytes 4 select.toNat ++ leBytes 32 cfg.toNat) Reply.ok fun u =>
      u.onRing g fun r => r.configure cfg := by
  have hi := (selIndex_here select (leBytes 32 cfg.toNat) (by omega)).trans hg
  have hc := structAt_past 32 select cfg
  exact ((cardReadoutRings_selects _).passes k rfl rfl rfl (by decide) (by simp) rfl (cardReadoutRings_frame _ h) (by simp [cardReadoutRings])
    (reserved_clear 32 (f := (zeroFields · [(96, 13), (3, 45)])) (by omega) (by simp [zeroFields, h1, h2])) he rfl
    (cardReadoutRings_checks_none hi hc hl hd hw hv)).does (cardReadoutRings_run hi hc h _)

end

/-- Settles O6: the cards of the five commands, each where it finds nothing against the command. -/
theorem memoryCommandsTakeEffect : Obligations.MemoryCommandsTakeEffect := by
  intro s h
  refine ⟨fun select cfg k he hs h1 h2 hu hq ok => ?_, fun cfg k he h1 h2 timer rate => k.memConfig he h1 h2 timer rate,
    fun rate k he h3 hs hq => k.memClock he h3 hs hq, fun base k he hb aligned within => k.bar2Set he hb aligned within,
    fun select cfg g k he hg h1 h2 hl hd hw hv => k.readoutRings he hg h1 h2 hl hd hw hv⟩
  have hp : select.toNat = (Fin.ofNat 23 select.toNat).val := (Nat.mod_eq_of_lt hs).symm
  exact k.memPortConfig he hp h1 h2 (by rwa [← hp]) (by rwa [← hp]) (by rwa [← hp])

end Sys2Proof.Machine
end

section
/-!
The events of the memory system (R166, R167, R170, R173, R179 to R194, R468): what a request, a read that returns, a refresh that falls due, a temperature, a
clock change, training and an access through BAR2 do where their conditions hold.
-/
namespace Sys2Proof.Machine
open Sys2Proof.Laws

/-! Requests of ports (R166, R173, R175, R180, R181). -/

/-- A request of a real-time port brings the port's fill level (R175). -/
def State.heardLevel (s : State) (port : Fin 23) (level : Nat) : State :=
  if portRt port.val then s.onMem fun m => m.onPort port fun p => p.setLevel level else s

section
variable {s : State} {t : Nat} {port : Fin 23} {unit level : Nat}

theorem memRequest_turns {a : MemAccess} (wf : a.wf = true) (runs : s.memRuns = true) {f : State → State}
    (h : (s.advance t).memRequest port unit a level = f (s.advance t)) : s.Turns (.memRequest t port unit a level) t f := by
  have runs : (s.advance t).memRuns = true := runs
  show execMemRequest t port unit a level s = _
  rw [execMemRequest, wf, if_neg (by decide)]
  exact congrArg _ ((if_pos runs).trans h)

/-- Beyond memory a request is counted, and a read gives all ones (R166). -/
theorem State.memRequest_beyond (out : s.memBytes ≤ 32 * unit) (a : MemAccess) :
    s.memRequest port unit a level =
      let u := (s.heardLevel port level).onMem fun m => { m with unmapped := m.unmapped + 1 }
      if a = .read then u.onMem fun m => m.onPort port fun p => { p with data := List.replicate 32 0xFF, poisoned := false } else u := by
  refine (if_pos out).trans ?_
  cases a with
  | read => rfl
  | write d mask => rfl

/-- A read waits in its pseudo-channel, and counts a hit on a queued write of its unit (R181). -/
theorem State.memRequest_read (within : 32 * unit < s.memBytes) :
    s.memRequest port unit .read level =
      let i := (s.mem.place (32 * unit)).pc
      ((s.heardLevel port level).onMem fun m => ((m.onPc i fun p => { p with reads := p.reads ++ [MemReq.mk port.val unit false s.now] }).onPort port
        fun p => { p with reads := p.reads ++ [unit] }).onStack (stackOf i) fun c => { c with cnt := { c.cnt with
          forwardHits := c.cnt.forwardHits + (if (m.pcs.get i).writes.any fun w => w.addr = unit then 1 else 0) } }).schedule i :=
  if_neg (Nat.not_le.mpr within)

/-- A write is made at once under its mask, and merges into a queued write of its unit or waits; the 48th that waits begins a batch (R173, R180). -/
theorem State.memRequest_write (within : 32 * unit < s.memBytes) (d : Bytes) (mask : BitVec 32) :
    s.memRequest port unit (.write d mask) level =
      let i := (s.mem.place (32 * unit)).pc
      ((s.heardLevel port level).onMem fun m =>
        { m with cells := putCells m.cells (32 * unit) (mergeUnit (m.get (32 * unit) 32) d mask), open_ := subSpan m.open_ (32 * unit) (32 * unit + 32),
                 poison := if mask = BitVec.allOnes 32 then m.poison.filter (· ≠ unit) else m.poison }.onPc i fun p =>
          if p.writes.any fun w => w.addr = unit then p
          else { p with writes := p.writes ++ [MemReq.mk port.val unit true s.now], draining := p.draining || 48 ≤ p.writes.length + 1 }).schedule i := by
  refine (if_neg (Nat.not_le.mpr within)).trans ?_
  simp only [List.length_append, List.length_singleton]
  rfl

end

/-- The oldest read of a port returns what the array holds (R181, R192, R194). -/
theorem memReadReturn_turns {s : State} {port : Fin 23} {unit : Nat} {rest : List Nat} (hr : (s.mem.ports.get port).reads = unit :: rest) (t : Nat) (ecc : Ecc) :
    s.Turns (.memReadReturn t port ecc) t fun v =>
      let r := (v.eccReport unit ecc).arrayRead (32 * unit) 32
      let u := r.1.onMem fun m => m.onPort port fun p => { p with reads := rest, data := r.2, poisoned := r.1.mem.bad (32 * unit) 32 }
      if r.1.mem.bad (32 * unit) 32 = true ∧ port.val = 0x10 then u.accPoison unit else u := by
  have hr : ((s.advance t).mem.ports.get port).reads = unit :: rest := hr
  refine congrArg Host.Outcome.next ?_
  rw [State.readReturn, hr]
  simp only [Bool.and_eq_true, decide_eq_true_eq]

/-! Refresh (R179, R182, R184, R186). -/

section
variable {s : State} (i : Fin 128)

/-- A refresh of a pseudo-channel is owed from now on (R182, R184). -/
def State.owesRefresh (s : State) (i : Fin 128) : State :=
  s.onMem fun m => (m.onPc i fun p => { p with debt := p.debt + 1, nextDue := p.nextDue + (s.mem.hbm.get (stackOf i)).interval }).onStack (stackOf i)
    fun c => { c with maxDebt := max c.maxDebt ((s.mem.pcs.get i).debt + 1) }

/-- A refresh that is owed is postponed (R184). -/
def State.postponesRefresh (s : State) (i : Fin 128) : State :=
  (s.owesRefresh i).onMem fun m => m.onStack (stackOf i) fun c => { c with cnt := { c.cnt with postponed := c.cnt.postponed + 1 } }

/-- The four cases of a refresh that falls due: one is under way, panic postpones it, the debt forces it, or all owed are issued. -/
theorem State.refreshDue_cases :
    s.refreshDue i =
      let c := s.mem.hbm.get (stackOf i)
      let p := s.mem.pcs.get i
      let panic := (p.reads ++ p.writes).any s.mem.panicked
      if s.now < p.lastRefresh then (s.owesRefresh i).onMem fun m => m.issueRefresh i s.now
      else if panic = true ∧ p.debt + 1 ≤ c.limit then s.postponesRefresh i
      else if panic = true then (s.postponesRefresh i).onMem fun m =>
        (m.onStack (stackOf i) fun c => { c with cnt := { c.cnt with forced := c.cnt.forced + 1 } }).issueRefresh i s.now
      else (List.range (min (p.debt + 1) 8)).foldl (fun u _ => u.onMem fun m => m.issueRefresh i u.now) (s.owesRefresh i) := by
  unfold State.refreshDue
  dsimp only
  refine ite_congr rfl (fun _ => rfl) fun _ => ?_
  by_cases panic : ((s.mem.pcs.get i).reads ++ (s.mem.pcs.get i).writes).any s.mem.panicked = true
  · rw [if_pos panic, if_pos panic]
    by_cases room : (s.mem.pcs.get i).debt + 1 ≤ (s.mem.hbm.get (stackOf i)).limit
    · rw [if_neg (Nat.not_lt.mpr room)]
      exact (if_pos ⟨panic, room⟩).symm
    · rw [if_pos (Nat.not_le.mp room)]
      exact (if_neg fun h => room h.2).symm
  · rw [if_neg panic, if_neg panic]
    exact (if_neg fun h => panic h.1).symm

end

theorem refreshDue_turns {s : State} {t : Nat} {i : Fin 128} (runs : s.memRuns = true) (due : (s.mem.pcs.get i).nextDue ≤ max s.now t) {f : State → State}
    (h : (s.advance t).refreshDue i = f (s.advance t)) : s.Turns (.refreshDue t i) t f := by
  have runs : (s.advance t).memRuns = true := runs
  have due : ((s.advance t).mem.pcs.get i).nextDue ≤ (s.advance t).now := due
  refine congrArg Host.Outcome.next ((if_pos ?_).trans h)
  rw [runs, decide_eq_true due]
  rfl

/-- A scheduled neighbour refresh that has waited 256 cycles is issued (R186). -/
theorem neighbourRefreshForced_turns {s : State} {t : Nat} {i : Fin 128} {n : Neighbour} (runs : s.memRuns = true)
    (hn : s.mem.forcedNeighbour (s.mem.pcs.get i) (max s.now t) = some n) :
    s.Turns (.neighbourRefreshForced t i) t fun v => v.onMem fun m => m.issueNeighbour i n true := by
  have runs : (s.advance t).memRuns = true := runs
  have hn : (s.advance t).mem.forcedNeighbour ((s.advance t).mem.pcs.get i) (s.advance t).now = some n := hn
  show execNeighbourRefreshForced t i s = _
  simp only [execNeighbourRefreshForced, hn, runs, if_true]

/-! The temperature of a stack (R183, R185). -/

/-- A stack's temperature is noted, and whether it is hot. -/
def State.seesTemp (s : State) (k : Fin 4) (temp : Int) (hot : Bool) : State :=
  s.onMem fun m => m.onStack k fun c => { c with temp := temp, wasRead := true, hot := hot }

section
variable {s : State} {k : Fin 4} {temp : Int}

theorem State.stackTemp_heats (was : (s.mem.hbm.get k).hot = false) (ht : 850 ≤ temp) :
    s.stackTemp k temp = ((s.seesTemp k temp true).onMem fun m => (m.restartCadence k s.now).pullIn k s.now).raise
      { code := 0x0682, obj := k.val, vals := [1, unsigned 64 (temp / 10)] } := by
  unfold State.stackTemp
  simp [was, ht]
  rfl

theorem State.stackTemp_cools (was : (s.mem.hbm.get k).hot = true) (ht : temp < 820) :
    s.stackTemp k temp = ((s.seesTemp k temp false).onMem fun m => m.restartCadence k s.now).raise
      { code := 0x0682, obj := k.val, vals := [0, unsigned 64 (temp / 10)] } := by
  unfold State.stackTemp
  simp [was, Int.not_le.mpr ht]
  rfl

theorem State.stackTemp_stays {was : Bool} (hw : (s.mem.hbm.get k).hot = was) (ht : was = false ∧ temp < 850 ∨ was = true ∧ 820 ≤ temp) :
    s.stackTemp k temp = s.seesTemp k temp was := by
  unfold State.stackTemp
  obtain ⟨rfl, ht⟩ | ⟨rfl, ht⟩ := ht
  · simp [hw, Int.not_le.mpr ht]
    rfl
  · simp [hw, ht]
    rfl

/-- A temperature below that of a thermal trip, or one that is not watched (R399). -/
theorem stackTempReading_turns {t : Nat} (hb : s.board.boot ≠ .reset) (cool : temp < 1050 ∨ s.board.thermWatch = false) {f : State → State}
    (h : (s.advance t).stackTemp k temp = f (s.advance t)) : s.TurnsThen (.stackTempReading t k temp) t f := by
  refine State.event_turnsThen
    (f := fun v => if v.board.boot = .reset then v
      else if 1050 ≤ temp ∧ (v.stackTemp k temp).board.thermWatch then (v.stackTemp k temp).fatal 0x0025 (6 + k.val) true else v.stackTemp k temp) rfl ?_
  have board : ((s.advance t).stackTemp k temp).board = s.board := (stackTemp_frame (s.advance t) k temp).rest .board rfl
  have trip : ¬ (1050 ≤ temp ∧ ((s.advance t).stackTemp k temp).board.thermWatch = true) := by
    rw [board]
    rintro ⟨hot, watch⟩
    exact cool.elim (Int.not_lt.mpr hot) (ne_false_of_eq_true watch)
  exact (if_neg hb).trans ((if_neg trip).trans h)

end

/-! Stripes that are re-initialised (R104, R170, R297, R372). -/

section
variable {s : State} {t : Nat}

theorem stripeReinitDone_arm {g : Fin 5} {i : Fin 4} (hi : i.val = g.val) (hb : s.board.boot = .run) (wait : (s.groups.get i).armWait.isSome = true) :
    s.TurnsThen (.stripeReinitDone t g) t fun v =>
      let r := (v.regrain (v.holds i) (v.groups.get i).grain).armNow i
      r.1.finish (.arm i.val) (Reply.ok r.2) := by
  refine State.event_turnsThen (f := fun v => if g.val < 4 then v.armReinit (Fin.ofNat 4 g.val) else v.seqReinit) rfl ?_
  have hg : Fin.ofNat 4 g.val = i := by
    rw [← hi]
    exact Fin.ofNat_val_eq_self i
  have runs : (((s.advance t).groups.get i).armWait.isNone || (s.advance t).board.boot ≠ .run) = false := by
    show ((s.groups.get i).armWait.isNone || s.board.boot ≠ .run) = false
    simp [hb, wait]
  refine (if_pos (hi ▸ i.isLt)).trans ?_
  rw [hg]
  exact if_neg (ne_true_of_eq_false runs)

theorem stripeReinitDone_sequencer (on : s.stim.enabled = true) (changes : s.seqRegrains ≠ []) :
    s.TurnsThen (.stripeReinitDone t 4) t fun v => (v.regrain [(seqBase v.stim.cfg, seqBytes v.stim.cfg)] (seqGrain v.stim.cfg)).seqEnabled := by
  refine State.event_turnsThen (f := State.seqReinit) rfl ?_
  have on : (s.advance t).stim.enabled = true := on
  have changes : (s.advance t).seqRegrains ≠ [] := changes
  exact if_pos (by simp [on, changes])

/-! The memory clock and training (R189, R190). -/

theorem memClockRelocked_turns (hp : s.mem.clock.phase = .relock) (due : s.mem.clock.since + 20 * us ≤ max s.now t) :
    s.TurnsThen (.memClockRelocked t) t fun v => match s.mem.clock.queued with
      | some (rate, ticket) => v.makeQueued rate ticket
      | none => v.startTraining false := by
  refine State.event_turnsThen (f := State.relocked) rfl ?_
  have hp : (s.advance t).mem.clock.phase = .relock := hp
  have due : ¬ (s.advance t).now < (s.advance t).mem.clock.since + 20 * us := Nat.not_lt.mpr due
  rw [State.relocked, hp]
  exact if_neg due

section
variable {p : Nat} (hp : s.mem.clock.phase = .training p)
include hp

/-- A training pass that is over fails, makes way for a queued change, or is followed by the next pass or the end of training. -/
theorem State.passDone_due (due : s.mem.clock.since + passTicks s.mem.clock.rate p ≤ s.now) (failed : BitVec 4) :
    s.passDone failed =
      if failed ≠ 0 then s.trainFailed (four.filter fun k => flag failed k.val) p
      else match s.mem.clock.queued with
        | some (rate, ticket) => s.makeQueued rate ticket
        | none =>
          if p < 3 then s.onMem fun m => { m with clock := { m.clock with phase := .training (p + 1), since := s.now, lastPass := p + 1 } }
          else s.trained := by
  rw [State.passDone, hp]
  exact if_neg (Nat.not_lt.mpr due)

variable (due : s.mem.clock.since + passTicks s.mem.clock.rate p ≤ max s.now t)
include due

theorem trainingPassDone_failed {failed : BitVec 4} (hf : failed ≠ 0) :
    s.TurnsThen (.trainingPassDone t failed) t fun v => v.trainFailed (four.filter fun i => flag failed i.val) p :=
  State.event_turnsThen (f := fun v => v.passDone failed) rfl ((State.passDone_due (s := s.advance t) hp due failed).trans (if_pos hf))

theorem trainingPassDone_queued {rate ticket : Nat} (hq : s.mem.clock.queued = some (rate, ticket)) :
    s.TurnsThen (.trainingPassDone t 0) t fun v => v.makeQueued rate ticket := by
  have hq : (s.advance t).mem.clock.queued = some (rate, ticket) := hq
  refine State.event_turnsThen (f := fun v => v.passDone 0) rfl ((State.passDone_due (s := s.advance t) hp due 0).trans ?_)
  rw [if_neg (by decide), hq]

theorem trainingPassDone_passed (hq : s.mem.clock.queued = none) :
    s.TurnsThen (.trainingPassDone t 0) t fun v =>
      if p < 3 then v.onMem fun m => { m with clock := { m.clock with phase := .training (p + 1), since := v.now, lastPass := p + 1 } } else v.trained := by
  have hq : (s.advance t).mem.clock.queued = none := hq
  refine State.event_turnsThen (f := fun v => v.passDone 0) rfl ((State.passDone_due (s := s.advance t) hp due 0).trans ?_)
  rw [if_neg (by decide), hq]

end

/-- Memory initialisation ends in INIT, with every block as initialised or with a boot failure (R171, R468). -/
theorem memInitDone_turns (runs : s.mem.initRunning = true) (hb : s.board.boot = .init) (hp : s.mem.clock.phase = .idle) (failed : Option (Fin 4)) :
    s.TurnsThen (.memInitDone t failed) t fun v => match failed with
      | some i => v.bootFail 0x0607 i.val
      | none => ((v.onMem fun m => { m with
          cells := [], poison := [], open_ := [], grains := [], initDone := true, initRunning := false }).bootBit 28).noteReady := by
  refine State.event_turnsThen (f := fun v => v.memInitEnds failed) rfl ?_
  have runs : (s.advance t).mem.initRunning = true := runs
  have hb : (s.advance t).board.boot = .init := hb
  have hp : (s.advance t).mem.clock.phase = .idle := hp
  exact if_neg (by simp [runs, hb, hp])

/-! Accesses through BAR2 (R167, R191). -/

theorem bar2Access_illFormed {offset : Nat} {a : Bar2Op} (wf : a.wf offset = false) : exec (.bar2Access t offset a) s = .refused .illFormed := by
  show execBar2Access t offset a s = _
  rw [execBar2Access, wf, if_pos (by decide)]

theorem bar2Access_turns {offset : Nat} {a : Bar2Op} (wf : a.wf offset = true) (hb : s.board.boot ≠ .reset) :
    s.Turns (.bar2Access t offset a) t fun v => v.bar2Access offset a := by
  show execBar2Access t offset a s = _
  rw [execBar2Access, wf, if_neg (by decide)]
  exact congrArg _ (if_neg hb)

end

/-- Settles O24: each row by what its operation does where its condition holds. -/
theorem memoryEventsTakeEffect : Obligations.MemoryEventsTakeEffect := by
  intro s t port k pc
  refine ⟨?request, ?shape, fun unit rest ecc hr => memReadReturn_turns hr t ecc, fun runs due => refreshDue_turns runs due (State.refreshDue_cases pc), ?temp,
    fun n => neighbourRefreshForced_turns, fun g i => stripeReinitDone_arm, stripeReinitDone_sequencer, memClockRelocked_turns, ?pass,
    fun failed runs hb hp => memInitDone_turns runs hb hp failed, rfl, fun offset a => ⟨bar2Access_illFormed, ?bar2⟩⟩
  case request =>
    intro unit level a hd runs
    have wf : a.wf = true := by
      cases a with
      | read => rfl
      | write d mask => exact decide_eq_true (hd d mask rfl)
    exact ⟨fun out => memRequest_turns wf runs (State.memRequest_beyond (s := s.advance t) out a),
      fun within ha => by subst ha; exact memRequest_turns wf runs (State.memRequest_read (s := s.advance t) within),
      fun d mask within ha => by subst ha; exact memRequest_turns wf runs (State.memRequest_write (s := s.advance t) within d mask)⟩
  case shape =>
    intro unit level d mask hd
    show execMemRequest t port unit (.write d mask) level s = _
    simp [execMemRequest, MemAccess.wf, hd]
  case temp =>
    intro temp hb cool was
    exact ⟨fun hw ht => stackTempReading_turns hb cool (State.stackTemp_heats hw ht), fun hw ht => stackTempReading_turns hb cool (State.stackTemp_cools hw ht),
      fun ht => stackTempReading_turns hb cool (State.stackTemp_stays rfl ht)⟩
  case pass =>
    intro p failed hp due
    exact ⟨trainingPassDone_failed hp due, by rintro rfl rate ticket; exact trainingPassDone_queued hp due, by rintro rfl; exact trainingPassDone_passed hp due⟩
  case bar2 =>
    intro wf hb
    cases a with
    | read n => exact bar2Access_turns wf hb
    | write d => exact bar2Access_turns wf hb

end Sys2Proof.Machine
end

section
/-!
The events of readout (R193, R201 to R217): what a descriptor, a block read, a completion posted, a stream buffer flushed and an interrupt timer do where
their conditions hold.
-/
namespace Sys2Proof.Machine
open Sys2Proof.Laws

/-! Descriptors (R201, R202). -/

/-- A port has taken the descriptor at its ring's head (R202). -/
def State.tookDescriptor (s : State) (g : Fin 4) : State := s.onRing g fun x => { x with descHead := (x.descHead + 1) % 2 ^ 32 }

/-- A port may take the descriptor at its ring's head: its rings are on, one is posted, none is in progress, a completion has room and memory is free. -/
structure State.MayTake (s : State) (g : Fin 4) : Prop where
  on : (s.rings.get g).on = true
  posted : (s.rings.get g).descHead ≠ (s.rings.get g).descTail
  free : (s.rings.get g).desc = none
  room : (s.rings.get g).cpl.full (s.rings.get g).cfg = false
  memory : s.memBusy = false

section
variable {s : State} {t : Nat} {g : Fin 4} {b : Bytes}

/-- An invalid descriptor is an error, a BUFFER is taken where something waits to be delivered, and a fetch always. -/
theorem State.MayTake.takeDescriptor (h : s.MayTake g) (b : Bytes) :
    s.takeDescriptor g b =
      let r := s.rings.get g
      let d := descOf b
      if d.invalid r.follows then
        ((s.tookDescriptor g).onRing g fun x => { x with descErrors := x.descErrors + 1 }).toGroup g (descErrorCompletion r.descHead 1 d.irqNow)
      else if d.kind = 1 then
        if (s.groups.get g).streamWaits || r.nextItem.isSome then (s.tookDescriptor g).takeBuffer g d r.descHead else s
      else (s.tookDescriptor g).takeFetch g d r.descHead := by
  obtain ⟨on, posted, free, room, memory⟩ := h
  exact if_neg (by simp [on, posted, free, room, memory])

theorem descriptorTake_illFormed (hb : b.length ≠ 32) : exec (.descriptorTake t g b) s = .refused .illFormed := if_pos hb

theorem descriptorTake_turns (hb : b.length = 32) {f : State → State} (h : (s.advance t).takeDescriptor g b = f (s.advance t)) :
    s.Turns (.descriptorTake t g b) t f := by
  show execDescriptorTake t g b s = _
  rw [execDescriptorTake, if_neg (not_not_intro hb), h]

theorem State.MayTake.advance (h : s.MayTake g) (t : Nat) : (s.advance t).MayTake g := ⟨h.on, h.posted, h.free, h.room, h.memory⟩

section
variable (h : s.MayTake g) (hb : b.length = 32)
include h hb

theorem descriptorTake_invalid (hv : (descOf b).invalid (s.rings.get g).follows = true) :
    s.Turns (.descriptorTake t g b) t fun v => ((v.tookDescriptor g).onRing g fun x => { x with descErrors := x.descErrors + 1 }).toGroup g
      (descErrorCompletion (s.rings.get g).descHead 1 (descOf b).irqNow) :=
  descriptorTake_turns hb (((h.advance t).takeDescriptor b).trans (if_pos hv))

variable (hv : (descOf b).invalid (s.rings.get g).follows = false)
include hv

theorem descriptorTake_fetch (hk : (descOf b).kind ≠ 1) :
    s.Turns (.descriptorTake t g b) t fun v => (v.tookDescriptor g).takeFetch g (descOf b) (s.rings.get g).descHead :=
  descriptorTake_turns hb (((h.advance t).takeDescriptor b).trans ((if_neg (ne_true_of_eq_false hv)).trans (if_neg hk)))

theorem descriptorTake_buffer (hk : (descOf b).kind = 1) (data : (s.groups.get g).streamWaits = true ∨ (s.rings.get g).nextItem ≠ none) :
    s.Turns (.descriptorTake t g b) t fun v => (v.tookDescriptor g).takeBuffer g (descOf b) (s.rings.get g).descHead := by
  have data : ((s.groups.get g).streamWaits || (s.rings.get g).nextItem.isSome) = true := by
    rwa [Bool.or_eq_true, Option.isSome_iff_ne_none]
  exact descriptorTake_turns hb (((h.advance t).takeDescriptor b).trans
    ((if_neg (ne_true_of_eq_false hv)).trans ((if_pos hk).trans (if_pos data))))

end

end

/-! Blocks that are read (R193, R211). -/

/-- A block that was bad is read again, and counted (R193). -/
def State.rereads (s : State) (g : Fin 4) : State :=
  (s.onMem fun m => { m with rereads := m.rereads + 1 }).onRing g fun x => { x with rereads := x.rereads + 1 }

/-- A descriptor with one more block in its buffer (R209). -/
def Desc.filledOnce (d : Desc) (bad : Bool) : Desc :=
  { d with filled := d.filled + 1, firstBad := if bad = true ∧ d.badCount = 0 then d.filled else d.firstBad, badCount := d.badCount + (if bad then 1 else 0) }

/-- A block is written to the place in the buffer where its descriptor stands (R211). -/
def State.delivers (s : State) (g : Fin 4) (d : Desc) (b : Bytes) (bad : Bool) : State :=
  ((s.onMem fun m => { m with blockBad := m.blockBad + (if bad then 1 else 0) }).linkOut [.data (d.addr + 2048 * d.filled) (deliverBlock b bad)]).onRing g
    fun x => { x with rereads := 0, blocks := x.blocks + 1, desc := some (d.filledOnce bad) }

/-- What follows a delivered block, by what its descriptor delivers (R203, R204, R206). -/
def State.delivered (s : State) (g : Fin 4) (d : Desc) (bad : Bool) : State :=
  match d.use with
  | .stream => s.streamBlock g (d.filledOnce bad) bad
  | .item => s.itemBlock g bad
  | .fetchRecord => s.fetchBlock g (d.filledOnce bad)
  | .fetchSnapshot => s.fetchBlock g (d.filledOnce bad)

section
variable {s : State} {t : Nat} {g : Fin 4} {d : Desc} {a : Nat}

/-- The block of a descriptor in progress is read again where it is bad and was read again fewer than three times, and is delivered otherwise. -/
theorem State.readBlock_reads (hd : (s.rings.get g).desc = some d) (ha : s.nextRead g d = some a) (hm : s.memBusy = false) {damaged : Option Bytes} {b : Bytes}
    (hb : damaged.getD (s.arrayRead a 2048).2 = b) {bad : Bool} (hbad : (!crcOk b || s.mem.bad a 2048) = bad) :
    s.readBlock g damaged =
      if bad = true ∧ (s.rings.get g).rereads < 3 then (s.arrayRead a 2048).1.rereads g
      else ((s.arrayRead a 2048).1.delivers g d b bad).delivered g d bad := by
  have mem : (s.arrayRead a 2048).1.mem = s.mem := (arrayRead_frame s a 2048).rest .mem rfl
  have busy : ¬ (s.arrayRead a 2048).1.memBusy = true := by
    rw [State.memBusy, mem]
    exact ne_true_of_eq_false hm
  unfold State.readBlock
  simp only [hd, ha, hb, mem, hbad, if_neg busy, Bool.and_eq_true, decide_eq_true_eq]
  rfl

theorem readoutBlockRead_illFormed {b : Bytes} (hb : b.length ≠ 2048) : exec (.readoutBlockRead t g (some b)) s = .refused .illFormed :=
  if_pos (decide_eq_true hb)

section
variable {damaged : Option Bytes} (hl : ∀ b, damaged = some b → b.length = 2048) (hd : (s.rings.get g).desc = some d) (ha : s.nextRead g d = some a)
  (hm : s.memBusy = false) {b : Bytes} (hb : damaged.getD ((s.advance t).arrayRead a 2048).2 = b) {bad : Bool} (hbad : (!crcOk b || s.mem.bad a 2048) = bad)
include hl hd ha hm hb hbad

theorem readoutBlockRead_row : exec (.readoutBlockRead t g damaged) s = .next (
    if bad = true ∧ (s.rings.get g).rereads < 3 then ((s.advance t).arrayRead a 2048).1.rereads g
    else (((s.advance t).arrayRead a 2048).1.delivers g d b bad).delivered g d bad) := by
  have shape : (damaged.any fun b => b.length ≠ 2048) = false :=
    (Option.any_eq_false ..).mpr fun b hb => by simp [hl b hb]
  show execReadoutBlockRead t g damaged s = _
  rw [execReadoutBlockRead, if_neg (ne_true_of_eq_false shape)]
  exact congrArg _ (State.readBlock_reads (s := s.advance t) hd ha hm hb hbad)

theorem readoutBlockRead_again (again : bad = true) (few : (s.rings.get g).rereads < 3) :
    s.Turns (.readoutBlockRead t g damaged) t fun v => (v.arrayRead a 2048).1.rereads g :=
  (readoutBlockRead_row hl hd ha hm hb hbad).trans (congrArg _ (if_pos ⟨again, few⟩))

theorem readoutBlockRead_delivers (last : bad = false ∨ 3 ≤ (s.rings.get g).rereads) :
    s.Turns (.readoutBlockRead t g damaged) t fun v => ((v.arrayRead a 2048).1.delivers g d b bad).delivered g d bad :=
  (readoutBlockRead_row hl hd ha hm hb hbad).trans (congrArg _ (if_neg fun h => last.elim (ne_false_of_eq_true h.1) (Nat.not_le.mpr h.2)))

end

end

/-! Completions of a group's ring (R212, R213). -/

section
variable {s : State} {t : Nat} {g : Fin 4}

/-- The row of a group's ring posts the completion of its lane. -/
theorem completionPost_group {lane : CplLane} {f : State → State} (h : (s.advance t).postLane g lane = f (s.advance t)) :
    s.TurnsThen (.completionPost t g.castSucc lane) t f := by
  refine State.event_turnsThen (f := fun v => v.postCompletion g.castSucc lane) rfl ?_
  have ring : g.castSucc.val < 4 := g.isLt
  have group : Fin.ofNat 4 g.castSucc.val = g := Fin.ofNat_val_eq_self g
  rw [State.postCompletion, if_pos ring, group, h]

variable (on : (s.rings.get g).on = true) (clear : s.events.pending = []) {c : Completion}
include on clear

theorem State.postLane_item {i : Item} (hi : (s.rings.get g).items.head? = some i) (written : i.afterEvent ≤ s.events.written) (slew : i.waitsSlew = false)
    (hc : s.itemReady g i = some c) : s.postLane g .item = s.postGroup g c fun u => u.dropItem g c := by
  have held : ¬ (decide (s.events.written < i.afterEvent) || i.waitsSlew) = true := by simp [slew, Nat.not_lt.mpr written]
  rw [State.postLane, if_neg (by simp [on, clear])]
  simp only [hi, if_neg held, hc]

theorem State.postLane_stream (hc : ((s.rings.get g).cpl.waiting.find? fun c => c.kind = .stream) = some c) :
    s.postLane g .stream = s.postGroup g c fun u => u.dropWaiting g c := by
  rw [State.postLane, if_neg (by simp [on, clear])]
  simp only [hc]

theorem State.postLane_fetch (hc : ((s.rings.get g).cpl.waiting.find? fun c => c.kind = .fetch || c.kind = .descError) = some c) :
    s.postLane g .fetch = s.postGroup g c fun u => u.dropWaiting g c := by
  rw [State.postLane, if_neg (by simp [on, clear])]
  simp only [hc]

end

/-! Completions of ring 4 (R212, R214, R360, R488). -/

section
variable {s : State} {t : Nat} (on : s.ringOn = true)

/-- The row of ring 4 posts an event or a reply; a reply of SYS_RESET lets the engine enter RESET (R360). -/
theorem completionPost_ring4 {lane : CplLane} {f : State → State} (h : (s.advance t).postRing4 lane = f (s.advance t)) :
    s.TurnsThen (.completionPost t 4 lane) t fun v => (f v).applyReset := by
  refine State.event_turnsThen (f := fun v => v.postCompletion 4 lane) rfl ?_
  rw [State.postCompletion, if_neg (by decide), h]

include on

theorem State.postRing4_event {e : Event} {rest : List Event} (hq : s.events.queue = e :: rest) :
    s.postRing4 .event = s.post4 (eventCompletion e) fun u => u.dropEvent e := by
  rw [State.postRing4, if_neg (by simp [on]), if_pos rfl, hq]

/-- The first reply goes once the events that concern it are written; while events are pending, the first notice (R488). -/
theorem State.postRing4_reply {lane : CplLane} (hl : lane ≠ .event) {c : Completion} (written : c.afterEvent ≤ s.events.written)
    (next : s.events.pending = [] ∧ s.ring4.waiting.head? = some c ∨ s.events.pending ≠ [] ∧ s.ring4.waiting.find? Completion.isNotice = some c) :
    s.postRing4 lane = s.post4 c fun u => (u.onRing4 fun x => { x with waiting := x.waiting.erase c }).applySetup := by
  have first : (if (!s.events.pending.isEmpty) = true then s.ring4.waiting.find? Completion.isNotice else s.ring4.waiting.head?) = some c := by
    obtain ⟨clear, first⟩ | ⟨pends, first⟩ := next
    · rw [if_neg (by simp [clear]), first]
    · rw [if_pos (by simp [pends]), first]
  rw [State.postRing4, if_neg (by simp [on]), if_neg hl]
  simp only [first, if_neg (Nat.not_lt.mpr written)]

end

/-! The timers of rings (R204, R217). -/

section
variable {s : State} {t : Nat} {g : Fin 4}

/-- A stream buffer that has blocks and waits for no more is completed FLUSH_TIMER µs after its last block (R204). -/
theorem streamFlushTimeout_turns {d : Desc} (hd : (s.rings.get g).desc = some d) (use : d.use = .stream) (begun : 0 < d.filled)
    (drained : (s.groups.get g).streamWaits = false) (due : (s.rings.get g).lastBlock + flushTimer (s.rings.get g).cfg * us ≤ max s.now t) :
    s.Turns (.streamFlushTimeout t g) t fun v => v.closeStream g d := by
  have hd : ((s.advance t).rings.get g).desc = some d := hd
  have ends : (d.use = .stream && 0 < d.filled && !((s.advance t).groups.get g).streamWaits &&
      ((s.advance t).rings.get g).lastBlock + flushTimer ((s.advance t).rings.get g).cfg * us ≤ (s.advance t).now) = true := by
    show (d.use = .stream && 0 < d.filled && !(s.groups.get g).streamWaits &&
      (s.rings.get g).lastBlock + flushTimer (s.rings.get g).cfg * us ≤ max s.now t) = true
    simp [use, begun, drained, due]
  refine congrArg Host.Outcome.next ?_
  unfold State.flushStream
  simp only [hd, if_pos ends]

theorem irqTimerExpiry_group (on : (s.rings.get g).on = true) (due : (s.rings.get g).cpl.timerDue (s.rings.get g).cfg (max s.now t) = true) :
    s.Turns (.irqTimerExpiry t g.castSucc) t fun v =>
      (v.onRing g fun x => { x with cpl := { x.cpl with unsignalled := 0 } }).linkOut [.msix (ringVector (s.rings.get g).cfg)] := by
  have ready : (((s.advance t).rings.get g).on && ((s.advance t).rings.get g).cpl.timerDue ((s.advance t).rings.get g).cfg (s.advance t).now) = true :=
    Bool.and_eq_true_iff.mpr ⟨on, due⟩
  exact congrArg Host.Outcome.next ((dif_pos g.isLt).trans (if_pos ready))

theorem irqTimerExpiry_ring4 (on : s.ringOn = true) (due : s.ring4.timerDue s.host.ring (max s.now t) = true) :
    s.Turns (.irqTimerExpiry t 4) t fun v => (v.onRing4 fun x => { x with unsignalled := 0 }).linkOut [.msix (ringVector s.host.ring)] := by
  have ready : ((s.advance t).ringOn && (s.advance t).ring4.timerDue (s.advance t).host.ring (s.advance t).now) = true :=
    Bool.and_eq_true_iff.mpr ⟨on, due⟩
  exact congrArg Host.Outcome.next ((dif_neg (by decide)).trans (if_pos ready))

end

/-- Settles O25: each row by what its operation does where its condition holds. -/
theorem readoutEventsTakeEffect : Obligations.ReadoutEventsTakeEffect := by
  intro s t g r
  refine ⟨fun desc => descriptorTake_illFormed, ?descriptor, fun b => readoutBlockRead_illFormed, ?block, ?group, ?ring4,
    fun d => streamFlushTimeout_turns, irqTimerExpiry_group, irqTimerExpiry_ring4⟩
  case descriptor =>
    intro desc hl on posted free room memory d took
    have h : s.MayTake g := ⟨on, posted, free, room, memory⟩
    exact ⟨descriptorTake_invalid h hl, descriptorTake_fetch h hl, descriptorTake_buffer h hl⟩
  case block =>
    intro d a damaged hl hd ha hm read b bad
    exact ⟨readoutBlockRead_again hl hd ha hm rfl rfl, readoutBlockRead_delivers hl hd ha hm rfl rfl⟩
  case group =>
    intro on clear
    exact ⟨fun i c hi written slew hc => completionPost_group (State.postLane_item (s := s.advance t) on clear hi written slew hc),
      fun c hc => completionPost_group (State.postLane_stream (s := s.advance t) on clear hc),
      fun c hc => completionPost_group (State.postLane_fetch (s := s.advance t) on clear hc)⟩
  case ring4 =>
    intro on
    exact ⟨fun e rest hq => completionPost_ring4 (State.postRing4_event (s := s.advance t) on hq),
      fun c lane hl written next => completionPost_ring4 (State.postRing4_reply (s := s.advance t) on hl written next)⟩

end Sys2Proof.Machine
end

section
/-!
The service calls (R261, R266, R281, R410 to R417): what each function finds and does, and the next state where it accepts its arguments.
-/
namespace Sys2Proof.Machine
open Sys2Proof.Laws

/-! How a call that is served at once comes to its function. -/

/-- A core's window holds the arguments of its call, before what was left of earlier ones. -/
theorem State.called_window (s : State) (t : Nat) (core : Fin 4) (func : Nat) (args : List Nat) :
    ((s.called t core func args).fw.cores.get core).args = args ++ (s.fw.cores.get core).args.drop args.length :=
  congrArg Core.args (vmod_get_self (s.advance t).fw.cores core _)

/-- A call served at once whose function answers r, and whose effect leaves the paths, the board and the firmware alone. -/
theorem State.Calls.answers {s : State} {core : Fin 4} (k : s.Calls core) {i : Instr} {t func : Nat} {args : List Nat} {effect : State → State} {v : Served}
    {r : State × Served} {ps : List Part} (row : exec i s = s.event t fun v => v.serviceCall core func args)
    (h : r = (effect (s.called t core func args), v)) (frame : Frame ps (s.called t core func args) r.1)
    (w : (ps.contains .paths || ps.contains .board || ps.contains .fw) = false)
    (run : (s.called t core func args).serveFunc core func = r := by simp only [State.serveFunc, State.called_window] <;> rfl) :
    s.Serves i t core func args v effect := by
  subst h
  exact k.serves row run (frame.waitsAs w)

/-- A call served at once whose function answers r; then what waited goes on. -/
theorem State.Calls.answersThen {s : State} {core : Fin 4} (k : s.Calls core) {i : Instr} {t func : Nat} {args : List Nat} {effect : State → State}
    {v : Served} {r : State × Served} (row : exec i s = s.event t fun v => v.serviceCall core func args)
    (h : r = (effect (s.called t core func args), v))
    (run : (s.called t core func args).serveFunc core func = r := by simp only [State.serveFunc, State.called_window] <;> rfl) :
    s.ServesThen i t core func args v effect :=
  k.servesThen row (run.trans h)

/-! What the functions answer, in a state that accepts their arguments. -/

/-- In RUN no image is awaited. -/
theorem State.not_awaitImage {s : State} (h : s.engineState = 4) : s.board.boot ≠ .awaitImage := by
  intro hb
  rw [State.engineState, hb] at h
  exact absurd h (show 2 ≠ 4 by decide)

section
variable {u : State} {core : Fin 4}

/-! CLOCK_PLAN, CLOCK_SYNC and SLEW (R261, R266, R281, R411). -/

section
variable {a : Nat} {p : BitVec 128} (hp : structAt 128 (u.sramAt a 16) 0 = p) (ha : inSram a 16 = true) (he : u.engineState = 4)
  (free : u.planConflict = none) (hv : planValid p = true)
include hp ha he free hv

theorem scClockPlan_takes (drives : planKey p ≠ planKey u.clock.plan → u.clock.drive ≠ .fallback) :
    scClockPlan u a = ((u.takePlan p).1, .ofRan [] (u.takePlan p).2) := by
  subst hp
  refine (if_neg (by simp [ha])).trans ((if_neg (not_not_intro he)).trans ?_)
  rw [free]
  exact (if_neg (by simpa using drives)).trans (if_neg (by simp [hv]))

theorem scClockPlan_same (key : planKey p = planKey u.clock.plan) :
    scClockPlan u a = (u.onClock fun c => { c with plan := p, fbStandby := c.fbStandby && planFallback p && planInteger p }, .ok) := by
  rw [scClockPlan_takes hp ha he free hv fun h => absurd key h, State.takePlan, if_pos (.inr (not_not_intro key))]
  refine congrArg (·, Served.ok) ?_
  by_cases keeps : planFallback p = true ∧ planInteger p = true
  · rw [if_pos keeps]
    simp only [keeps, Bool.and_true]
  · have falls (standby : Bool) : (standby && planFallback p && planInteger p) = false := by
      rw [Bool.and_assoc, Bool.eq_false_iff.mpr (mt Bool.and_eq_true_iff.mp keeps), Bool.and_false]
    rw [if_neg keeps]
    simp only [falls]
    rfl

theorem scClockPlan_hops (key : planKey p ≠ planKey u.clock.plan) (main : u.clock.drive = .main) :
    scClockPlan u a = ((u.onClock fun c => { c with
      plan := p, refJudged := false, refPresent := false, fbStandby := false, hop := some u.now, windows := true, goodWindows := 0, loop := .coasting }).dropSnap,
      .waits .planHop) := by
  have stays : ¬ (u.board.boot = .awaitImage ∨ ¬ planKey p ≠ planKey u.clock.plan) :=
    not_or.mpr ⟨State.not_awaitImage he, not_not_intro key⟩
  have driven : ¬ u.clock.drive = .stopped := by simp [main]
  rw [scClockPlan_takes hp ha he free hv fun _ => by simp [main], State.takePlan, if_neg stays, if_neg driven]
  rfl

end

theorem scClockSync_arms {tick timeout : Nat} (sync : u.clock.sync = none) (slew : u.clock.slew = none) (he : u.engineState = 4)
    (seq : u.stim.enabled = false) (aligned : tick % 128 = 0) (some_ : 1 ≤ timeout) (short : timeout ≤ 65535)
    (int : planInteger u.clock.plan = true) (src : planSource u.clock.plan = 1) :
    scClockSync u core tick timeout =
      (u.onClock fun c => { c with sync := some (SyncWait.mk tick timeout u.now (u.servingTicket core) 0) }, .ok) := by
  have conflict : u.planConflict = none := by simp [State.planConflict, sync, slew, seq]
  have refusal : syncRefusal u tick timeout = none := by simp [syncRefusal, firstOf, aligned, int, src, Nat.one_le_iff_ne_zero.mp some_]
  refine (if_neg (by simp [sync, slew])).trans ((if_neg (not_not_intro he)).trans ?_)
  rw [conflict, refusal]
  exact if_neg (Nat.not_lt.mpr short)

/-- SLEW loads time and starts a slew, if any, where neither a slew, a group nor the sequencer is in the way. -/
theorem scSlew_takes {ticks fs : Nat} {load amount : Int} (hl : signed 64 ticks = load) (ha : signed 64 fs = amount) (free : u.clock.slew = none)
    (still : load = 0 ∨ u.groups.any Group.live = false ∧ u.stim.enabled = false) (limit : amount.natAbs ≤ 50000) :
    scSlew u core ticks fs =
      let align := (u.serving core).map Entry.opcode = some 0x0B04
      let v := if align then (u.load load).onGrove fun g => { g with aligned := true } else u.load load
      (if amount = 0 then v else v.startSlew (if align then .align else .trim) amount (u.servingTicket core) 0, .ok) := by
  subst hl ha
  have groups : ¬ (signed 64 ticks ≠ 0 && u.groups.any Group.live) = true := by
    obtain still | still := still <;> simp [still]
  have seq : ¬ (signed 64 ticks ≠ 0 && u.stim.enabled) = true := by
    obtain still | still := still <;> simp [still]
  refine (if_neg (by simp [free])).trans ((if_neg groups).trans ((if_neg seq).trans ((if_neg (Nat.not_lt.mpr limit)).trans ?_)))
  simp only [decide_eq_true_eq]

/-! MEM_CLOCK (R190, R411). -/

section
variable {rate : Nat} (hq : u.mem.clock.queued = none) (he : u.engineState = 3 ∨ u.engineState = 4) (seq : u.stim.enabled = false) (h3 : rate ≤ 3)
include hq he seq h3

theorem scMemClock_runs {r : State × Ran} (run : u.memClock rate 0 = r) : scMemClock u rate = match r.2 with
    | .done x => (r.1, .ok [if x.status = 1 then 1 else 0])
    | .held k => (r.1, .waits k) := by
  subst run
  have open_ : ¬ (u.engineState ≠ 3 && u.engineState ≠ 4) = true := by
    obtain he | he := he <;> simp [he]
  exact (if_neg (by simp [hq])).trans ((if_neg open_).trans ((if_neg (by simp [seq])).trans (if_neg (Nat.not_lt.mpr h3))))

end

/-! QUAD_POWER (R35, R366, R411). -/

/-- The payload of QUAD_POWER that the call makes selects its quad and brings its word. -/
theorem quadPower_payload (q : Fin 4) {m : Nat} (hm : m < 2) :
    selIndex (leBytes 4 q.val ++ leBytes 4 m) = q.val ∧ word (leBytes 4 q.val ++ leBytes 4 m) 1 = m := by
  have hq : (BitVec.ofNat 32 q.val).toNat = q.val := Nat.mod_eq_of_lt (by omega)
  have hm : (BitVec.ofNat 32 m).toNat = m := Nat.mod_eq_of_lt (by omega)
  have index := selIndex_here (BitVec.ofNat 32 q.val) (leBytes 4 m) (by omega)
  have second := word_second (BitVec.ofNat 32 q.val) (BitVec.ofNat 32 m)
  rw [hq] at index second
  rw [hm] at second
  exact ⟨index, second⟩

/-- The header under which QUAD_POWER is executed for a core: the ticket of the command that the core serves (R413). -/
def State.servingHdr (u : State) (core : Fin 4) : Hdr :=
  { tick := u.now, path := .pcie, flags := 0, ticket := BitVec.ofNat 16 (u.servingTicket core), dest := 0, source := 0, reserved := 0 }

/-- QUAD_POWER acts as the command of its name, where that finds nothing against it. -/
theorem scQuadPower_runs {q : Fin 4} {on : Nat} (hon : on < 2) (busy : (cardQuadPower (leBytes 4 q.val ++ leBytes 4 on)).busy u = none)
    (checks : (cardQuadPower (leBytes 4 q.val ++ leBytes 4 on)).checks u = none) :
    scQuadPower u core q.val on = (((cardQuadPower (leBytes 4 q.val ++ leBytes 4 on)).run (u.servingHdr core) u).1, .ok) := by
  have within : ¬ (decide (3 < q.val) || decide (1 < on)) = true := by
    simp only [Bool.or_eq_true, decide_eq_true_eq]
    omega
  refine (if_neg within).trans ?_
  dsimp only
  rw [busy, checks]
  rfl

/-- QUAD_POWER leaves alone what its command does. -/
theorem scQuadPower_changes (u : State) (core : Fin 4) (quad on : Nat) :
    Frame [.inputs, .quads, .banks, .units, .tagged, .evaluated] u (scQuadPower u core quad on).1 := by
  unfold scQuadPower
  split
  · exact Frame.refl _ u
  · dsimp only
    split
    · exact Frame.refl _ u
    · exact cardQuadPower_frame _ _ u

theorem scQuadPower_on {q : Fin 4} {quad on : Nat} (hq : quad = q.val) (h1 : on = 1) (calm : (u.quads.get q).state.busy = false) (off : (u.quads.get q).state = .off) :
    scQuadPower u core quad on =
      (u.onQuad q fun k => { k with state := .powering, since := u.now, ticket := (BitVec.ofNat 16 (u.servingTicket core)).toNat }, .ok) := by
  subst hq h1
  obtain ⟨hi, hm⟩ := quadPower_payload q (m := 1) (by decide)
  rw [scQuadPower_runs (by decide) (cardQuadPower_busy_none hi hm (.inl calm)) (cardQuadPower_checks_none hi hm (.inl rfl)), cardQuadPower_run hi hm,
    if_neg (by decide), if_pos off]
  rfl

theorem scQuadPower_off {q : Fin 4} {quad on : Nat} (hq : quad = q.val) (h0 : on = 0) (calm : (u.quads.get q).state.busy = false) (powered : (u.quads.get q).state ≠ .off)
    (free : u.quadInUse q (u.quads.get q).fusion = false) :
    scQuadPower u core quad on = ((u.quiesce q).onQuad q fun k => { k with state := .off, since := u.now }, .ok) := by
  subst hq h0
  obtain ⟨hi, hm⟩ := quadPower_payload q (m := 0) (by decide)
  rw [scQuadPower_runs (by decide) (cardQuadPower_busy_none hi hm (.inl calm)) (cardQuadPower_checks_none hi hm (.inr (.inr free))),
    cardQuadPower_run hi hm, if_pos rfl, if_neg powered]

/-! CAL_OPEN, CAL_SWITCH and CAL_CLOSE (R411, R412). -/

theorem scCalOpen_opens {mask : Nat} (run : u.cal.run = none) (svc : u.cal.svc = none) (locked : u.clock.loop = .locked)
    (src : planSource u.clock.plan = 1) (h1 : 1 ≤ mask) (h15 : mask ≤ 15) :
    scCalOpen u mask = ((u.onCal fun c => { c with svc := some mask }).each four fun v q => v.onQuad q fun k => { k with outTicks := 0 }, .ok) := by
  have ref : u.refinLocked = true := by simp [State.refinLocked, locked, src]
  have within : ¬ (decide (mask = 0) || decide (15 < mask)) = true := by
    simp only [Bool.or_eq_true, decide_eq_true_eq]
    omega
  exact (if_neg (by simp [run, svc])).trans ((if_neg (by simp [ref])).trans (if_neg within))

section
variable {q : Fin 4} {mask : Nat} (svc : u.cal.svc = some mask) (mine : bit mask q.val = true)
include svc mine

/-- In the open run a quad of its mask switches, outside CONNECT within the run's 120 ms. -/
theorem scCalSwitch_switches {quad position : Nat} (hq : quad = q.val) (hp : position ≤ 2) (time : position = 0 ∨ u.outFor q < 2400000000) :
    scCalSwitch u quad position =
      let dest := if position = 1 then Switch3.isolate else .source
      (if position = 0 then u.returnSwitch q 40000000
       else if (u.quads.get q).switch = .connect then u.leaveConnect q dest
       else u.onQuad q fun k => { k with switch := dest }, .ok) := by
  subst hq
  have hq : Fin.ofNat 4 q.val = q := Fin.ofNat_val_eq_self q
  have within : ¬ (decide (3 < q.val) || decide (2 < position) || !bit mask q.val || (decide (position ≠ 0) && decide (120 * ms ≤ u.outFor q))) = true := by
    have limit : 120 * ms = 2400000000 := rfl
    simp only [Bool.or_eq_true, Bool.and_eq_true, decide_eq_true_eq, mine, Bool.not_true, Bool.false_eq_true, or_false]
    omega
  rw [scCalSwitch, svc]
  dsimp only
  rw [hq]
  exact if_neg within

end

theorem scCalClose_closes (svc : u.cal.svc.isSome = true) : scCalClose u = ((u.onCal fun c => { c with svc := none }).returnAll, .ok) :=
  if_neg (by simpa using Option.isSome_iff_ne_none.mp svc)

/-! GROVE_IDENTITY (R413). -/

theorem scGroveIdentity_promotes {epoch : Nat} (mine : u.grove.role = .orphanRoot) (he : epoch = (u.grove.epoch + 1) % 2 ^ 32) (devaddr bound : Nat) :
    scGroveIdentity u core devaddr 0 epoch bound = (u.promote, .ok) :=
  if_pos (by simp [mine, he])

theorem scGroveIdentity_demotes (mine : u.grove.role = .manager ∨ u.grove.role.orphan = true) (devaddr bound : Nat) :
    scGroveIdentity u core devaddr 3 0 bound = (u.demote, .ok) := by
  rw [scGroveIdentity, if_neg (by simp), if_pos (by simpa using mine)]

theorem scGroveIdentity_assigns {e : Entry} (serves : u.serving core = some e) {devaddr epoch bound : Nat} (h1 : 1 ≤ devaddr) (h2 : devaddr < 2 ^ 16)
    (he : epoch < 2 ^ 32) (hb : bound < 2 ^ 32) (op : e.opcode = 0x0B01) (assigns : probeAssign e.payload = true) :
    scGroveIdentity u core devaddr 1 epoch bound =
      (u.assign (leBytes 4 (probePath e.payload) ++ leBytes 2 devaddr ++ [1, 0] ++ leBytes 4 epoch ++ leBytes 4 bound) e.hdr.source.toNat, .ok) := by
  have within : (decide (1 = 1) && decide (devaddr ≠ 0) && decide (devaddr < 2 ^ 16) && decide (epoch < 2 ^ 32) && decide (bound < 2 ^ 32) &&
      decide (e.opcode = 0x0B01) && probeAssign e.payload) = true := by
    simp only [Bool.and_eq_true, decide_eq_true_eq]
    exact ⟨⟨⟨⟨⟨⟨trivial, Nat.one_le_iff_ne_zero.mp h1⟩, h2⟩, he⟩, hb⟩, op⟩, assigns⟩
  rw [scGroveIdentity, if_neg (by simp), if_neg (by simp), serves]
  exact if_pos within

/-! WDT_CONFIG, READY, SUBMIT, FAULT and KEYS (R334, R359, R411, R414, R473, R483). -/

theorem scWdtConfig_sets {period park : Nat} (h10 : 10 ≤ period) (h1000 : period ≤ 1000) (hp : park < 15) :
    scWdtConfig u period park =
      (u.onFw fun w => { w with wdtPeriod := period, cores := Vector.ofFn fun i : Fin 4 =>
        { w.cores.get i with
          parked := bit park i.val, kicked := if (w.cores.get i).parked = true ∧ bit park i.val = false then u.now else (w.cores.get i).kicked } }, .ok) := by
  have within : ¬ (decide (period < 10) || decide (1000 < period) || decide (15 ≤ park)) = true := by
    simp only [Bool.or_eq_true, decide_eq_true_eq]
    omega
  refine (if_neg within).trans ?_
  simp only [Bool.and_eq_true, Bool.not_eq_true']

/-- What a vector made of a function holds at a place. -/
theorem get_vectorOfFn {α : Type} {n : Nat} (f : Fin n → α) (i : Fin n) : (Vector.ofFn f).get i = f i := Vector.getElem_ofFn i.isLt

/-- WDT_CONFIG leaves alone what waits, and each core's submission with it. -/
theorem scWdtConfig_waitsAs (u : State) (period park : Nat) : u.waitsAs (scWdtConfig u period park).1 := by
  unfold scWdtConfig
  split
  · exact State.waitsAs_refl u
  · refine ⟨fun _ => rfl, rfl, rfl, rfl, fun c => ?_⟩
    dsimp only [State.onFw]
    rw [get_vectorOfFn]

theorem scReady_init (hb : u.board.boot = .init) (ready : u.readyOk = true) : scReady u = (u.becomeReady, .ok) := (if_pos hb).trans (if_pos ready)

theorem scReady_restart (hb : u.board.boot = .run) (started : u.fw.restart.any Restart.started = true) :
    scReady u = (u.onFw fun w => { w with restart := none }, .ok) := (if_neg (by simp [hb])).trans (if_pos started)

theorem scSubmit_takes {packet length buffer size : Nat} (hp : inSram packet length = true) (hb : inSram buffer size = true)
    (room : (u.path .mailbox).queue.length < 256) :
    scSubmit u core packet length buffer size =
      let b := u.sramAt packet length
      ((u.onCore core fun k => { k with submit := some (buffer, size, leAt b 4 2) }).receiveBytes .mailbox b 0 0, .submits) :=
  (if_neg (by simp [hp, hb])).trans (if_neg (Nat.not_le.mpr room))

theorem scFault_fatal {reason : Nat} (known : ∃ r ∈ reasonCodes, r.1 ≤ reason ∧ reason ≤ r.2) :
    scFault u reason = (u.fatal reason 0xF (call := true), .gone) := by
  obtain ⟨r, hr, low, high⟩ := known
  exact if_pos (List.any_eq_true.mpr ⟨r, hr, by simp [low, high]⟩)

theorem scKeys_tells : scKeys u = (u, .ok [(if u.fw.ownerKey.isSome then 1 else 0) + (if u.fw.ownerImage then 2 else 0)]) := rfl

end

/-- A 64-bit number read as the signed number that it is. -/
theorem signed_toNat (x : BitVec 64) : signed 64 x.toNat = x.toInt := by
  unfold signed
  rw [BitVec.toInt_eq_toNat_cond, Nat.mod_eq_of_lt x.isLt]
  refine ite_congr (propext ?_) (fun _ => rfl) fun _ => rfl
  omega

/-- Settles O16: what each function answers, where the call accepts its arguments. -/
theorem serviceCallsTakeEffect : Obligations.ServiceCallsTakeEffect := by
  intro s t core k
  refine ⟨?plan, ?sync, ?slew, ?clock, ?power, ?opens, ?switch, ?close, ?identity, ?watchdog, ?ready, ?again, ?submit, ?restart, ?fault, ?keys⟩
  case plan =>
    intro addr p ha he free hv
    have same := scClockPlan_same (u := s.called t core 1 [addr.toNat]) rfl ha he free hv
    have hops := scClockPlan_hops (u := s.called t core 1 [addr.toNat]) rfl ha he free hv
    exact ⟨fun key => k.answers rfl (same key) (scClockPlan_frame _ _) rfl, fun key main => k.answers rfl (hops key main) (scClockPlan_frame _ _) rfl⟩
  case sync =>
    intro tick timeout sync slew he seq aligned first last int src
    exact k.answers rfl (scClockSync_arms (u := s.called t core 2 _) sync slew he seq aligned first last int src) (scClockSync_frame _ _ _ _) rfl
  case slew =>
    intro ticks fs free still limit align
    have still : ticks.toInt = 0 ∨ s.groups.any Group.live = false ∧ s.stim.enabled = false := still.imp_left fun h => by rw [h]; rfl
    refine k.answers rfl ((scSlew_takes (u := s.called t core 3 _) (signed_toNat ticks) (signed_toNat fs) free still limit).trans ?_)
      (scSlew_frame _ _ _ _) rfl
    exact congrArg (·, Served.ok) (ite_congr (propext (BitVec.toInt_inj (y := 0#64))) (fun _ => rfl) fun _ => rfl)
  case clock =>
    intro rate hq he seq h3
    have answers {r : State × Ran} := scMemClock_runs (u := s.called t core 4 [rate.toNat]) (r := r) hq he seq h3
    exact ⟨fun idle hr => k.answers rfl (answers (State.memClock_same 0 idle hr)) (scMemClock_frame _ _) rfl,
      fun idle hr => k.answers rfl (answers (State.memClock_starts 0 idle hr)) (scMemClock_frame _ _) rfl,
      fun works hr => k.answers rfl (answers (State.memClock_queues 0 works hr)) (scMemClock_frame _ _) rfl⟩
  case power =>
    intro quad on q hq calm
    refine ⟨?_, ?_⟩
    · rintro rfl off
      exact k.answers rfl (scQuadPower_on (u := s.called t core 5 _) hq rfl calm off) (scQuadPower_changes _ _ _ _) rfl
    · rintro rfl powered free
      exact k.answers rfl (scQuadPower_off (u := s.called t core 5 _) hq rfl calm powered free) (scQuadPower_changes _ _ _ _) rfl
  case opens =>
    intro mask run svc locked src h1 h15
    exact k.answers rfl (scCalOpen_opens (u := s.called t core 6 _) run svc locked src h1 h15) (scCalOpen_frame _ _) rfl
  case switch =>
    intro quad position q mask hq svc mine
    have switches {position : Nat} := scCalSwitch_switches (u := s.called t core 7 [quad.toNat, position]) (position := position) svc mine hq
    refine ⟨?_, ?_⟩
    · rintro rfl
      exact k.answers rfl (switches (by decide) (.inl rfl)) (scCalSwitch_frame _ _ _) rfl
    · rintro (rfl | rfl) time
      · exact k.answers rfl (switches (position := 1) (by decide) (.inr time)) (scCalSwitch_frame _ _ _) rfl
      · exact k.answers rfl (switches (position := 2) (by decide) (.inr time)) (scCalSwitch_frame _ _ _) rfl
  case close =>
    intro svc
    exact k.answers rfl (scCalClose_closes (u := s.called t core 8 _) svc) (scCalClose_frame _) rfl
  case identity =>
    intro devaddr role epoch bound args
    refine ⟨?_, ?_, ?_⟩
    · rintro rfl mine he
      exact k.answersThen rfl (scGroveIdentity_promotes (u := s.called t core 9 _) mine he _ _)
    · rintro rfl rfl mine
      exact k.answersThen rfl (scGroveIdentity_demotes (u := s.called t core 9 _) mine _ _)
    · rintro e serves rfl h1 h2 he hb op assigns
      exact k.answersThen rfl (scGroveIdentity_assigns (u := s.called t core 9 _) serves h1 h2 he hb op assigns)
  case watchdog =>
    intro period park h10 h1000 hp
    let u := s.called t core 0x0A [period.toNat, park.toNat]
    have sets := scWdtConfig_sets (u := u) h10 h1000 hp
    have waits := scWdtConfig_waitsAs u period.toNat park.toNat
    have run : u.serveFunc core 0x0A = scWdtConfig u period.toNat park.toNat := by
      simp only [u, State.serveFunc, State.called_window] <;> rfl
    rw [sets] at run waits
    exact k.serves rfl run waits
  case ready => exact fun hb ready => k.answersThen rfl (scReady_init (u := s.called t core 0x0B _) hb ready)
  case again => exact fun hb started => k.answersThen rfl (scReady_restart (u := s.called t core 0x0B _) hb started)
  case submit => exact fun packet length buffer size hp hb room => k.answersThen rfl (scSubmit_takes (u := s.called t core 0x0C _) hp hb room)
  case restart => exact fun pc => k.answersThen rfl rfl
  case fault => exact fun reason known => k.answersThen rfl (scFault_fatal (u := s.called t core 0x0E _) known)
  case keys => exact k.answers rfl (scKeys_tells (u := s.called t core 0x0F _)) (scKeys_frame _) rfl

end Sys2Proof.Machine
end

section
/-!
The rows of the board, the register window and the firmware: what each leaves alone (R218, R411, R414, R460, R462, R509, R512).
-/
namespace Sys2Proof.Machine
open Sys2Proof.Laws

/-- Settles O40: each row's own frame, in the order of the rows. -/
theorem boardAndFirmwareRowsLeaveTheRest : Obligations.BoardAndFirmwareRowsLeaveTheRest := fun s t =>
  -- Power, reset and start-up.
  ⟨(execPwrOkRise_changes t · s), execPwrOkFall_changes t s, execPerstNAssert_changes t s, execPerstNRelease_changes t s,
    (execSelftestDone_changes t · s), execLockTimeout_changes t s, (execQuadStartTimeout_changes t · s), execSelfCalStart_changes t s,
    (execSelfCalPhaseEnd_changes t · s), execReadyCallTimeout_changes t s,
    -- SMBus.
    execSmbIdent_changes t s, execSmbEngine_changes t s, execSmbBoot_changes t s, execSmbPins_changes t s, execSmbTemps_changes t s,
    execSmbUniqueId_changes t s, execSmbEvents_changes t s, execSmbWriteReject_changes t s, execSmbAlertResponse_changes t s,
    execSmbusTimeout_changes t s,
    -- The test port.
    execTapReset_changes t s, (execExtest_changes t · s), execIdcode_changes t s, (execSamplePreload_changes t · s), execClamp_changes t s,
    execHighz_changes t s, (execExtestPulse_changes t · s), (execExtestTrain_changes t · s), execBypass_changes t s,
    -- The image, packets and notices.
    (execImageAuthDone_changes t · s), (execCommandReceive_changes t · · · s), (execInterimNotice_changes t · · s),
    -- The register window.
    (execCmdTailDoorbell_changes t · s), (execBootDoorbell_changes t · s), (execDescTailDoorbell_changes t · · s),
    (execCplHeadDoorbell_changes t · · s), (execLowHalfRead_changes t · · s), (execHighHalfRead_changes t · · s),
    (execAtomic64Read_changes t · · s), (execRcFieldRead_changes t · · s), (execHalfOrderClear_changes t · · s),
    (execMonCtrlConvert_changes t · · s),
    -- The firmware's own registers, its faults and its restart.
    (execTake_changes t · s), (execPost_changes t · · s), (execEventPost_changes t · · s), (execWdtKick_changes t · s),
    (execWatchdogExpiry_changes t · · s), (execFirewallFault_changes t · · · s), (execDoubleTrap_changes t · · s),
    (execRestartVerifyDone_changes t · s), execSapwoodReadyTimeout_changes t s⟩

end Sys2Proof.Machine
end

section
/-!
The rows of calibration, of the stimulus sequencer and of the monitor: what each leaves alone (R229, R234, R240, R244, R294, R299, R300, R306, R316).
-/
namespace Sys2Proof.Machine
open Sys2Proof.Laws

/-- Settles O38: each row's own frame, in the order of the rows. -/
theorem calibrationStimulusMonitorRowsLeaveTheRest : Obligations.CalibrationStimulusMonitorRowsLeaveTheRest := fun s t =>
  -- A foreground run: its drain, its phases, its stops and its results.
  ⟨execCalDrainDone_changes t s, execCalDrainTimeout_changes t s, (execCalLeakageEnd_changes t · · s), (execCalIsolateEnd_changes t · s),
    (execCalSourceSettled_changes t · s), (execCalRefTransferEnd_changes t · · s), (execCalRunAEnd_changes t · s), (execCalRunBEnd_changes t · · s),
    (execCalCompareEnd_changes t · · s), (execCalRestoreEnd_changes t · s), (execCalStopDone_changes t · s), (execCalHeldWordsEnd_changes t · s),
    execCalResultsFormed_changes t s,
    -- Switches and changeovers.
    (execHeldTriggerResume_changes t · s), (execSwitchTimeout_changes t · s), (execChangeover_changes t · s), (execGatherReopen_changes t · s),
    (execBgGatherDue_changes t · s), (execQuadTempReading_changes t · · s),
    -- The stimulus sequencer.
    (execStimStartInstant_changes t · s), (execStimDecisionPoint_changes t · s), (execStimBoundary_changes t · s),
    (execStimEntryEffect_changes t · · s), (execStimStopRampStart_changes t · s), (execStimStopRampEnd_changes t · s),
    (execStimMuteRampEnd_changes t · s), execSegmentReadbackDone_changes t s,
    -- The monitor.
    (execMonConversion_changes t · · · s), execMonRefSettled_changes t s, (execRailFault_changes t · s)⟩

end Sys2Proof.Machine
end

section
/-!
The events of a calibration run (R228 to R235): its drain, the phases of the quad now run, its stops, and its results.
-/
namespace Sys2Proof.Machine

/-- The run, once it has stood in a phase of the quad for the time asked for. -/
theorem State.runIn_due {s : State} {q : Fin 4} {r : CalRun} {p : CalPhase} {start after : Nat} (run : s.cal.run = some r)
    (phase : r.cur = some (q.val, p, start)) (due : start + after ≤ s.now) : s.runIn q p after = some (r, start) := by
  simp [State.runIn, run, phase, due]

/-- A row of a phase of the quad's run does what it does to the run in that phase, once its time has come. -/
theorem State.turnsInPhase {s : State} {i : Instr} {t : Nat} {q : Fin 4} {p : CalPhase} {after : Nat} {f : CalRun → Nat → State} {g : State → State}
    (row : exec i s = .next (match (s.advance t).runIn q p after with
      | none => s.advance t
      | some (r, start) => f r start))
    {r : CalRun} {start : Nat} (run : s.cal.run = some r) (phase : r.cur = some (q.val, p, start)) (due : start + after ≤ max s.now t)
    (effect : f r start = g (s.advance t)) : s.Turns i t g := by
  rw [State.Turns, row, State.runIn_due (s := s.advance t) run phase due, ← effect]

/-- An input that the fusion mode connects carries more than −20 dBFS (R230). -/
def State.hearsInput (s : State) (q : Fin 4) (squares : List Nat) : Bool :=
  (ofQuad q).zipIdx.any fun (i, j) => feeds (s.quads.get q).fusion i ≠ [] && loud (squares.getD j 0)

/-- A held interval that is over by a tick does not last beyond it. -/
theorem held_over {held : Option (Nat × Option Nat)} {n : Nat} (past : (held.all fun (_, e) => e.any (· ≤ n)) = true) :
    (held.any fun (_, e) => e.all (n < ·)) = false := by
  match held with
  | none => rfl
  | some (_, none) => exact Bool.noConfusion past
  | some (_, some e) =>
    have past : decide (e ≤ n) = true := past
    show decide (n < e) = false
    simpa using past

/-- A drain that began some ticks ago has lasted as long. -/
theorem drain_due {drain : Option Nat} {x d n : Nat} (drains : drain = some x) (due : x + d ≤ n) : drain.any (· + d ≤ n) = true := by
  rw [drains]
  exact decide_eq_true due

/-! Operands of a shape no wire can show. -/

theorem calLeakageEnd_illFormed {s : State} {t : Nat} {q : Fin 4} {squares : List Nat} (size : squares.length ≠ 4) :
    exec (.calLeakageEnd t q squares) s = .refused .illFormed := if_pos size

theorem calCompareEnd_illFormed {s : State} {t : Nat} {q : Fin 4} {point : Bytes} (size : point.length ≠ pointBytes) :
    exec (.calCompareEnd t q point) s = .refused .illFormed := if_pos size

section
variable {s : State} {t : Nat} {q : Fin 4} {r : CalRun} {start : Nat} (run : s.cal.run = some r)
include run

/-! The drain (R228). -/

theorem calDrainDone_turns {x : Nat} (drains : r.drain = some x) (runs : r.ended = none) (drained : s.draining r.mask = false) :
    s.Turns (.calDrainDone t) t fun v => (v.onCal fun c => { c with run := some { r with drain := none } }).nextQuad := by
  have run : (s.advance t).cal.run = some r := run
  have drained : (s.advance t).draining r.mask = false := drained
  show execCalDrainDone t s = _
  simp [execCalDrainDone, run, drained, drains, runs]

theorem calDrainTimeout_turns {x : Nat} (drains : r.drain = some x) (runs : r.ended = none) (lasts : s.draining r.mask = true)
    (due : x + 100 * ms ≤ max s.now t) : s.Turns (.calDrainTimeout t) t fun v => v.endDrain r := by
  have run : (s.advance t).cal.run = some r := run
  have due : (r.ended.isNone && r.drain.any (· + 100 * ms ≤ (s.advance t).now) && (s.advance t).draining r.mask) = true := by
    rw [runs, drain_due (n := (s.advance t).now) drains due]
    exact lasts
  show execCalDrainTimeout t s = _
  simp only [execCalDrainTimeout, run]
  rw [if_pos due]

/-! LEAKAGE (R229, R230). -/

section
variable (phase : r.cur = some (q.val, .leakage, start)) (due : start + ms ≤ max s.now t) {squares : List Nat} (size : squares.length = 4)
include phase due size

theorem calLeakageEnd_turns {f : State → State}
    (ends : (if s.hearsInput q squares && !r.proceed then ((s.advance t).onCal fun c => { c with run := some (r.outcome q.val 0x0803) }).nextQuad
      else ((s.advance t).leaveConnect q .isolate).runTo { r with leaky := if s.hearsInput q squares then r.leaky ||| 2 ^ q.val else r.leaky } q .isolating start) =
        f (s.advance t)) : s.Turns (.calLeakageEnd t q squares) t f := by
  have due := State.runIn_due (s := s.advance t) run phase due
  refine (if_neg (Decidable.not_not.mpr size)).trans (congrArg Host.Outcome.next (Eq.trans ?_ ends))
  rw [State.leakageEnds, due]
  rfl

/-- An active input ends the quad with CAL_INPUT_ACTIVE (0x0803) where the run may not proceed. -/
theorem calLeakageEnd_fails (active : s.hearsInput q squares = true) (stops : r.proceed = false) :
    s.Turns (.calLeakageEnd t q squares) t fun v => (v.onCal fun c => { c with run := some (r.outcome q.val 0x0803) }).nextQuad :=
  calLeakageEnd_turns run phase due size (if_pos (by rw [active, stops]; rfl))

/-- Where it may, the quad goes to ISOLATE and its point will be LEAKY. -/
theorem calLeakageEnd_proceeds (active : s.hearsInput q squares = true) (proceeds : r.proceed = true) :
    s.Turns (.calLeakageEnd t q squares) t fun v =>
      (v.leaveConnect q .isolate).runTo { r with leaky := r.leaky ||| 2 ^ q.val } q .isolating start :=
  calLeakageEnd_turns run phase due size (by rw [active, proceeds]; rfl)

theorem calLeakageEnd_quiet (quiet : s.hearsInput q squares = false) :
    s.Turns (.calLeakageEnd t q squares) t fun v => (v.leaveConnect q .isolate).runTo r q .isolating start :=
  calLeakageEnd_turns run phase due size (by rw [quiet]; rfl)

end

/-! From ISOLATE to RUN_B (R229, R231, R232). -/

theorem calIsolateEnd_turns (phase : r.cur = some (q.val, .isolating, start)) (due : start + (ms + ms / 2) ≤ max s.now t) :
    s.Turns (.calIsolateEnd t q) t fun v => (v.onQuad q fun k => { k with switch := .source }).runTo r q .sourcing start :=
  State.turnsInPhase rfl run phase due rfl

theorem calSourceSettled_turns (phase : r.cur = some (q.val, .sourcing, start)) (due : start + 2 * ms ≤ max s.now t) :
    s.Turns (.calSourceSettled t q) t fun v => v.runTo r q .runA start :=
  State.turnsInPhase rfl run phase due rfl

/-- CALDC as measured, in nV, against the declared value: more than 2 % off stops the quad (R231, R234). -/
theorem calRefTransferEnd_turns (phase : r.cur = some (q.val, .runA, start)) {caldc : Int} (due : start + 7 * ms ≤ max s.now t) :
    let off := calDc s.cal.cfg ≠ 0 ∧ 1000 * calDc s.cal.cfg < 50 * (caldc - 1000 * calDc s.cal.cfg).natAbs
    (off → s.Turns (.calRefTransferEnd t q caldc) t fun v => v.runTo (r.outcome q.val 0x0804) q .stopping (max s.now t)) ∧
    (¬ off → s.Turns (.calRefTransferEnd t q caldc) t id) := by
  intro off
  have judged : caldcOff (calDc (s.advance t).cal.cfg) caldc = true ↔ off := by
    show (decide _ && decide _) = true ↔ _
    rw [Bool.and_eq_true, decide_eq_true_iff, decide_eq_true_iff]
    rfl
  exact ⟨fun h => State.turnsInPhase rfl run phase due (if_pos (judged.mpr h)), fun h => State.turnsInPhase rfl run phase due (if_neg (mt judged.mp h))⟩

theorem calRunAEnd_turns (phase : r.cur = some (q.val, .runA, start)) (due : start + 59 * ms ≤ max s.now t) :
    s.Turns (.calRunAEnd t q) t fun v => v.runTo r q .runB start :=
  State.turnsInPhase rfl run phase due rfl

theorem calRunBEnd_turns (phase : r.cur = some (q.val, .runB, start)) (due : start + 116 * ms ≤ max s.now t) (agree : Bool) :
    s.Turns (.calRunBEnd t q agree) t fun v => v.runTo (if agree then r else r.outcome q.val 0x0806) q .compare start :=
  State.turnsInPhase rfl run phase due rfl

/-! COMPARE and RESTORE (R229, R233, R235). -/

theorem calCompareEnd_turns (phase : r.cur = some (q.val, .compare, start)) (due : start + 118 * ms ≤ max s.now t) {point : Bytes}
    (size : point.length = pointBytes) {r' : CalRun}
    (kept : (if r.outcomes.getD q.val 0xFFFF ≠ 0xFFFF then r
      else if pointOk point then { r with points := r.points ++ [(q.val, point)] } else r.outcome q.val 0x0807) = r') :
    s.Turns (.calCompareEnd t q point) t fun v => (v.returnSwitch q (start + 120 * ms - v.now)).runTo r' q .restore start := by
  subst kept
  have due := State.runIn_due (s := s.advance t) run phase due
  refine (if_neg (Decidable.not_not.mpr size)).trans (congrArg Host.Outcome.next ?_)
  simp only [State.compareEnds, due]

theorem calRestoreEnd_turns (phase : r.cur = some (q.val, .restore, start)) (due : start + 120 * ms ≤ max s.now t) :
    s.Turns (.calRestoreEnd t q) t fun v =>
      (v.onCal fun c => { c with run := some (if r.outcomes.getD q.val 0xFFFF = 0xFFFF then r.outcome q.val 0 else r) }).nextQuad :=
  State.turnsInPhase rfl run phase due rfl

/-! Stops (R234) and results (R235). -/

theorem calStopDone_turns (phase : r.cur = some (q.val, .stopping, start)) (due : start ≤ max s.now t) :
    s.Turns (.calStopDone t q) t fun v =>
      let u := v.returnSwitch q (2 * ms)
      if (u.quads.get q).held.any fun (_, e) => e.all (u.now < ·) then u.runTo r q .stopHeld u.now else u.nextQuad :=
  State.turnsInPhase rfl run phase due rfl

theorem calHeldWordsEnd_turns (phase : r.cur = some (q.val, .stopHeld, start)) (due : start ≤ max s.now t)
    (past : ((s.quads.get q).held.all fun (_, e) => e.any (· ≤ max s.now t)) = true) : s.Turns (.calHeldWordsEnd t q) t State.nextQuad := by
  have due := State.runIn_due (s := s.advance t) (after := 0) run phase due
  show execCalHeldWordsEnd t q s = _
  simp only [execCalHeldWordsEnd, due]
  exact congrArg Host.Outcome.next (if_neg (ne_true_of_eq_false (held_over past)))

theorem calResultsFormed_turns {x : Nat} (ended : r.ended = some x) : s.TurnsThen (.calResultsFormed t) t fun v => v.formResults r := by
  have run : (s.advance t).cal.run = some r := run
  show execCalResultsFormed t s = _
  simp only [execCalResultsFormed, State.event, run, ended, Option.isSome_some, if_true]

end

/-- Settles O27: each row by what its operation does in the phase and at the time given. -/
theorem calibrationRunEventsTakeEffect : Obligations.CalibrationRunEventsTakeEffect := by
  intro s t q
  refine ⟨fun _ => calLeakageEnd_illFormed, fun _ => calCompareEnd_illFormed, fun r run => ?_⟩
  refine ⟨fun x drains runs => ⟨calDrainDone_turns run drains runs, calDrainTimeout_turns run drains runs⟩,
    fun start phase due squares size => ⟨calLeakageEnd_fails run phase due size, calLeakageEnd_proceeds run phase due size, calLeakageEnd_quiet run phase due size⟩,
    fun start => calIsolateEnd_turns run, fun start => calSourceSettled_turns run,
    fun start phase => ⟨fun caldc => calRefTransferEnd_turns run phase, calRunAEnd_turns run phase⟩,
    fun start agree phase due => calRunBEnd_turns run phase due agree, ?compare,
    fun start => calRestoreEnd_turns run, fun start => calStopDone_turns run, fun start => calHeldWordsEnd_turns run, fun x => calResultsFormed_turns run⟩
  case compare =>
    intro start point phase due size
    exact ⟨fun other => calCompareEnd_turns run phase due size (if_pos other),
      fun own ok => calCompareEnd_turns run phase due size ((if_neg (Decidable.not_not.mpr own)).trans (if_pos ok)),
      fun own bad => calCompareEnd_turns run phase due size ((if_neg (Decidable.not_not.mpr own)).trans (if_neg (ne_true_of_eq_false bad)))⟩

end Sys2Proof.Machine
end

section
/-!
Changeovers and what leads to them (R228, R234 to R244, R249, R412): gathers, temperatures, the time a switch may be out, held intervals, and groups that reopen.
-/
namespace Sys2Proof.Machine

theorem State.onQuad_congr {s : State} {q : Fin 4} {f g : Quad → Quad} (h : f (s.quads.get q) = g (s.quads.get q)) : s.onQuad q f = s.onQuad q g := by
  rw [State.onQuad, State.onQuad, vmod_congr _ _ _ _ h]

/-! Changeovers (R240, R241, R244), at a beat boundary once every event up to it is decided. -/

section
variable {s w : State} {t : Nat} {q : Fin 4} (decided : (s.advance t).decideTo (s.advance t).now = w) (beat : w.atBeat = true)
include decided beat

theorem changeover_turns {f : State → State} (enters : (if w.setReady then w.enterSet w.now else if w.bgReady q then w.enterBg q w.now else w) = f (s.advance t)) :
    s.Turns (.changeover t q) t f := by
  subst decided
  exact congrArg Host.Outcome.next ((if_neg (by rw [beat]; exact Bool.false_ne_true)).trans enters)

/-- A pending set that can enter goes before the quad's own change (R244). -/
theorem changeover_set (set : w.setReady = true) : s.Turns (.changeover t q) t fun _ => w.enterSet w.now :=
  changeover_turns decided beat (if_pos set)

theorem changeover_own (set : w.setReady = false) (own : w.bgReady q = true) : s.Turns (.changeover t q) t fun _ => w.enterBg q w.now :=
  changeover_turns decided beat ((if_neg (ne_true_of_eq_false set)).trans (if_pos own))

end

/-- The re-arm sample of a reopened group has reached capture (R228, R242). -/
theorem gatherReopen_turns {s w : State} {t : Nat} {g : Fin 4} {x : Nat} (decided : (s.advance t).decideTo (s.advance t).now = w)
    (reopens : (w.groups.get g).reopen = some x) (reached : x ≤ atCapture (w.groups.get g).f w.now) :
    s.Turns (.gatherReopen t g) t fun _ => w.onGroup g fun k => { k with closed := 0, reopen := none } := by
  have due : (w.groups.get g).reopen.any (· ≤ atCapture (w.groups.get g).f w.now) = true := by
    rw [reopens]
    exact decide_eq_true reached
  subst decided
  exact congrArg Host.Outcome.next (if_pos due)

section
variable {s : State} {t : Nat} {q : Fin 4}

/-- A background change that is due opens its gather (R242, R243). -/
theorem bgGatherDue_turns (gathers : bgGathers s.cal.cfg = true) (pends : (s.quads.get q).bgPending = true) (free : s.runHolds q = false)
    (due : (s.quads.get q).lastChangeover + bgPeriod s.cal.cfg * ms ≤ max s.now t) : s.Turns (.bgGatherDue t q) t fun u => u.openGather q := by
  have opens : (bgGathers s.cal.cfg && (s.quads.get q).bgPending && !s.runHolds q &&
      decide ((s.quads.get q).lastChangeover + bgPeriod s.cal.cfg * ms ≤ (s.advance t).now)) = true := by
    rw [gathers, pends, free, decide_eq_true (p := _ ≤ (s.advance t).now) due]
    rfl
  exact congrArg Host.Outcome.next (if_pos opens)

/-- A temperature is taken where the quad's control domains are powered, and its change is judged anew (R243, R249). -/
theorem quadTempReading_turns (powered : (s.quads.get q).control = true) (temp : Int) :
    s.Turns (.quadTempReading t q temp) t fun u => (u.onQuad q fun k => { k with temp := temp }).judgeBg q :=
  congrArg Host.Outcome.next (if_pos powered)

/-- A switch out of CONNECT for 125 ms returns, and the run is aborted (R234, R412). -/
theorem switchTimeout_turns (out : (s.quads.get q).switch ≠ .connect)
    (long : 125 * ms ≤ (s.quads.get q).outTicks + (max s.now t - (s.quads.get q).outSince)) :
    s.Turns (.switchTimeout t q) t fun u => (u.returnSwitch q (2 * ms)).abortRun := by
  have time : (s.advance t).outFor q = (s.quads.get q).outTicks + (max s.now t - (s.quads.get q).outSince) :=
    congrArg ((s.quads.get q).outTicks + ·) (if_neg out)
  have within : ¬ (decide ((s.quads.get q).switch = .connect) || decide ((s.advance t).outFor q < 125 * ms)) = true := by
    rw [time, decide_eq_false out, decide_eq_false (Nat.not_lt.mpr long)]
    exact Bool.false_ne_true
  exact congrArg Host.Outcome.next (if_neg within)

/-- 64 ticks after a held interval it is past (R238). -/
theorem heldTriggerResume_turns {a e : Nat} (held : (s.quads.get q).held = some (a, some e)) (due : e + 64 ≤ max s.now t) :
    s.Turns (.heldTriggerResume t q) t fun u => u.onQuad q fun k => { k with held := none, heldPast := k.heldPast ++ [(a, e)] } := by
  have held : ((s.advance t).quads.get q).held = some (a, some e) := held
  refine congrArg Host.Outcome.next (State.onQuad_congr ?_)
  simp only [held]
  exact if_pos due

end

/-- Settles O28: each row by what its operation does where its condition holds. -/
theorem changeoverEventsTakeEffect : Obligations.ChangeoverEventsTakeEffect := by
  intro s t q v w
  exact ⟨fun beat => ⟨changeover_set rfl beat, changeover_own rfl beat⟩, fun g x => gatherReopen_turns rfl, bgGatherDue_turns,
    fun temp powered => quadTempReading_turns powered temp, switchTimeout_turns, fun a e => heldTriggerResume_turns⟩

end Sys2Proof.Machine
end

section
/-!
The commands of the calibration family and of the monitor (R226, R227, R234, R250, R251, R315, R319, R376, R377, R380): what their cards find and do, and the
next state where nothing is found against them.
-/
namespace Sys2Proof.Machine
open Sys2Proof.Laws

theorem maskOf_none {n : Nat} {p : Nat → Bool} (h : ∀ i < n, p i = false) : maskOf n p = 0 := by
  have empty : (List.range n).filter p = [] := by simpa [List.filter_eq_nil_iff] using h
  rw [maskOf, empty]
  rfl

theorem lowest_none {n : Nat} {p : Nat → Bool} (h : ∀ i < n, p i = false) : lowest n p = none := by
  simpa [lowest, List.find?_eq_none] using h

/-- A field of four bits other than 0 has a bit set. -/
theorem four_any_bit {v : Nat} (h : bits v 0 4 ≠ 0) : ∃ q : Fin 4, bit v q.val = true := by
  refine Decidable.byContradiction fun unset => ?_
  have clear : ∀ i < 4, v.testBit i = false := fun i hi => by
    rw [← bit_testBit]
    exact Bool.eq_false_iff.mpr fun set => unset ⟨⟨i, hi⟩, set⟩
  refine h (Nat.eq_of_testBit_eq fun i => ?_)
  rw [bits, Nat.shiftRight_zero, Nat.testBit_mod_two_pow, Nat.zero_testBit]
  by_cases hi : i < 4
  · rw [clear i hi, Bool.and_false]
  · rw [decide_eq_false hi, Bool.false_and]

/-- Every quad, or group, is among the four. -/
theorem mem_four : ∀ q : Fin 4, q ∈ four := by decide

/-! What the cards find and do, for any payload that brings the words given. -/

section
variable {b : Bytes} {cfg : BitVec 64} (hc : structAt 64 b 0 = cfg)
include hc

theorem cardCalConfig_checks_none {s : State} (free : s.calBusy = false)
    (same : ∀ g : Fin 4, (s.groups.get g).live = true → flag cfg g.val = flag s.cal.cfg g.val)
    (declared : calDc cfg = 0 ∨ 400000 ≤ calDc cfg ∧ calDc cfg ≤ 600000) (period : 10 ≤ bgPeriod cfg) (entry : fld cfg 8 2 < 2) :
    (cardCalConfig b).checks s = none := by
  have hit : (maskOf 4 fun g => (vnat s.groups g).live && decide (flag cfg g ≠ flag s.cal.cfg g)) = 0 := maskOf_none fun i hi => by
    have same := same (Fin.ofNat 4 i)
    rw [show (Fin.ofNat 4 i).val = i from Nat.mod_eq_of_lt hi] at same
    cases live : (vnat s.groups i).live with
    | false => rfl
    | true => simp [same live]
  have range : (decide (calDc cfg ≠ 0) && (decide (calDc cfg < 400000) || decide (600000 < calDc cfg)) || decide (bgPeriod cfg < 10) ||
      decide (2 ≤ fld cfg 8 2)) = false := by
    rw [decide_eq_false (Nat.not_lt.mpr period), decide_eq_false (Nat.not_le.mpr entry), Bool.or_false, Bool.or_false]
    simp only [Bool.and_eq_false_iff, Bool.or_eq_false_iff, decide_eq_false_iff_not]
    omega
  simp only [cardCalConfig, firstOf, hc, free, hit, range, Bool.false_eq_true, if_false, ne_eq, not_true_eq_false, decide_false]

theorem cardCalConfig_run (h : Hdr) (s : State) : (cardCalConfig b).run h s = (s.onCal fun c => { c with cfg := cfg }, .done Reply.ok) := by
  simp only [cardCalConfig, doOk, hc]

end

section
variable {b : Bytes} {w : Nat} (hw : word b 0 = w)
include hw

theorem cardCalRun_checks_none {s : State} (named : bits w 0 4 ≠ 0)
    (ready : ∀ q : Fin 4, bit w q.val = true → (s.quads.get q).state = .ready ∧ ∀ k ∈ ofQuad q, (s.banks.get k).link.faulted = false)
    (locked : s.refinLocked = true) : (cardCalRun b).checks s = none := by
  have nonempty : (four.filter fun q => bit w q.val).isEmpty = false := by
    obtain ⟨q, hq⟩ := four_any_bit named
    rw [List.isEmpty_eq_false_iff_exists_mem]
    exact ⟨q, List.mem_filter.mpr ⟨mem_four q, hq⟩⟩
  have powered : (four.filter fun q => bit w q.val).any (fun q => decide ((s.quads.get q).state ≠ .ready)) = false := by
    simpa using fun q _ hq => (ready q hq).1
  have linked : (four.filter fun q => bit w q.val).any (fun q => (ofQuad q).any fun k => (s.banks.get k).link.faulted) = false := by
    simpa using fun q _ hq => (ready q hq).2
  simp only [cardCalRun, firstOf, hw, nonempty, powered, linked, locked, Bool.not_true, Bool.false_eq_true, if_false]

theorem cardCalRun_run (h : Hdr) (s : State) :
    (cardCalRun b).run h s = (s.startRun (bits w 0 4) (bit w 8) h.ticket.toNat, .done Reply.deferred) := by
  simp only [cardCalRun, hw]

end

theorem cardCalRun_busy_none {s : State} (free : s.cal.run = none) (b : Bytes) : (cardCalRun b).busy s = none := by
  simp [cardCalRun, firstOf, free]

section
variable {b : Bytes} {offset : Nat} {data : Bytes} (ho : word b 0 = offset) (hd : b.drop 4 = data)
include ho

theorem cardCalSetUpload_checks_none {s : State} (free : s.calBusy = false) (aligned : offset % 4 = 0) (within : offset + (b.length - 4) ≤ 131072) :
    (cardCalSetUpload b).checks s = none := by
  simp [cardCalSetUpload, firstOf, ho, free, aligned, within]

include hd

theorem cardCalSetUpload_run (h : Hdr) (s : State) :
    (cardCalSetUpload b).run h s = (s.onCal fun c => { c with staging := putSparse c.staging offset data }, .done Reply.ok) := by
  simp only [cardCalSetUpload, doOk, ho, hd]

end

theorem cardCalSetCommit_checks_none {s : State} (free : s.calBusy = false) (valid : setValid s.staged sinTable = true) (b : Bytes) :
    (cardCalSetCommit b).checks s = none := by
  simp only [cardCalSetCommit, firstOf, free, valid, Bool.not_true, Bool.false_eq_true, if_false]

/-- The set that CAL_SET_DOWNLOAD names: the active one (0) or the pending one (1). -/
def State.setNamed (s : State) (which : Nat) : Option Bytes := if which = 0 then s.cal.active else s.cal.pending

section
variable {b : Bytes} {which offset length : Nat} (hw : leAt b 0 1 = which) (ho : word b 1 = offset) (hl : word b 2 = length) {s : State} {set : Bytes}
  (hs : s.setNamed which = some set)
include hw ho hl hs

theorem cardCalSetDownload_checks_none (known : which ≤ 1) (aligned : offset % 4 = 0) (within : offset < set.length) (words : length % 4 = 0)
    (least : 4 ≤ length) (most : length ≤ 4032) : (cardCalSetDownload b).checks s = none := by
  unfold State.setNamed at hs
  simp [cardCalSetDownload, firstOf, hw, ho, hl, hs, known, aligned, within, words, least, most]

theorem cardCalSetDownload_run (h : Hdr) :
    (cardCalSetDownload b).run h s = (s, .done (Reply.ok (leBytes 4 set.length ++ padWords ((set.drop offset).take length)))) := by
  unfold State.setNamed at hs
  simp only [cardCalSetDownload, hw, ho, hl, hs, Option.getD_some]

end

theorem cardMonConfig_checks_none {b : Bytes} {cfg : BitVec 32} (hc : structAt 32 b 0 = cfg) {s : State} (known : monRef cfg ≠ 3)
    (free : monRef cfg = monRef s.mon.cfg ∨ ∀ n < 8, s.winReferenced n = false) : (cardMonConfig b).checks s = none := by
  obtain same | free := free
  · simp [cardMonConfig, orElse', firstOf, hc, ← same, known]
  · have unused : (lowest 8 fun n => winOn (vnat s.mon.windows n).cfg && decide (10 ≤ winChannel (vnat s.mon.windows n).cfg) && s.winReferenced n) = none :=
      lowest_none fun n hn => by rw [free n hn, Bool.and_false]
    simp [cardMonConfig, orElse', firstOf, hc, unused, known]

theorem cardMonConfig_run {b : Bytes} {cfg : BitVec 32} (hc : structAt 32 b 0 = cfg) (h : Hdr) (s : State) : (cardMonConfig b).run h s =
    (s.onMon fun m => if monRef cfg = monRef m.cfg then { m with cfg := cfg }
      else { m with cfg := cfg, settled := false, before := m.settledAt s.now, fellAt := s.now }, .done Reply.ok) := by
  simp only [cardMonConfig, doOk, hc]

section
variable {b : Bytes} {n : Fin 8} {cfg : BitVec 64} (hn : selIndex b = n.val) (hc : structAt 64 b 4 = cfg)
include hn hc

theorem cardMonWindowSet_checks_none {s : State} (free : s.winReferenced n.val = false) (order : winLow cfg ≤ winHigh cfg)
    (hyst : 2 * winHyst cfg ≤ winHigh cfg - winLow cfg) : (cardMonWindowSet b).checks s = none := by
  have hl : ¬ 8 ≤ n.val := by omega
  simp [cardMonWindowSet, firstOf, hn, hc, free, hl, order, hyst]

theorem cardMonWindowSet_run (h : Hdr) (s : State) : (cardMonWindowSet b).run h s =
    (s.onMon fun m => { m with windows := vmod m.windows n fun w => { w with cfg := cfg, outside := false } }, .done Reply.ok) := by
  simp only [cardMonWindowSet, doOk, hn, hc, Fin.ofNat_val_eq_self]

end

/-! The rows, heard where nothing is against them. -/

section
variable {s : State} {h : Hdr}

theorem State.Hears.calConfig (k : s.Hears h 0x0801) (he : s.engineState ∈ setS) {cfg : BitVec 64} (h1 : fld cfg 10 6 = 0) (h2 : fld cfg 4 4 = 0)
    (free : s.calBusy = false) (same : ∀ g : Fin 4, (s.groups.get g).live = true → flag cfg g.val = flag s.cal.cfg g.val)
    (declared : calDc cfg = 0 ∨ 400000 ≤ calDc cfg ∧ calDc cfg ≤ 600000) (period : 10 ≤ bgPeriod cfg) (entry : fld cfg 8 2 < 2) :
    s.Does (.calConfig h cfg) h 0x0801 (leBytes 8 cfg.toNat) Reply.ok fun u => u.onCal fun c => { c with cfg := cfg } := by
  have hc := structAt_only 8 cfg
  have reserved : (cardCalConfig (leBytes 8 cfg.toNat)).reservedOk = true := by
    show zeroFields (structAt (8 * 8) (leBytes 8 cfg.toNat) 0) _ = true
    rw [hc]
    simp [zeroFields, h1, h2]
  exact (k.unmarked_passes rfl rfl (by decide) (by simp) ⟨rfl, rfl, rfl⟩ rfl reserved (by simp [cardCalConfig]) he rfl
    (cardCalConfig_checks_none (s := s.heard h _ _) hc free same declared period entry) (cardCalConfig_frame _ h) rfl).does (cardCalConfig_run hc h _)

theorem State.Hears.calRun (k : s.Hears h 0x0802) (he : s.engineState ∈ [4, 5, 6, 9]) {w : BitVec 32} (free : s.cal.run = none)
    (reserved : onlyBits w.toNat 0x10F = true) (named : fld w 0 4 ≠ 0)
    (ready : ∀ q : Fin 4, flag w q.val = true → (s.quads.get q).state = .ready ∧ ∀ k ∈ ofQuad q, (s.banks.get k).link.faulted = false)
    (locked : s.refinLocked = true) :
    s.Does (.calRun h w) h 0x0802 (leBytes 4 w.toNat) Reply.deferred fun u => u.startRun (fld w 0 4) (flag w 8) h.ticket.toNat := by
  have hw := word_only w
  have reserved : (cardCalRun (leBytes 4 w.toNat)).reservedOk = true := (congrArg (onlyBits · 0x10F) hw).trans reserved
  exact (k.unmarked_passes rfl rfl (by decide) (by simp) ⟨rfl, rfl, rfl⟩ rfl reserved (by simp [cardCalRun]) he
    (cardCalRun_busy_none (s := s.heard h _ _) free _) (cardCalRun_checks_none (s := s.heard h _ _) hw named ready locked) (cardCalRun_frame _ h) rfl).does
    (cardCalRun_run hw h _)

theorem State.Hears.calAbort (k : s.Hears h 0x0803) (he : s.engineState = 8) : s.Does (.calAbort h) h 0x0803 [] Reply.ok State.abortRun :=
  (k.unmarked_passes rfl rfl (by decide) (by decide) ⟨rfl, rfl, rfl⟩ rfl rfl rfl (c := cardCalAbort []) (List.mem_singleton.mpr he) rfl rfl
    (cardCalAbort_frame _ h) rfl).does rfl

theorem State.Hears.calSetUpload (k : s.Hears h 0x0804) (he : s.engineState ∈ setS) (free : s.calBusy = false) {offset : BitVec 32} {data : Bytes}
    (words : data.length % 4 = 0) (least : 4 ≤ data.length) (most : data.length ≤ 4032) (aligned : offset.toNat % 4 = 0)
    (within : offset.toNat + data.length ≤ 131072) :
    s.Does (.calSetUpload h offset data) h 0x0804 (leBytes 4 offset.toNat ++ data) Reply.ok fun u =>
      u.onCal fun c => { c with staging := putSparse c.staging offset.toNat data } := by
  have ho := word_here offset data
  have hd : (leBytes 4 offset.toNat ++ data).drop 4 = data := List.drop_left' (leBytes_length ..)
  have length : (leBytes 4 offset.toNat ++ data).length = 4 + data.length := by simp
  have size : (cardCalSetUpload (leBytes 4 offset.toNat ++ data)).sizeOk = true := by
    simp only [cardCalSetUpload, length, Bool.and_eq_true, decide_eq_true_eq]
    omega
  exact (k.unmarked_passes rfl rfl (by decide) (by omega) ⟨rfl, rfl, rfl⟩ rfl rfl size he rfl
    (cardCalSetUpload_checks_none (s := s.heard h _ _) ho free aligned (by omega)) (cardCalSetUpload_frame _ h) rfl).does (cardCalSetUpload_run ho hd h _)

theorem State.Hears.calSetCommit (k : s.Hears h 0x0805) (he : s.engineState ∈ setS) (free : s.calBusy = false) (valid : setValid s.staged sinTable = true) :
    s.Does (.calSetCommit h) h 0x0805 [] (Reply.ok (leBytes 4 s.cal.nextId)) fun u =>
      let x := putBytes s.staged 4 (leBytes 4 s.cal.nextId)
      u.setPends (withCrc (x.take (x.length - 4))) :=
  (k.unmarked_passes rfl rfl (by decide) (by decide) ⟨rfl, rfl, rfl⟩ rfl rfl rfl he rfl (cardCalSetCommit_checks_none (s := s.heard h _ _) free valid [])
    (cardCalSetCommit_frame _ h) rfl).does rfl

/-- CAL_SET_DOWNLOAD's word is WHICH in its low byte, and reserved bytes. -/
theorem calSetDownload_payload {w : Nat} (known : w ≤ 1) (rest : Bytes) : leAt (leBytes 4 w ++ rest) 0 1 = w ∧ leAt (leBytes 4 w ++ rest) 1 3 = 0 := by
  rw [leAt_field_here 4 w 0 1 rest (by decide), leAt_field_here 4 w 1 3 rest (by decide), bits, bits, Nat.shiftRight_eq_div_pow, Nat.shiftRight_eq_div_pow]
  omega

theorem State.Hears.calSetDownload (k : s.Hears h 0x0806) (he : s.engineState ∈ setS) {w offset length : BitVec 32} {set : Bytes} (known : w.toNat ≤ 1)
    (hs : s.setNamed w.toNat = some set) (aligned : offset.toNat % 4 = 0) (within : offset.toNat < set.length) (words : length.toNat % 4 = 0)
    (least : 4 ≤ length.toNat) (most : length.toNat ≤ 4032) :
    s.Does (.calSetDownload h w offset length) h 0x0806 (leBytes 4 w.toNat ++ leBytes 4 offset.toNat ++ leBytes 4 length.toNat)
      (Reply.ok (leBytes 4 set.length ++ padWords ((set.drop offset.toNat).take length.toNat))) id := by
  have hb := List.append_assoc (leBytes 4 w.toNat) (leBytes 4 offset.toNat) (leBytes 4 length.toNat)
  obtain ⟨hw, reserved⟩ := calSetDownload_payload known (leBytes 4 offset.toNat ++ leBytes 4 length.toNat)
  have ho : word (leBytes 4 w.toNat ++ (leBytes 4 offset.toNat ++ leBytes 4 length.toNat)) 1 = offset.toNat := by rw [word_next, word_here]
  have hl : word (leBytes 4 w.toNat ++ (leBytes 4 offset.toNat ++ leBytes 4 length.toNat)) 2 = length.toNat := by rw [word_next, word_second]
  rw [← hb] at hw reserved ho hl
  exact (k.unmarked_passes rfl rfl (by decide) (by simp) ⟨rfl, rfl, rfl⟩ rfl (beq_iff_eq.mpr reserved) (by simp [cardCalSetDownload]) he rfl
    (cardCalSetDownload_checks_none (s := s.heard h _ _) hw ho hl hs known aligned within words least most) (cardCalSetDownload_frame _ h) rfl).does
    (cardCalSetDownload_run (s := s.heard h _ _) hw ho hl hs h)

theorem State.Hears.calSliceQuery (k : s.Hears h 0x0807) (he : s.engineState ∈ setS) {select : BitVec 32} {b : Fin 16} (hb : select.toNat = b.val) :
    s.Does (.calSliceQuery h select) h 0x0807 (leBytes 4 select.toNat) (Reply.ok ((s.banks.get b).live.flatMap fun c =>
      leBytes 2 (unsigned 16 (liveUnits c).offset) ++ leBytes 2 (unsigned 16 (liveUnits c).gain) ++ leBytes 2 (unsigned 16 (liveUnits c).skew) ++ zeros 2)) id := by
  have hi := (selIndex_only select (by omega)).trans hb
  have checks : (cardCalSliceQuery (leBytes 4 select.toNat)).checks (s.heard h 0x0807 (leBytes 4 select.toNat)) = none := by
    simp [cardCalSliceQuery, firstOf, hi]
  exact ((cardCalSliceQuery_selects _).passes k rfl rfl rfl (by decide) (by simp) rfl (cardCalSliceQuery_frame _ h) (by simp [cardCalSliceQuery])
    (by rw [selOk_only select (by omega)]; rfl) he rfl checks).does (by
      simp only [cardCalSliceQuery, selFin_of_selIndex hi]
      rfl)

theorem State.Hears.monConfig (k : s.Hears h 0x0A01) (he : s.engineState ∈ setS) {cfg : BitVec 32} (reserved : fld cfg 8 22 = 0) (known : monRef cfg ≠ 3)
    (free : monRef cfg = monRef s.mon.cfg ∨ ∀ n < 8, s.winReferenced n = false) :
    s.Does (.monConfig h cfg) h 0x0A01 (leBytes 4 cfg.toNat) Reply.ok fun u => u.onMon fun m =>
      if monRef cfg = monRef m.cfg then { m with cfg := cfg } else { m with cfg := cfg, settled := false, before := m.settledAt u.now, fellAt := u.now } := by
  have hc := structAt_only 4 cfg
  have reserved : (cardMonConfig (leBytes 4 cfg.toNat)).reservedOk = true := by
    show zeroFields (structAt (8 * 4) (leBytes 4 cfg.toNat) 0) _ = true
    rw [hc]
    simp [zeroFields, reserved]
  exact (k.word_passes rfl rfl (by decide) ⟨rfl, rfl, rfl⟩ rfl (fun _ => rfl) reserved (by simp [cardMonConfig]) he
    (cardMonConfig_checks_none (s := s.heard h _ _) hc known free) (cardMonConfig_frame _ h) rfl).does (cardMonConfig_run hc h _)

theorem State.Hears.monWindowSet (k : s.Hears h 0x0A02) (he : s.engineState ∈ setS) {select : BitVec 32} {n : Fin 8} (hn : select.toNat = n.val)
    {cfg : BitVec 64} (h1 : fld cfg 48 11 = 0) (h2 : fld cfg 1 11 = 0) (free : s.winReferenced n.val = false) (order : winLow cfg ≤ winHigh cfg)
    (hyst : 2 * winHyst cfg ≤ winHigh cfg - winLow cfg) :
    s.Does (.monWindowSet h select cfg) h 0x0A02 (leBytes 4 select.toNat ++ leBytes 8 cfg.toNat) Reply.ok fun u => u.onMon fun m =>
      { m with windows := vmod m.windows n fun w => { w with cfg := cfg, outside := false } } := by
  have hi := (selIndex_here select (leBytes 8 cfg.toNat) (by omega)).trans hn
  have hc := structAt_past 8 select cfg
  exact ((cardMonWindowSet_selects _).passes k rfl rfl rfl (by decide) (by simp) rfl (cardMonWindowSet_frame _ h) (by simp [cardMonWindowSet])
    (reserved_clear 8 (f := (zeroFields · [(48, 11), (1, 11)])) (by omega) (by simp [zeroFields, h1, h2])) he rfl
    (cardMonWindowSet_checks_none (s := s.heard h _ _) hi hc free order hyst)).does (cardMonWindowSet_run hi hc h _)

end

/-- Settles O7: the cards of the nine commands, each where it finds nothing against the command. -/
theorem calibrationCommandsTakeEffect : Obligations.CalibrationCommandsTakeEffect := by
  intro s h
  have sel {n : Nat} [NeZero n] {select : BitVec 32} (hs : select.toNat < n) : select.toNat = (Fin.ofNat n select.toNat).val := (Nat.mod_eq_of_lt hs).symm
  refine ⟨fun cfg k he h1 h2 free same declared period entry => k.calConfig he h1 h2 free same declared period entry,
    fun w k he free reserved named ready locked => k.calRun he free reserved named ready locked, fun k he => k.calAbort he,
    fun offset data k he free words least most aligned within => k.calSetUpload he free words least most aligned within,
    fun k he free valid => k.calSetCommit he free valid, ?download, fun select k he hs => k.calSliceQuery he (sel hs),
    fun cfg k he reserved known free => k.monConfig he reserved known free,
    fun select cfg k he hs h1 h2 free order hyst => k.monWindowSet he (sel hs) h1 h2 (by rwa [← sel hs]) order hyst⟩
  case download =>
    intro w offset length set k he known hs aligned within words least most
    have zero : w = 0 ↔ w.toNat = 0 := by bv_omega
    exact k.calSetDownload he known (by simpa only [State.setNamed, zero] using hs) aligned within words least most

end Sys2Proof.Machine
end

section
/-!
What time, the taking of a command and its answer leave alone (R284, R325, R334, R335, R342, R346, R493).
-/
namespace Sys2Proof.Machine
open Sys2Proof.Laws

/-- Time never runs back: the ticks that pass until t are those by which the time moves on (R10). -/
theorem State.advance_elapsed (s : State) (t : Nat) : t - s.now = (s.advance t).now - s.now := by
  show _ = max s.now t - s.now
  rw [Nat.max_comm, ← Nat.sub_eq_max_sub]

/-- The ticks that pass are counted as holdover while the main loop coasts (R284). -/
theorem State.advance_holdover (s : State) (t : Nat) :
    (s.advance t).clock.cnt.holdoverTicks = s.clock.cnt.holdoverTicks + (if s.clock.loop = .coasting then (s.advance t).now - s.now else 0) :=
  congrArg (fun n => s.clock.cnt.holdoverTicks + (if s.clock.loop = .coasting then n else 0)) (s.advance_elapsed t)

/-- The ticks that pass are counted while events are held (R493). -/
theorem State.advance_holdTicks (s : State) (t : Nat) :
    (s.advance t).events.holdTicks = s.events.holdTicks + (if s.events.pending = [] then 0 else (s.advance t).now - s.now) := by
  show s.events.holdTicks + (if s.events.pending.isEmpty = true then 0 else t - s.now) = _
  rw [s.advance_elapsed]
  simp only [List.isEmpty_iff]

theorem State.advance_effect (s : State) (t : Nat) :
    Frame [.now, .clock, .events] s (s.advance t) ∧ (s.advance t).now = max s.now t ∧ s.now ≤ (s.advance t).now ∧
    ({ (s.advance t).clock with cnt := { (s.advance t).clock.cnt with holdoverTicks := s.clock.cnt.holdoverTicks } } : Clock) = s.clock ∧
    (s.advance t).clock.cnt.holdoverTicks = s.clock.cnt.holdoverTicks + (if s.clock.loop = .coasting then (s.advance t).now - s.now else 0) ∧
    ({ (s.advance t).events with holdTicks := s.events.holdTicks } : Events) = s.events ∧
    (s.advance t).events.holdTicks = s.events.holdTicks + (if s.events.pending = [] then 0 else (s.advance t).now - s.now) :=
  ⟨advance_frame s t, rfl, Nat.le_max_left _ _, rfl, s.advance_holdover t, rfl, s.advance_holdTicks t⟩

section
variable (s : State) (h : Hdr)

/-- A command that is taken stands alone on its path, whose tag has its generation, and its path has the turn. -/
theorem State.heard_effect (op : Nat) (b : Bytes) :
    Frame [.paths, .fw] (s.advance h.tick) (s.heard h op b) ∧ (∀ q, q ≠ h.path → (s.heard h op b).path q = s.path q) ∧
    (s.heard h op b).fw = { s.fw with turn := h.path.idx.val } ∧ ((s.heard h op b).path h.path).cnt = (s.path h.path).cnt ∧
    ((s.heard h op b).path h.path).lastGen h.tag = some h.gen := by
  have path : (s.heard h op b).path h.path = { ((s.advance h.tick).path h.path).record h.tag h.gen with
      queue := [newEntry h op b (s.advance h.tick).now false 0 0] } := State.path_onPath_self ..
  refine ⟨s.heard_frame h op b, fun q hq => s.heard_path_ne h op b q hq.symm, rfl, ?_, ?_⟩
  · rw [path]
    rfl
  · rw [path]
    exact PathState.lastGen_record _ _ _

/-- A reply over the boughs leaves by the way up. -/
theorem State.handReply_bough_frame (pkt : Bytes) (ticket addr size after : Nat) :
    Frame [.paths, .grove] s (s.handReply .bough pkt ticket addr size after) :=
  (sendUp_frame _ pkt).step rfl ((onPath_frame s .bough _).widen rfl)

variable (op eng : Nat) (r : Reply)

/-- An unsent answer changes only its path, and over the bootstrap mailbox its busy flag. -/
theorem State.answered_unsent (ok : r.status = 0) (quiet : h.quiet = true) :
    Frame [.paths, .host] s (s.answered h op eng r) ∧ (h.path ≠ .pcie ∨ s.ringOn = true → Frame [.paths] s (s.answered h op eng r)) := by
  have unsent : r.status = 0 ∧ h.quiet = true := ⟨ok, quiet⟩
  unfold State.answered
  dsimp only
  rw [if_pos unsent]
  by_cases mailbox : h.path = .pcie ∧ ¬ s.ringOn = true
  · rw [if_pos mailbox]
    exact ⟨(onHost_frame _ (fun k => { k with bootBusy := false }) fun _ w => w).step rfl ((onPath_frame s h.path _).widen rfl),
      fun other => other.elim (absurd mailbox.1) fun on => absurd on mailbox.2⟩
  · rw [if_neg mailbox]
    exact ⟨(onPath_frame s h.path _).widen rfl, fun _ => onPath_frame s h.path _⟩

/-- An answer that is sent is handed to its path. -/
theorem State.answered_sent (sent : ¬ (r.status = 0 ∧ h.quiet = true)) :
    s.answered h op eng r = (s.onPath h.path fun p => { p with queue := [], cnt := { p.cnt with executed := p.cnt.executed + 1 } }).handReply h.path
      (s.replyPacket h op eng r) h.ticket.toNat 0 0 0 :=
  if_neg sent

theorem State.answered_frame : Frame [.ring4, .paths, .host, .fw, .grove, .link] s (s.answered h op eng r) := by
  by_cases unsent : r.status = 0 ∧ h.quiet = true
  · exact (s.answered_unsent h op eng r unsent.1 unsent.2).1.widen rfl
  · rw [s.answered_sent h op eng r unsent]
    exact (handReply_frame ..).step rfl ((onPath_frame s h.path _).widen rfl)

theorem State.answered_bough (bough : h.path = .bough) : Frame [.paths, .grove] s (s.answered h op eng r) := by
  by_cases unsent : r.status = 0 ∧ h.quiet = true
  · exact ((s.answered_unsent h op eng r unsent.1 unsent.2).2 (.inl (by rw [bough]; decide))).widen rfl
  · rw [s.answered_sent h op eng r unsent, bough]
    exact (State.handReply_bough_frame ..).step rfl ((onPath_frame s .bough _).widen rfl)

end

/-- Settles O41: time, a command taken, its answer and a command held, each by the parts that it changes. -/
theorem commandsLeaveTheRest : Obligations.CommandsLeaveTheRest := fun s =>
  ⟨s.advance_effect, s.heard_effect,
    fun h op eng r => ⟨s.answered_frame h op eng r, s.answered_unsent h op eng r, s.answered_bough h op eng r⟩,
    fun h _ _ => ⟨onPath_frame s h.path _, fun _ hq => State.path_onPath_ne _ _ _ _ hq.symm⟩⟩

end Sys2Proof.Machine
end

section
/-!
The commands of the clock family (R261, R265, R266, R281, R362, R363): what their cards find and do, and the next state where nothing is found against them.
-/
namespace Sys2Proof.Machine
open Sys2Proof.Laws

/-! What becomes of a plan that is taken (R261). -/

/-- Standby of the fall-back goes on where the new plan has a fall-back and is integer. -/
theorem standby_goesOn (standby : Bool) (p : BitVec 128) :
    (standby && planFallback p && planInteger p) = if planFallback p = true ∧ planInteger p = true then standby else false := by
  cases planFallback p <;> cases planInteger p <;> simp

section
variable {u : State} {p : BitVec 128}

/-- In AWAIT_IMAGE, or where the key stays, the plan is in force at once. -/
theorem State.takePlan_inForce (now : u.board.boot = .awaitImage ∨ planKey p = planKey u.clock.plan) :
    u.takePlan p = (u.onClock fun c => { c with plan := p, fbStandby := c.fbStandby && planFallback p && planInteger p }, .done Reply.ok) := by
  have now : u.board.boot = .awaitImage ∨ ¬ planKey p ≠ planKey u.clock.plan := now.imp_right not_not_intro
  rw [State.takePlan, if_pos now]
  refine congrArg (·, Ran.done Reply.ok) ?_
  simp only [standby_goesOn]
  exact apply_ite (fun standby => u.onClock fun c => { c with plan := p, fbStandby := standby }) _ u.clock.fbStandby false |>.symm

/-- Once an image runs a change of the key is a hop: a cold lock where the clocks stand, and otherwise the main loop coasts. -/
theorem State.takePlan_hops (run : u.board.boot ≠ .awaitImage) (key : planKey p ≠ planKey u.clock.plan) :
    u.takePlan p =
      (let v := u.onClock fun c => { c with
          plan := p, refJudged := false, refPresent := false, fbStandby := false, hop := some u.now, windows := true, goodWindows := 0 }
        if u.clock.drive = .stopped then v.coldLock else (v.onClock fun c => { c with loop := .coasting }).dropSnap, .held .planHop) := by
  have hop : ¬ (u.board.boot = .awaitImage ∨ ¬ planKey p ≠ planKey u.clock.plan) := not_or.mpr ⟨run, not_not_intro key⟩
  rw [State.takePlan, if_neg hop]
  exact (apply_ite (·, Ran.held .planHop) _ _ _).symm

end

/-! What the cards find and do, for any payload that brings the words given. -/

/-- The clock plan is free for a change once an image runs where no sync and no slew is in progress and the sequencer is off. -/
theorem State.planConflict_none {s : State} (free : s.board.boot ≠ .awaitImage → s.clock.sync = none ∧ s.clock.slew = none ∧ s.stim.enabled = false) :
    (if s.board.boot = .awaitImage then none else s.planConflict) = none := by
  by_cases boot : s.board.boot = .awaitImage
  · exact if_pos boot
  · obtain ⟨sync, slew, seq⟩ := free boot
    simp [State.planConflict, boot, sync, slew, seq]

/-- A number of w bits read as the signed number that it is. -/
theorem signed_toInt {w : Nat} (hw : 0 < w) (x : BitVec w) : signed w x.toNat = x.toInt := by
  obtain ⟨w, rfl⟩ := Nat.exists_eq_add_of_lt hw
  have := x.isLt
  unfold signed
  rw [BitVec.toInt_eq_toNat_cond, Nat.mod_eq_of_lt x.isLt]
  refine ite_congr (propext ?_) (fun _ => rfl) fun _ => rfl
  rw [Nat.add_sub_cancel, Nat.pow_succ]
  omega

theorem cardClockPlan_checks_none {b : Bytes} {p : BitVec 128} (hp : structAt 128 b 0 = p) {s : State}
    (free : (if s.board.boot = .awaitImage then none else s.planConflict) = none)
    (driven : planKey p ≠ planKey s.clock.plan → s.board.boot = .awaitImage ∨ s.clock.drive ≠ .fallback)
    (valid : planValid p = true) : (cardClockPlan b).checks s = none := by
  have driven : (decide (s.board.boot = .run) && decide (planKey p ≠ planKey s.clock.plan) && decide (s.clock.drive = .fallback)) = false := by
    by_cases key : planKey p = planKey s.clock.plan
    · simp [key]
    · obtain boot | drive := driven key
      · simp [boot]
      · simp [drive]
  simp only [cardClockPlan, orElse', firstOf, hp, free, driven, valid, Bool.not_true, Bool.false_eq_true, if_false]

section
variable {b : Bytes} {tick timeout : Nat} (ht : leAt b 0 8 = tick) (ho : leAt b 8 2 = timeout)
include ht ho

theorem cardClockSync_checks_none {s : State} (free : (if s.board.boot = .awaitImage then none else s.planConflict) = none)
    (aligned : tick % 128 = 0) (waits : timeout ≠ 0) (int : planInteger s.clock.plan = true) (source : planSource s.clock.plan = 1) :
    (cardClockSync b).checks s = none := by
  simp [cardClockSync, orElse', syncRefusal, firstOf, ht, ho, free, aligned, waits, int, source]

theorem cardClockSync_run (h : Hdr) (s : State) : (cardClockSync b).run h s = (s.armSync tick timeout h.ticket.toNat, .done Reply.deferred) := by
  simp only [cardClockSync, ht, ho]

end

theorem cardClockSync_busy_none {s : State} (sync : s.clock.sync = none) (slew : s.clock.slew = none) (b : Bytes) : (cardClockSync b).busy s = none := by
  simp [cardClockSync, firstOf, sync, slew]

section
variable {b : Bytes} {amount : BitVec 32} (ha : word b 0 = amount.toNat)
include ha

theorem cardGridTrim_checks_none (limit : amount.toInt.natAbs ≤ 50000) (s : State) : (cardGridTrim b).checks s = none := by
  simp [cardGridTrim, firstOf, ha, signed_toInt (w := 32) (by decide), limit]

theorem cardGridTrim_run (h : Hdr) (s : State) : (cardGridTrim b).run h s =
    (if amount = 0 then s else s.startSlew .trim amount.toInt h.ticket.toNat 0, .done (if amount = 0 then Reply.ok else Reply.deferred)) := by
  have zero : amount.toInt = 0 ↔ amount = 0 := BitVec.toInt_inj (y := 0#32)
  simp only [cardGridTrim, ha, signed_toInt (w := 32) (by decide), zero]
  split <;> rfl

end

/-! What the words of the payloads are. -/

/-- Three numbers that stand one after another in a payload. -/
theorem leAt_three {i j k x y z : Nat} (hx : x < 256 ^ i) (hy : y < 256 ^ j) (hz : z < 256 ^ k) :
    leAt (leBytes i x ++ leBytes j y ++ leBytes k z) 0 i = x ∧ leAt (leBytes i x ++ leBytes j y ++ leBytes k z) i j = y ∧
    leAt (leBytes i x ++ leBytes j y ++ leBytes k z) (i + j) k = z := by
  refine ⟨?_, ?_, ?_⟩
  · rw [List.append_assoc, leAt_here, Nat.mod_eq_of_lt hx]
  · rw [List.append_assoc]
    exact (leAt_past _ _ 0 j i (leBytes_length ..)).trans ((leAt_here ..).trans (Nat.mod_eq_of_lt hy))
  · exact (leAt_past _ _ 0 k (i + j) (by simp)).trans ((leAt_only ..).trans (Nat.mod_eq_of_lt hz))

/-! The rows, heard where nothing is against them. -/

section
variable {s : State} {h : Hdr}

theorem State.Hears.clockPlan_passes (k : s.Hears h 0x0101) (he : s.engineState ∈ [2, 4]) {plan : BitVec 128} (h1 : fld plan 0 24 = 0)
    (h2 : fld plan 32 32 = 0) (valid : planValid plan = true)
    (free : s.board.boot ≠ .awaitImage → s.clock.sync = none ∧ s.clock.slew = none ∧ s.stim.enabled = false)
    (driven : planKey plan ≠ planKey s.clock.plan → s.board.boot = .awaitImage ∨ s.clock.drive ≠ .fallback) :
    s.Passes (.clockPlan h plan) h 0x0101 (leBytes 16 plan.toNat) (cardClockPlan (leBytes 16 plan.toNat)) [.clock, .rings, .events, .grove, .link] := by
  have low : leAt (leBytes 16 plan.toNat) 0 3 = 0 := (leAt_field 16 _ 0 3 (by decide)).trans h1
  have high : leAt (leBytes 16 plan.toNat) 4 4 = 0 := (leAt_field 16 _ 4 4 (by decide)).trans h2
  have reserved : (cardClockPlan (leBytes 16 plan.toNat)).reservedOk = true := by
    simp only [cardClockPlan, low, high]
    rfl
  exact k.unmarked_passes rfl rfl (by decide) (by simp) ⟨rfl, rfl, rfl⟩ rfl reserved (by simp [cardClockPlan]) he rfl
    (cardClockPlan_checks_none (structAt_only 16 plan) (State.planConflict_none (s := s.heard h _ _) free) driven valid) (cardClockPlan_frame _ h) rfl

/-- CLOCK_PLAN in AWAIT_IMAGE, or with the key in force, is in force at once. -/
theorem State.Hears.clockPlan_inForce (k : s.Hears h 0x0101) (he : s.engineState ∈ [2, 4]) {plan : BitVec 128} (h1 : fld plan 0 24 = 0)
    (h2 : fld plan 32 32 = 0) (valid : planValid plan = true)
    (free : s.board.boot ≠ .awaitImage → s.clock.sync = none ∧ s.clock.slew = none ∧ s.stim.enabled = false)
    (now : s.board.boot = .awaitImage ∨ planKey plan = planKey s.clock.plan) :
    s.Does (.clockPlan h plan) h 0x0101 (leBytes 16 plan.toNat) Reply.ok fun u => u.onClock fun c =>
      { c with plan := plan, fbStandby := c.fbStandby && planFallback plan && planInteger plan } :=
  (k.clockPlan_passes he h1 h2 valid free fun key => .inl (now.resolve_right key)).does
    ((congrArg (s.heard h _ _).takePlan (structAt_only 16 plan)).trans (State.takePlan_inForce (u := s.heard h _ _) now))

/-- CLOCK_PLAN with another key in IDLE is a hop, and its reply waits for it. -/
theorem State.Hears.clockPlan_hops (k : s.Hears h 0x0101) (he : s.engineState = 4) {plan : BitVec 128} (h1 : fld plan 0 24 = 0)
    (h2 : fld plan 32 32 = 0) (valid : planValid plan = true) (sync : s.clock.sync = none) (slew : s.clock.slew = none) (seq : s.stim.enabled = false)
    (driven : s.clock.drive ≠ .fallback) (key : planKey plan ≠ planKey s.clock.plan) :
    s.Holds (.clockPlan h plan) h 0x0101 (leBytes 16 plan.toNat) .planHop fun u =>
      let v := u.onClock fun c => { c with
        plan := plan, refJudged := false, refPresent := false, fbStandby := false, hop := some u.now, windows := true, goodWindows := 0 }
      if s.clock.drive = .stopped then v.coldLock else (v.onClock fun c => { c with loop := .coasting }).dropSnap :=
  (k.clockPlan_passes (by simp [he]) h1 h2 valid (fun _ => ⟨sync, slew, seq⟩) fun _ => .inr driven).holds
    ((congrArg (s.heard h _ _).takePlan (structAt_only 16 plan)).trans (State.takePlan_hops (u := s.heard h _ _) (State.not_awaitImage he) key))

theorem State.Hears.clockSync (k : s.Hears h 0x0102) (he : s.engineState ∈ [2, 4]) {tick : BitVec 64} {timeout reserved : BitVec 16}
    (zero : reserved = 0) (sync : s.clock.sync = none) (slew : s.clock.slew = none) (seq : s.board.boot ≠ .awaitImage → s.stim.enabled = false)
    (aligned : tick.toNat % 128 = 0) (waits : timeout ≠ 0) (int : planInteger s.clock.plan = true) (source : planSource s.clock.plan = 1) :
    s.Does (.clockSync h tick timeout reserved) h 0x0102 (leBytes 8 tick.toNat ++ leBytes 2 timeout.toNat ++ leBytes 2 reserved.toNat) Reply.deferred
      fun u => u.onClock fun c => { c with
        sync := some { syncTick := tick.toNat, timeoutMs := timeout.toNat, since := u.now, ticket := h.ticket.toNat, lows := 0 } } := by
  obtain ⟨ht, ho, rest⟩ := leAt_three (i := 8) (j := 2) (k := 2) tick.isLt timeout.isLt reserved.isLt
  have clear : (cardClockSync (leBytes 8 tick.toNat ++ leBytes 2 timeout.toNat ++ leBytes 2 reserved.toNat)).reservedOk = true :=
    beq_iff_eq.mpr (rest.trans (congrArg BitVec.toNat zero))
  exact (k.unmarked_passes rfl rfl (by decide) (by simp) ⟨rfl, rfl, rfl⟩ rfl clear (by simp [cardClockSync]) he
    (cardClockSync_busy_none (s := s.heard h _ _) sync slew _)
    (cardClockSync_checks_none ht ho (State.planConflict_none (s := s.heard h _ _) fun run => ⟨sync, slew, seq run⟩) aligned (by bv_omega) int source)
    (cardClockSync_frame _ h) rfl).does (cardClockSync_run ht ho h _)

theorem State.Hears.gridTrim (k : s.Hears h 0x0103) (he : s.engineState ∈ [4, 5, 6, 9]) {amount : BitVec 32} (slew : s.clock.slew = none)
    (limit : amount.toInt.natAbs ≤ 50000) :
    s.Does (.gridTrim h amount) h 0x0103 (leBytes 4 amount.toNat) (if amount = 0 then Reply.ok else Reply.deferred) fun u =>
      if amount = 0 then u else u.startSlew .trim amount.toInt h.ticket.toNat 0 := by
  have busy : (cardGridTrim (leBytes 4 amount.toNat)).busy (s.heard h 0x0103 (leBytes 4 amount.toNat)) = none :=
    if_neg (by simp [show (s.heard h 0x0103 (leBytes 4 amount.toNat)).clock.slew = none from slew])
  exact (k.unmarked_passes rfl rfl (by decide) (by simp) ⟨rfl, rfl, rfl⟩ rfl rfl (by simp [cardGridTrim]) he busy
    (cardGridTrim_checks_none (word_only amount) limit _) (cardGridTrim_frame _ h) rfl).does (cardGridTrim_run (word_only amount) h _)

end

/-- Settles O2: the cards of the three commands, each where it finds nothing against the command. -/
theorem clockCommandsTakeEffect : Obligations.ClockCommandsTakeEffect := fun _ _ =>
  ⟨fun _ k he h1 h2 valid free now => k.clockPlan_inForce he h1 h2 valid free now,
    fun _ k he h1 h2 valid sync slew seq driven key => k.clockPlan_hops he h1 h2 valid sync slew seq driven key,
    fun _ _ _ k he zero sync slew seq aligned waits int source => k.clockSync he zero sync slew seq aligned waits int source,
    fun _ k he slew limit => k.gridTrim he slew limit⟩

end Sys2Proof.Machine
end

section
/-!
The commands of the grove family (R280, R281, R381 to R383, R423, R443 to R446, R452): what their cards find and do, and the next state where nothing is found
against them.
-/
namespace Sys2Proof.Machine
open Sys2Proof.Laws

/-! The words of a probe (R382): the two rows differ in ASSIGN, bit 48, and in nothing else. -/

/-- A field of a field. -/
theorem bits_bits (v : Nat) {lo w a n : Nat} (h : a + n ≤ w) : bits (bits v lo w) a n = bits v (lo + a) n := by
  refine Nat.eq_of_testBit_eq fun i => ?_
  simp only [bits, Nat.testBit_mod_two_pow, Nat.testBit_shiftRight, Nat.add_assoc]
  by_cases hi : i < n
  · rw [decide_eq_true (show a + i < w by omega), Bool.true_and]
  · rw [decide_eq_false hi, Bool.false_and, Bool.false_and]

/-- A field is the same in two structures whose bits are the same there. -/
theorem fld_congr {m lo w : Nat} {x y : BitVec m} (h : ∀ i < w, x.getLsbD (lo + i) = y.getLsbD (lo + i)) : fld x lo w = fld y lo w := by
  refine Nat.eq_of_testBit_eq fun i => ?_
  simp only [fld, bits, Nat.testBit_mod_two_pow, Nat.testBit_shiftRight, BitVec.testBit_toNat]
  by_cases hi : i < w
  · rw [h i hi]
  · rw [decide_eq_false hi, Bool.false_and, Bool.false_and]

section
variable (probe : BitVec 128)

theorem assignSet_bit (j : Nat) : (probe ||| 0x1000000000000#128).getLsbD j = (probe.getLsbD j || decide (j = 48)) := by
  rw [show 0x1000000000000#128 = BitVec.twoPow 128 48 from by decide, BitVec.getLsbD_or, BitVec.getLsbD_twoPow]
  by_cases h : j = 48 <;> simp [h, eq_comm]

theorem assignClear_bit (j : Nat) : (probe &&& 0xFFFFFFFFFFFFFFFFFFFEFFFFFFFFFFFF#128).getLsbD j = (probe.getLsbD j && decide (j ≠ 48)) := by
  rw [show 0xFFFFFFFFFFFFFFFFFFFEFFFFFFFFFFFF#128 = ~~~ BitVec.twoPow 128 48 from by decide, BitVec.getLsbD_and, BitVec.getLsbD_not,
    BitVec.getLsbD_twoPow]
  by_cases h : j < 128
  · by_cases h48 : j = 48 <;> simp [h, h48, eq_comm]
  · simp [BitVec.getLsbD_of_ge probe j (by omega)]

/-- A payload that brings a probe with a given ASSIGN bit. -/
structure BringsProbe (b : Bytes) (assign : Bool) : Prop where
  length : b.length = 16
  depth : pathDepth (probePath b) = fld probe 16 4
  devaddr : leAt b 4 2 = fld probe 32 16
  assign : probeAssign b = assign
  epoch : leAt b 8 4 = fld probe 64 32
  bound : leAt b 12 4 = fld probe 96 32
  rest : leAt b 8 8 = fld probe 64 64
  reserved : fld probe 20 12 = 0 → fld probe 49 15 = 0 → (cardEnumProbe b).reservedOk = true

variable {probe}

/-- The bytes of a structure that is the probe but for bit 48 bring it. -/
theorem bringsProbe {v : BitVec 128} (same : ∀ lo w, lo + w ≤ 48 ∨ 49 ≤ lo → fld v lo w = fld probe lo w) :
    BringsProbe probe (leBytes 16 v.toNat) (flag v 48) where
  length := leBytes_length ..
  depth := by
    rw [pathDepth, probePath, leAt_field 16 _ 0 4 (by decide), bits_bits _ (by decide)]
    exact same 16 4 (by decide)
  devaddr := (leAt_field 16 _ 4 2 (by decide)).trans (same 32 16 (by decide))
  assign := by
    rw [probeAssign, leAt_field 16 _ 6 1 (by decide), flag, bit_testBit, bit_testBit, bits]
    simp
  epoch := (leAt_field 16 _ 8 4 (by decide)).trans (same 64 32 (by decide))
  bound := (leAt_field 16 _ 12 4 (by decide)).trans (same 96 32 (by decide))
  rest := (leAt_field 16 _ 8 8 (by decide)).trans (same 64 64 (by decide))
  reserved := by
    intro h1 h2
    rw [← same 20 12 (by decide)] at h1
    rw [← same 49 15 (by decide)] at h2
    have part {a n : Nat} (h : a + n ≤ 15) : bits v.toNat (49 + a) n = 0 := by
      rw [← bits_bits _ h]
      exact (congrArg (bits · a n) h2).trans (by simp [bits])
    have path : bits (leAt (leBytes 16 v.toNat) 0 4) 20 12 = 0 := by
      rw [leAt_field 16 _ 0 4 (by decide), bits_bits _ (by decide)]
      exact h1
    have low : bits (leAt (leBytes 16 v.toNat) 6 1) 1 7 = 0 := by
      rw [leAt_field 16 _ 6 1 (by decide), bits_bits _ (by decide)]
      exact part (a := 0) (by decide)
    have high : leAt (leBytes 16 v.toNat) 7 1 = 0 := (leAt_field 16 _ 7 1 (by decide)).trans (part (a := 7) (by decide))
    simp only [cardEnumProbe, path, low, high]
    rfl

variable (probe)

theorem bringsProbe_assign : BringsProbe probe (leBytes 16 (probe ||| 0x1000000000000#128).toNat) true := by
  have set : flag (probe ||| 0x1000000000000#128) 48 = true := by
    rw [flag, bit_testBit, BitVec.testBit_toNat, assignSet_bit]
    simp
  rw [← set]
  refine bringsProbe fun lo w off => fld_congr fun i hi => ?_
  rw [assignSet_bit, decide_eq_false (by omega), Bool.or_false]

theorem bringsProbe_plain : BringsProbe probe (leBytes 16 (probe &&& 0xFFFFFFFFFFFFFFFFFFFEFFFFFFFFFFFF#128).toNat) false := by
  have clear : flag (probe &&& 0xFFFFFFFFFFFFFFFFFFFEFFFFFFFFFFFF#128) 48 = false := by
    rw [flag, bit_testBit, BitVec.testBit_toNat, assignClear_bit]
    simp
  rw [← clear]
  refine bringsProbe fun lo w off => fld_congr fun i hi => ?_
  rw [assignClear_bit, decide_eq_true (by omega), Bool.and_true]

end

/-! What the cards find and do, for any payload that brings the words given. -/

section
variable {b : Bytes} {probe : BitVec 128} {assign : Bool} (p : BringsProbe probe b assign)
include p

theorem cardEnumProbe_checks_none (least : 1 ≤ fld probe 16 4) (most : fld probe 16 4 ≤ 8)
    (operands : if assign = true then fld probe 32 16 ≠ 0 else fld probe 32 16 = 0 ∧ fld probe 64 64 = 0) (s : State) :
    (cardEnumProbe b).checks s = none := by
  have depth : probeDepthOk b = true := by simp [probeDepthOk, p.depth, least, most]
  cases assign with
  | true => simpa [cardEnumProbe, firstOf, depth, p.assign, p.devaddr] using operands
  | false => simpa [cardEnumProbe, firstOf, depth, p.assign, p.devaddr, p.rest] using operands

end

theorem cardEnumProbe_run_plain {b : Bytes} {probe : BitVec 128} (p : BringsProbe probe b false) (h : Hdr) (s : State) :
    (cardEnumProbe b).run h s = (s, .done (Reply.ok (s.identity ++ leBytes 1 s.portsUp ++ zeros 7))) := by
  simp only [cardEnumProbe, p.assign, Bool.false_eq_true, if_false]

theorem cardEnumProbe_run_assign {b : Bytes} {probe : BitVec 128} (p : BringsProbe probe b true) (h : Hdr) (s : State) :
    (cardEnumProbe b).run h s =
      let t := ((s.onGrove fun g => { g with
        devaddr := fld probe 32 16, aligned := g.aligned && g.role = .worker, role := .worker, epoch := fld probe 64 32, bound := fld probe 96 32
        depth := fld probe 16 4, manager := h.source.toNat, hasManager := true }).clearBoughTags).rejudge.sayHello
      (t, .done (Reply.ok (t.identity ++ leBytes 1 t.portsUp ++ zeros 7))) := by
  simp only [cardEnumProbe, p.assign, if_true, State.assign, p.devaddr, p.epoch, p.bound, p.depth]

theorem cardGroveConfig_run {b : Bytes} {mcast : BitVec 256} (hm : structAt 256 b 0 = mcast) (h : Hdr) (s : State) :
    (cardGroveConfig b).run h s = (s.onGrove fun g => { g with mcast := mcast ||| BitVec.ofNat 256 (1 <<< 255) }, .done Reply.ok) := by
  simp only [cardGroveConfig, doOk, hm]

section
variable {b : Bytes} {p : Fin 5} (hp : Fin.ofNat 5 (1 + word b 0) = p)
include hp

theorem cardGroveRange_checks_none {s : State} (up : (s.port p).link = .up) : (cardGroveRange b).checks s = none := by
  simp only [cardGroveRange, firstOf, hp, up, ne_eq, not_true_eq_false, decide_false, Bool.false_eq_true, if_false]

theorem cardGroveRange_run (h : Hdr) (s : State) : (cardGroveRange b).run h s = (s.startRange p [h.ticket.toNat], .done Reply.deferred) := by
  simp only [cardGroveRange, hp]

end

section
variable {b : Bytes} {ticks : BitVec 64} {fs : BitVec 32} (hf : leAt b 8 4 = fs.toNat)
include hf

theorem cardGroveAlign_checks_none {s : State} (seq : s.stim.enabled = false) (limit : fs.toInt.natAbs ≤ 50000) : (cardGroveAlign b).checks s = none := by
  simp [cardGroveAlign, firstOf, hf, signed_toInt (w := 32) (by decide), seq, limit]

theorem cardGroveAlign_run (ht : leAt b 0 8 = ticks.toNat) (h : Hdr) (s : State) : (cardGroveAlign b).run h s =
    let v := (s.load ticks.toInt).onGrove fun g => { g with aligned := true }
    (if fs = 0 then v else v.startSlew .align fs.toInt h.ticket.toNat 0, .done (if fs = 0 then Reply.ok else Reply.deferred)) := by
  have zero : fs.toInt = 0 ↔ fs = 0 := BitVec.toInt_inj (y := 0#32)
  simp only [cardGroveAlign, hf, ht, signed_toInt (w := 32) (by decide), signed_toInt (w := 64) (by decide), zero]
  split <;> rfl

end

theorem cardGroveAlign_busy_none {s : State} (slew : s.clock.slew = none) (sync : s.clock.sync = none) (b : Bytes) : (cardGroveAlign b).busy s = none := by
  simp [cardGroveAlign, firstOf, slew, sync]

/-! What the changes of a device's role leave waiting. -/

/-- A device that takes an address clears its tags and tells its links. -/
theorem State.adopt_waits (s : State) (f : Grove → Grove) : s.waitsAs ((s.onGrove f).clearBoughTags).rejudge.sayHello :=
  State.waitsAs_trans (State.waitsAs_trans ((onGrove_frame s f).waitsAs rfl) (State.clearBoughTags_waits _))
    (((sayHello_frame _).step rfl (rejudge_frame _)).waitsAs rfl)

theorem State.promote_waits (s : State) : s.waitsAs s.promote := by
  refine State.waitsAs_trans (s.leaveOrphan_waits .manager ((s.grove.epoch + 1) % 2 ^ 32) s.grove.devaddr)
    (Frame.waitsAs (ps := [.events, .grove, .link]) ?_ rfl)
  exact (sayHello_frame _).step rfl ((rejudge_frame _).step rfl ((sendDown_frame _ _).step rfl ((onGrove_frame _ _).widen rfl)))

/-! The rows, heard where nothing is against them. -/

/-- A command whose marks allow its header is heard and its card runs, where neither its reserved bits, nor its length, nor its state, nor what is busy, nor
the card's own checks are against it. -/
theorem State.Hears.admitted_does {s : State} {h : Hdr} {op : Nat} (k : s.Hears h op) {i : Instr} {b : Bytes} {c : Card} {r : Reply} {effect : State → State}
    (row : exec i s = .next (s.command h op b)) (card : cardOf op b = some c) (opcode : op ≠ 0x10000) (length : b.length % 4 = 0 ∧ b.length ≤ 4096)
    (admits : c.admits h = true) (after : c.after = id) (reserved : c.reservedOk = true) (size : c.sizeOk = true) (he : s.engineState ∈ c.states)
    (busy : c.busy (s.heard h op b) = none) (checks : c.checks (s.heard h op b) = none)
    (run : c.run h (s.heard h op b) = (effect (s.heard h op b), .done r)) (waits : (s.heard h op b).waitsAs (effect (s.heard h op b))) :
    s.Does i h op b r effect :=
  row.trans (congrArg _ (k.ran b length c opcode card after (c.judge_none h b _ k.flags.2 reserved admits size busy he checks) _ r run waits))

section
variable {s : State} {h : Hdr}

section
variable (k : s.Hears h 0x0B01) (bough : h.path = .bough) (he : s.engineState ∈ setW) {probe : BitVec 128} (h1 : fld probe 20 12 = 0)
  (h2 : fld probe 49 15 = 0) (least : 1 ≤ fld probe 16 4) (most : fld probe 16 4 ≤ 8)
include k bough he h1 h2 least most

/-- A probe is heard over the bough, with the operands that its ASSIGN asks for. -/
theorem State.Hears.probe_does {i : Instr} {b : Bytes} {assign : Bool} {r : Reply} {effect : State → State} (p : BringsProbe probe b assign)
    (row : exec i s = .next (s.command h 0x0B01 b))
    (operands : if assign = true then fld probe 32 16 ≠ 0 else fld probe 32 16 = 0 ∧ fld probe 64 64 = 0)
    (run : (cardEnumProbe b).run h (s.heard h 0x0B01 b) = (effect (s.heard h 0x0B01 b), .done r))
    (waits : (s.heard h 0x0B01 b).waitsAs (effect (s.heard h 0x0B01 b))) : s.Does i h 0x0B01 b r effect :=
  k.admitted_does row rfl (by decide) (by rw [p.length]; decide) (by simp [Card.admits, cardEnumProbe, bough]) rfl (p.reserved h1 h2)
    (decide_eq_true p.length) he rfl (cardEnumProbe_checks_none p least most operands _) run waits

theorem State.Hears.enumProbe (dev : fld probe 32 16 = 0) (rest : fld probe 64 64 = 0) :
    s.Does (.enumProbe h probe) h 0x0B01 (leBytes 16 (probe &&& 0xFFFFFFFFFFFFFFFFFFFEFFFFFFFFFFFF#128).toNat)
      (Reply.ok (s.identity ++ leBytes 1 s.portsUp ++ zeros 7)) id :=
  k.probe_does bough he h1 h2 least most (bringsProbe_plain probe) rfl ⟨dev, rest⟩ (cardEnumProbe_run_plain (bringsProbe_plain probe) h _)
    (State.waitsAs_refl _)

theorem State.Hears.enumProbeAssign (dev : fld probe 32 16 ≠ 0) :
    let b := leBytes 16 (probe ||| 0x1000000000000#128).toNat
    let t := (((s.heard h 0x0B01 b).onGrove fun g => { g with
      devaddr := fld probe 32 16, aligned := g.aligned && g.role = .worker, role := .worker, epoch := fld probe 64 32, bound := fld probe 96 32
      depth := fld probe 16 4, manager := h.source.toNat, hasManager := true }).clearBoughTags).rejudge.sayHello
    s.Does (.enumProbeAssign h probe) h 0x0B01 b (Reply.ok (t.identity ++ leBytes 1 t.portsUp ++ zeros 7)) fun _ => t :=
  k.probe_does bough he h1 h2 least most (bringsProbe_assign probe) rfl dev (cardEnumProbe_run_assign (bringsProbe_assign probe) h _)
    (State.adopt_waits _ _)

end

theorem State.Hears.groveConfig (k : s.Hears h 0x0B02) (he : s.engineState ∈ setW) (mcast : BitVec 256) :
    s.Does (.groveConfig h mcast) h 0x0B02 (leBytes 32 mcast.toNat) Reply.ok fun u =>
      u.onGrove fun g => { g with mcast := mcast ||| BitVec.ofNat 256 (1 <<< 255) } :=
  (k.unmarked_passes rfl rfl (by decide) (by simp) ⟨rfl, rfl, rfl⟩ rfl rfl (by simp [cardGroveConfig]) he rfl rfl (cardGroveConfig_frame _ h) rfl).does
    (cardGroveConfig_run (structAt_only 32 mcast) h _)

theorem State.Hears.groveRange (k : s.Hears h 0x0B03) (single : h.group = false) (he : s.engineState ∈ setW) {w : BitVec 32} {p : Fin 5}
    (hp : p.val = 1 + w.toNat) (up : (s.port p).link = .up) :
    s.Does (.groveRange h w) h 0x0B03 (leBytes 4 w.toNat) Reply.deferred fun u => u.startRange p [h.ticket.toNat] := by
  have port : Fin.ofNat 5 (1 + word (leBytes 4 w.toNat) 0) = p := by
    rw [word_only, ← hp]
    exact Fin.ofNat_val_eq_self p
  have reserved : (cardGroveRange (leBytes 4 w.toNat)).reservedOk = true := by
    refine decide_eq_true ?_
    rw [word_only]
    omega
  exact k.admitted_does rfl rfl (by decide) (by simp) (by simp [Card.admits, cardGroveRange, single]) rfl reserved (by simp [cardGroveRange]) he rfl
    (cardGroveRange_checks_none (s := s.heard h _ _) port up) (cardGroveRange_run port h _) ((startRange_frame _ p _).waitsAs rfl)

theorem State.Hears.groveAlign (k : s.Hears h 0x0B04) (he : s.engineState = 4) {ticks : BitVec 64} {fs reserved : BitVec 32} (zero : reserved = 0)
    (slew : s.clock.slew = none) (sync : s.clock.sync = none) (seq : s.stim.enabled = false) (limit : fs.toInt.natAbs ≤ 50000) :
    s.Does (.groveAlign h ticks fs reserved) h 0x0B04 (leBytes 8 ticks.toNat ++ leBytes 4 fs.toNat ++ leBytes 4 reserved.toNat)
      (if fs = 0 then Reply.ok else Reply.deferred) fun u =>
        let v := (u.load ticks.toInt).onGrove fun g => { g with aligned := true }
        if fs = 0 then v else v.startSlew .align fs.toInt h.ticket.toNat 0 := by
  obtain ⟨ht, hf, rest⟩ := leAt_three (i := 8) (j := 4) (k := 4) ticks.isLt fs.isLt reserved.isLt
  have clear : (cardGroveAlign (leBytes 8 ticks.toNat ++ leBytes 4 fs.toNat ++ leBytes 4 reserved.toNat)).reservedOk = true :=
    beq_iff_eq.mpr (rest.trans (congrArg BitVec.toNat zero))
  exact (k.unmarked_passes rfl rfl (by decide) (by simp) ⟨rfl, rfl, rfl⟩ rfl clear (by simp [cardGroveAlign]) (List.mem_singleton.mpr he)
    (cardGroveAlign_busy_none (s := s.heard h _ _) slew sync _) (cardGroveAlign_checks_none (s := s.heard h _ _) hf seq limit)
    (cardGroveAlign_frame _ h) rfl).does (cardGroveAlign_run hf ht h _)

theorem State.Hears.promote (k : s.Hears h 0x0B05) (single : h.group = false) (host : h.path = .pcie) (he : s.engineState = 9)
    (root : s.grove.role = .orphanRoot) {t : State} (ht : (s.heard h 0x0B05 []).promote = t) :
    s.Does (.promote h) h 0x0B05 [] (Reply.ok (leBytes 4 t.grove.epoch)) fun _ => t := by
  subst ht
  have checks : (cardPromote []).checks (s.heard h 0x0B05 []) = none :=
    if_neg (by simp [show (s.heard h 0x0B05 []).grove.role = .orphanRoot from root])
  exact k.admitted_does (c := cardPromote []) rfl rfl (by decide) (by decide) (by simp [Card.admits, cardPromote, single, host]) rfl rfl rfl
    (List.mem_singleton.mpr he) rfl checks rfl (State.promote_waits _)

theorem State.Hears.demote (k : s.Hears h 0x0B06) (single : h.group = false) (host : h.path = .pcie) (he : s.engineState ∈ setW)
    (role : s.grove.role = .manager ∨ s.grove.role.orphan = true) : s.Does (.demote h) h 0x0B06 [] Reply.ok State.demote := by
  have checks : (cardDemote []).checks (s.heard h 0x0B06 []) = none := by
    have role : (s.heard h 0x0B06 []).grove.role = .manager ∨ (s.heard h 0x0B06 []).grove.role.orphan = true := role
    exact if_neg (by simpa using role.resolve_left)
  exact k.admitted_does (c := cardDemote []) rfl rfl (by decide) (by decide) (by simp [Card.admits, cardDemote, single, host]) rfl rfl rfl he rfl checks rfl
    ((demote_frame _).waitsAs rfl)

theorem State.Hears.groveStatus (k : s.Hears h 0x0B07) (he : s.engineState ∈ setQ) :
    s.Does (.groveStatus h) h 0x0B07 [] (Reply.ok (leBytes 2 s.grove.devaddr ++ leBytes 1 s.grove.role.code ++ leBytes 1 s.grove.depth ++
      leBytes 4 s.grove.epoch ++ leBytes 4 s.grove.bound ++ leBytes 1 s.portsUp ++ zeros 3 ++
      (dn.map fun p => leBytes 4 (if (s.port p).ranged then unsigned 32 (s.port p).delay else 0)).flatten)) id :=
  (k.unmarked_passes rfl rfl (by decide) (by decide) ⟨rfl, rfl, rfl⟩ rfl rfl rfl he rfl rfl (cardGroveStatus_frame [] h) rfl).does rfl

end

/-- Settles O10: the cards of the seven commands, each where it finds nothing against the command. -/
theorem groveCommandsTakeEffect : Obligations.GroveCommandsTakeEffect := fun _ _ =>
  ⟨fun _ k bough he h1 h2 dev rest least most => k.enumProbe bough he h1 h2 least most dev rest,
    fun _ k bough he h1 h2 dev least most => k.enumProbeAssign bough he h1 h2 least most dev,
    fun mcast k he => k.groveConfig he mcast, fun _ _ k single he hp up => k.groveRange single he hp up,
    fun _ _ _ k he zero slew sync seq limit => k.groveAlign he zero slew sync seq limit,
    fun k single host he root => k.promote single host he root rfl, fun k single host he role => k.demote single host he role,
    fun k he => k.groveStatus he⟩

end Sys2Proof.Machine
end

section
/-!
The clock loops (R261 to R267, R271, R272, R274): what a lock window, a loss of lock, a common start and a sync edge do in the state given.
-/
namespace Sys2Proof.Machine
open Sys2Proof.Laws

/-- In INIT and in RUN the sample clocks may run. -/
theorem State.clocksAllowed_of {s : State} (runs : s.board.boot = .init ∨ s.board.boot = .run) : s.clocksAllowed = true := by
  obtain runs | runs := runs <;> simp [State.clocksAllowed, runs]

/-! Lock windows and the loss of lock (R261, R263, R271, R272, R274). -/

section
variable {s : State}

/-- A main loop that has been locked loses lock: what drives decides of the phase generator, and the loop locks anew. -/
theorem State.mainLost_eq (loop : s.clock.loop = .locked ∨ s.clock.loop = .coasting) :
    s.mainLost =
      let u := s.onClock fun c => { c with cnt := { c.cnt with lockLosses := c.cnt.lockLosses + 1 } }
      State.coldLock <|
        if s.clock.drive = .fallback then u
        else if s.clock.drive = .stopped then u.onClock fun c => { c with switch := none }
        else if s.clock.drive = .main ∧ s.clock.fbStandby = true ∧ s.clock.loop = .locked then
          u.dropSnap.onClock fun c => { c with switch := some (s.beatFrom (s.now + 64), .toFallback) }
        else u.dropSnap.scheduleStop := by
  have locking : ¬ (decide (s.clock.loop ≠ .locked) && decide (s.clock.loop ≠ .coasting)) = true := by
    obtain loop | loop := loop <;> simp [loop]
  unfold State.mainLost
  dsimp only
  rw [if_neg locking]
  cases drive : s.clock.drive with
  | fallback => rfl
  | stopped => rfl
  | main =>
    by_cases standby : s.clock.fbStandby = true ∧ s.clock.loop = .locked
    · simp [standby]
    · simp [standby]

/-- While a cold lock counts its windows, the fourth good one in a row ends it. -/
theorem State.mainWindow_acquiring (count word : Nat) (loop : s.clock.loop = .acquiring) (windows : s.clock.windows = true) :
    s.mainWindow count word =
      let want := planExpected s.clock.plan
      let dev := max count want - min count want
      let judged := !s.clock.refJudged && 100000 * dev ≤ want
      let good := if dev ≤ 2 then min 4 (s.clock.goodWindows + 1) else 0
      let u := s.onClock fun c => { c with
        words := (word, s.now) :: c.words.take 3, refJudged := c.refJudged || judged, refPresent := c.refPresent || judged, goodWindows := good }
      if good = 4 then u.coldLocked else u := by
  unfold State.mainWindow
  simp only [loop, windows]
  rfl

/-- In lock a window far off its expected count loses it. -/
theorem State.mainWindow_loses (count word : Nat) (loop : s.clock.loop = .locked) (present : s.clock.refPresent = true)
    (judged : s.clock.refJudged = true) (far : 8 < max count (planExpected s.clock.plan) - min count (planExpected s.clock.plan)) :
    s.mainWindow count word = (s.onClock fun c => { c with words := (word, s.now) :: c.words.take 3 }).mainLost := by
  unfold State.mainWindow
  simp only [loop, present, judged, far, Bool.not_true, Bool.false_and, Bool.or_false, Bool.and_true, decide_true, if_true]

end

/-! The rows of the loops, once time has moved on to their tick. -/

section
variable {s : State} {t : Nat}

theorem lockWindowEnd_turns (count word : Nat) {f : State → State} (h : (s.advance t).mainWindow count word = f (s.advance t)) :
    s.TurnsThen (.lockWindowEnd t .main count word) t f :=
  State.event_turnsThen (f := fun v => v.mainWindow count word) rfl h

theorem lockLost_main_turns {f : State → State} (h : (s.advance t).mainLost = f (s.advance t)) : s.TurnsThen (.lockLost t .main) t f :=
  State.event_turnsThen (f := State.mainLost) rfl h

theorem lockLost_fallback_turns {f : State → State} (h : (s.advance t).fallbackLost = f (s.advance t)) : s.TurnsThen (.lockLost t .fallback) t f :=
  State.event_turnsThen (f := State.fallbackLost) rfl h

/-- A finished search goes first in the band cache, in place of the key's old entry (R264). -/
theorem bandSearchDone_turns (band fine gain : Nat) (loop : s.clock.loop = .searching) :
    s.Turns (.bandSearchDone t band fine gain) t fun v => v.onClock fun c =>
      let e : BandEntry := BandEntry.mk (planSource c.plan) (planFreq c.plan) (planScaler c.plan) (band % 64) fine gain v.dieCode
      { c with loop := .acquiring, band := band % 64, fine := fine
               cache := (e :: c.cache.filter fun x => (x.source, x.freq, x.scaler) ≠ planKey c.plan).take 16 } :=
  congrArg Host.Outcome.next (if_neg (not_not_intro loop))

theorem acquisitionDone_turns (loop : s.clock.loop = .acquiring) (idle : s.clock.windows = false) :
    s.Turns (.acquisitionDone t) t fun v => v.onClock fun c => { c with windows := true, goodWindows := 0 } :=
  congrArg Host.Outcome.next (if_pos ⟨loop, idle⟩)

/-- A plan hop that has lasted 100 ms is answered OK (R261). -/
theorem planHopTimeout_turns {start : Nat} (hop : s.clock.hop = some start) (due : start + 2000000000 ≤ max s.now t) :
    s.TurnsThen (.planHopTimeout t) t fun v => (v.onClock fun c => { c with hop := none }).finish .planHop Reply.ok := by
  have hop : (s.advance t).clock.hop = some start := hop
  refine State.event_turnsThen
    (f := fun v => match v.clock.hop with
      | none => v
      | some start => if start + 100 * ms ≤ v.now then v.hopEnds else v) rfl ?_
  rw [hop]
  exact (if_pos due).trans (if_pos (Option.isSome_of_eq_some hop))

end

/-! The common start (R33, R265, R467). -/

section
variable (s : State) (d : CommonDue)

/-- The quads power on as grove time begins; the sync, if any, and HELLO tell of it. -/
theorem State.startCommon_parts : (s.startCommon d).clock = { s.clock with
      off := (d.start : Int) - s.now, t0 := some d.start, drive := .main, commonDue := none, firstDelivered := s.now
      keeper := { s.clock.keeper with count := d.start * 2 ^ 32, noted := s.now } } ∧
    (s.startCommon d).quads = s.quads.map fun q => { q with state := .powering, since := s.now, ticket := 0 } := by
  unfold State.startCommon
  dsimp only
  rw [(sayHello_frame _).rest .clock rfl, (sayHello_frame _).rest .quads rfl]
  cases d.sync with
  | none => exact ⟨rfl, rfl⟩
  | some w => exact ⟨(raise_frame _ _).rest .clock rfl, (raise_frame _ _).rest .quads rfl⟩

theorem State.startCommon_powers (q : Fin 4) : ((s.startCommon d).quads.get q).state = .powering := by
  rw [(s.startCommon_parts d).2]
  exact congrArg Quad.state (Vector.getElem_map _ q.isLt)

variable {s d} {t : Nat}

theorem commonStart_turns (waits : s.clock.commonDue = some d) (due : d.due ≤ max s.now t) (first : s.clock.t0 = none)
    (runs : s.board.boot = .init ∨ s.board.boot = .run) : s.Turns (.commonStart t) t fun v => v.startCommon d := by
  have waits : (s.advance t).clock.commonDue = some d := waits
  have first : (s.advance t).clock.t0 = none := first
  show execCommonStart t s = _
  unfold execCommonStart
  dsimp only
  rw [waits]
  exact congrArg Host.Outcome.next (if_pos ⟨due, by rw [first]; rfl, State.clocksAllowed_of runs⟩)

end

/-! Sync edges and the time limit of a sync (R265, R266). -/

section
variable {s : State} {t : Nat} {w : SyncWait} (sync : s.clock.sync = some w) (runs : s.board.boot = .init ∨ s.board.boot = .run)
  (free : s.clock.commonDue = none) (begun : s.clock.t0.isSome = true ∨ s.clock.loop = .locked)

include runs free begun in
/-- A wait for a sync edge has begun: in INIT once the loop is LOCKED, afterwards at once. -/
theorem State.syncWaits_of : s.syncWaits = true := by
  have begun : (s.clock.t0.isSome || decide (s.clock.loop = .locked)) = true := by simpa using begun
  rw [State.syncWaits, State.clocksAllowed_of runs, begun, free]
  rfl

include sync runs free begun

/-- While a sync waits an edge of REFIN does what its sample of SYNCIN asks for. -/
theorem syncEdge_row (high : Bool) (fraction : BitVec 32) : exec (.syncEdge t high fraction) s = .next (
    let v := s.advance t
    if !high then v.onClock fun c => { c with sync := some { w with lows := w.lows + 1 } }
    else if w.lows < 2 then v
    else if v.clock.t0.isNone then v.onClock fun c => { c with
      sync := none, commonDue := some { due := v.now + 204800, start := w.syncTick, sync := some (w.ticket, 0) } }
    else if v.loadOk && v.clock.slew.isNone then v.syncRealign w fraction.toNat else v) := by
  have sync : (s.advance t).clock.sync = some w := sync
  have waits : (s.advance t).syncWaits = true := State.syncWaits_of (s := s.advance t) runs free begun
  show execSyncEdge t high fraction s = _
  unfold execSyncEdge
  dsimp only
  rw [sync]
  exact congrArg Host.Outcome.next (if_neg (by simp [waits]))

theorem syncEdge_low (fraction : BitVec 32) :
    s.Turns (.syncEdge t false fraction) t fun v => v.onClock fun c => { c with sync := some { w with lows := w.lows + 1 } } :=
  syncEdge_row sync runs free begun false fraction

/-- Before the common start a high sample after two low ones makes it due. -/
theorem syncEdge_starts (fraction : BitVec 32) (lows : 2 ≤ w.lows) (first : s.clock.t0 = none) :
    s.Turns (.syncEdge t true fraction) t fun v => v.onClock fun c =>
      { c with sync := none, commonDue := some { due := v.now + 204800, start := w.syncTick, sync := some (w.ticket, 0) } } := by
  have first : (s.advance t).clock.t0.isNone = true := Option.isNone_iff_eq_none.mpr first
  exact (syncEdge_row sync runs free begun true fraction).trans (congrArg Host.Outcome.next ((if_neg (Nat.not_lt.mpr lows)).trans (if_pos first)))

/-- After it such a sample realigns the grid, where a load may be applied and no slew runs. -/
theorem syncEdge_realigns (fraction : BitVec 32) (lows : 2 ≤ w.lows) (started : s.clock.t0.isSome = true) (slew : s.clock.slew = none)
    (still : s.groups.any Group.live = false) (seq : s.stim.enabled = false) :
    s.Turns (.syncEdge t true fraction) t fun v => v.syncRealign w fraction.toNat := by
  have started : ¬ (s.advance t).clock.t0.isNone = true := ne_true_of_eq_false (Option.isNone_eq_false_iff.mpr started)
  have loads : ((s.advance t).loadOk && (s.advance t).clock.slew.isNone) = true := by
    show (!s.groups.any Group.live && !s.stim.enabled && s.clock.slew.isNone) = true
    rw [still, seq, slew]
    rfl
  exact (syncEdge_row sync runs free begun true fraction).trans
    (congrArg Host.Outcome.next ((if_neg (Nat.not_lt.mpr lows)).trans ((if_neg started).trans (if_pos loads))))

variable (due : w.since + w.timeoutMs * 20000000 ≤ max s.now t)
include due

/-- Past its time limit a sync ends: without an edge the common start is due at once, or the sync is reported failed. -/
theorem syncTimeout_row : exec (.syncTimeout t) s = .next (
    let v := s.advance t
    if v.clock.t0.isNone then v.onClock fun c => { c with
      sync := none, commonDue := some { due := v.now, start := w.syncTick, sync := some (w.ticket, 1) } }
    else (v.onClock fun c => { c with sync := none }).raise { code := 0x0188, vals := [1, 0], ticket := w.ticket }) := by
  have sync : (s.advance t).clock.sync = some w := sync
  have waits : (s.advance t).syncWaits = true := State.syncWaits_of (s := s.advance t) runs free begun
  have late : ¬ (s.advance t).now < w.since + w.timeoutMs * ms := Nat.not_lt.mpr due
  show execSyncTimeout t s = _
  unfold execSyncTimeout
  dsimp only
  rw [sync]
  exact congrArg Host.Outcome.next (if_neg (by simp [waits, late]))

theorem syncTimeout_starts (first : s.clock.t0 = none) : s.Turns (.syncTimeout t) t fun v => v.onClock fun c =>
    { c with sync := none, commonDue := some { due := v.now, start := w.syncTick, sync := some (w.ticket, 1) } } := by
  have first : (s.advance t).clock.t0.isNone = true := Option.isNone_iff_eq_none.mpr first
  exact (syncTimeout_row sync runs free begun due).trans (congrArg Host.Outcome.next (if_pos first))

theorem syncTimeout_fails (started : s.clock.t0.isSome = true) : s.Turns (.syncTimeout t) t fun v =>
    (v.onClock fun c => { c with sync := none }).raise { code := 0x0188, vals := [1, 0], ticket := w.ticket } := by
  have started : ¬ (s.advance t).clock.t0.isNone = true := ne_true_of_eq_false (Option.isNone_eq_false_iff.mpr started)
  exact (syncTimeout_row sync runs free begun due).trans (congrArg Host.Outcome.next (if_neg started))

end

/-- Settles O12: each row by what its operation does where its condition holds. -/
theorem clockLoopEventsTakeEffect : Obligations.ClockLoopEventsTakeEffect := by
  intro s t
  refine ⟨fun count word loop windows => lockWindowEnd_turns count word (State.mainWindow_acquiring (s := s.advance t) count word loop windows),
    fun count word loop present judged far => lockWindowEnd_turns count word (State.mainWindow_loses (s := s.advance t) count word loop present judged far),
    fun loop => lockLost_main_turns (State.mainLost_eq (s := s.advance t) loop), lockLost_fallback_turns rfl,
    fun band fine gain loop => bandSearchDone_turns band fine gain loop, fun loop idle => acquisitionDone_turns loop idle, ?start, ?sync,
    fun start hop due => planHopTimeout_turns hop due⟩
  case start =>
    exact fun d waits due first runs => ⟨commonStart_turns waits due first runs, (State.startCommon_parts _ d).1, State.startCommon_powers _ d⟩
  case sync =>
    exact fun w fraction sync runs free begun => ⟨syncEdge_low sync runs free begun fraction,
      fun lows first => syncEdge_starts sync runs free begun fraction lows first,
      fun lows started slew still seq => syncEdge_realigns sync runs free begun fraction lows started slew still seq,
      fun due => ⟨fun first => syncTimeout_starts sync runs free begun due first, fun started => syncTimeout_fails sync runs free begun due started⟩⟩

end Sys2Proof.Machine
end

section
/-!
The reference, the switches of the phase generator and the keeper (R262, R268 to R275, R278, R281, R285): what each event does in the state given.
-/
namespace Sys2Proof.Machine
open Sys2Proof.Laws

/-! The reference and slews (R268 to R270, R274, R281). -/

section
variable {s : State}

/-- A lost reference: a LOCKED main loop coasts, a fall-back that drives hands back or stops, and a SNAP slew and a foreground run end. -/
theorem State.referenceLost_eq (present : s.clock.refPresent = true) :
    s.referenceLost =
      let word := ((s.clock.words.find? fun x => x.2 + 640000000000000 / planPfd2 s.clock.plan ≤ s.now).map Prod.fst).getD s.clock.coastWord
      let u := (s.onClock fun c => { c with
        refPresent := false, fbStandby := false, refJudged := false, coastWord := word, cnt := { c.cnt with refLosses := c.cnt.refLosses + 1 } }).raise
          { code := 0x0181 }
      let w := if s.clock.loop = .locked then u.onClock fun c => { c with loop := .coasting } else u
      State.runNoRefin <| State.dropSnap <|
        if s.clock.drive ≠ .fallback then w
        else if s.clock.loop = .locked then w.onClock fun c => { c with switch := some (s.beatFrom (s.now + 1), .toMain) }
        else w.scheduleStop := by
  have lost : ¬ (!s.clock.refPresent) = true := by simp [present]
  unfold State.referenceLost
  rw [if_neg lost]
  cases drive : s.clock.drive with
  | main => rfl
  | stopped => rfl
  | fallback => rfl

/-- A returned reference ends coasting; with SNAP a slew takes up the measured step. -/
theorem State.referenceBack_eq (phase offset : Int) (lost : s.clock.refPresent = false) (on : s.clock.loop ≠ .off) :
    s.referenceBack phase offset =
      let u := (s.onClock fun c => { c with
        refPresent := true, refJudged := true, refPhaseStep := phase, refOffset := offset, loop := if c.loop = .coasting then .locked else c.loop }).raise
          { code := 0x0182, vals := [unsigned 64 phase] }
      if planSnap s.clock.plan = false ∨ s.clock.loop ≠ .coasting ∨ phase = 0 then u
      else if s.clock.slew.isSome then u.onClock fun c => { c with snapWaiting := true }
      else u.startSlew .snap (-phase) 0 0 := by
  have returned : ¬ (s.clock.refPresent || decide (s.clock.loop = .off)) = true := by simp [lost, on]
  unfold State.referenceBack
  rw [if_neg returned]
  simp [or_assoc]

/-- A slew that has made its whole amount ends at the tick where it had. -/
theorem State.slewDone_eq {w : Slew} (phase : Int) (slew : s.clock.slew = some w) (whole : w.endsAt ≤ s.now) :
    s.slewDone phase =
      let u := s.endSlew w.endsAt
      if s.clock.snapWaiting = false then u
      else
        let x := u.onClock fun c => { c with snapWaiting := false, refPhaseStep := phase }
        if phase = 0 then x else x.startSlew .snap (-phase) 0 0 := by
  unfold State.slewDone
  rw [slew]
  dsimp only
  rw [if_neg (Nat.not_lt.mpr whole)]
  cases s.clock.snapWaiting <;> rfl

end

/-! The switches of the phase generator (R262, R271 to R274). -/

section
variable {s : State} {t : Nat}

section
variable {x : Nat}

/-- At its boundary a switch to the fall-back is made where that is still in standby, and otherwise the clocks will stop. -/
theorem fallbackSwitch_turns (scheduled : s.clock.switch = some (x, .toFallback)) (due : x ≤ max s.now t) :
    s.Turns (.fallbackSwitch t) t fun v =>
      if s.clock.fbStandby = true then
        ((v.onClock fun c => { c with
          fbStandby := false, drive := .fallback, switch := none, suspect := c.suspect ++ [(x, some x)]
          cnt := { c.cnt with fallbackSwitches := c.cnt.fallbackSwitches + 1 } }).raiseAt { code := 0x0183 } (v.groveAt x)).runNoRefin
      else (v.onClock fun c => { c with switch := none }).scheduleStop := by
  have scheduled : (s.advance t).clock.switch = some (x, .toFallback) := scheduled
  show execFallbackSwitch t s = _
  unfold execFallbackSwitch
  dsimp only
  rw [scheduled]
  exact congrArg Host.Outcome.next (if_neg (Nat.not_lt.mpr due))

/-- The main loop takes the phase generator back at the scheduled boundary, or, LOCKED with none scheduled, at the next one. -/
theorem clockRestore_turns (driven : s.clock.drive = .fallback)
    (takes : s.clock.switch = some (x, .toMain) ∧ x ≤ max s.now t ∨
      s.clock.switch = none ∧ s.clock.loop = .locked ∧ x = (s.advance t).beatFrom (max s.now t)) :
    s.Turns (.clockRestore t) t fun v =>
      (v.onClock fun c => { c with
        drive := .main, switch := none, suspect := c.suspect ++ [(x, some x)], cnt := { c.cnt with fallbackSwitches := c.cnt.fallbackSwitches + 1 } }).raiseAt
          { code := 0x0184 } (v.groveAt x) := by
  have driven : ¬ (s.advance t).clock.drive ≠ .fallback := not_not_intro driven
  show execClockRestore t s = _
  unfold execClockRestore
  dsimp only
  rw [if_neg driven]
  obtain ⟨scheduled, due⟩ | ⟨free, locked, rfl⟩ := takes
  · rw [show (s.advance t).clock.switch = some (x, .toMain) from scheduled]
    exact congrArg Host.Outcome.next (if_neg (Nat.not_lt.mpr due))
  · rw [show (s.advance t).clock.switch = none from free]
    exact congrArg Host.Outcome.next (if_pos locked)

theorem sampleClockStop_turns (scheduled : s.clock.switch = some (x, .stop)) (due : x ≤ max s.now t) :
    s.Turns (.sampleClockStop t) t fun v => v.stopClocks x := by
  have scheduled : (s.advance t).clock.switch = some (x, .stop) := scheduled
  show execSampleClockStop t s = _
  unfold execSampleClockStop
  dsimp only
  rw [scheduled]
  exact congrArg Host.Outcome.next (if_neg (Nat.not_lt.mpr due))

theorem sampleClockRestart_turns (uncertainty : Nat) (scheduled : s.clock.switch = some (x, .restart)) (due : x ≤ max s.now t)
    (runs : s.board.boot = .init ∨ s.board.boot = .run) (loop : s.clock.loop = .locked ∨ s.clock.loop = .coasting) :
    s.Turns (.sampleClockRestart t uncertainty) t fun v => v.restartClocks x uncertainty := by
  have scheduled : (s.advance t).clock.switch = some (x, .restart) := scheduled
  have allowed : (s.advance t).clocksAllowed = true := State.clocksAllowed_of (s := s.advance t) runs
  have late : ¬ (s.advance t).now < x := Nat.not_lt.mpr due
  have loop : (s.advance t).clock.loop = .locked ∨ (s.advance t).clock.loop = .coasting := loop
  show execSampleClockRestart t uncertainty s = _
  unfold execSampleClockRestart
  dsimp only
  rw [scheduled]
  refine congrArg Host.Outcome.next (if_neg ?_)
  obtain loop | loop := loop <;> simp [late, allowed, loop]

end

theorem fallbackStandby_turns (driven : s.clock.drive = .main) (free : s.clock.switch = none) (fallback : planFallback s.clock.plan = true)
    (int : planInteger s.clock.plan = true) (present : s.clock.refPresent = true) :
    s.Turns (.fallbackStandby t) t fun v => v.onClock fun c => { c with fbStandby := true } :=
  congrArg Host.Outcome.next (if_pos ⟨driven, Option.isNone_iff_eq_none.mpr free, fallback, int, present⟩)

end

/-- Stopped clocks have passed grove time to the keeper at the boundary. -/
theorem State.stopClocks_clock (s : State) (x : Nat) : ∃ c : Clock, (s.stopClocks x).clock =
    { c with drive := .stopped, switch := none, fbStandby := false, keeper := { c.keeper with count := s.groveAt x * 2 ^ 32, noted := x } } :=
  ⟨_, (sayHello_frame _).rest .clock rfl⟩

/-- Restarted clocks go on with the grid; the first sample is that of the first grid tick 400,000 ticks on. -/
theorem State.restartClocks_clock (s : State) (x uncertainty : Nat) :
    let g := s.groveAt x
    let tr : Int := (g : Int) + 400000 + ((s.clock.t0.getD 0 - ((g : Int) + 400000)) % 128)
    (s.restartClocks x uncertainty).clock = { s.clock with
      off := (g : Int) - x, drive := .main, switch := none, firstDelivered := (tr - ((g : Int) - x)).toNat } := by
  unfold State.restartClocks
  dsimp only
  rw [(sayHello_frame _).rest .clock rfl, (raiseAt_frame _ _ _).rest .clock rfl]
  rfl

/-! The crystal, the keeper and the re-phasing (R275, R278, R285). -/

section
variable {s : State} {t : Nat}

theorem xoLost_turns (present : s.clock.xoPresent = true) :
    s.TurnsThen (.xoLost t) t fun v => (v.onClock fun c => { c with xoPresent := false, loop := .off, fbStandby := false }).fatal 0x0107 0xF := by
  have lost : ¬ (!(s.advance t).clock.xoPresent) = true := by
    rw [show (s.advance t).clock.xoPresent = true from present]
    decide
  exact State.event_turnsThen (f := fun v => if !v.clock.xoPresent then v
    else (v.onClock fun c => { c with xoPresent := false, loop := .off, fbStandby := false }).fatal 0x0107 0xF) rfl (if_neg lost)

/-- While the sample clocks run the keeper is set to the grid. -/
theorem keeperTrim_turns (step : Nat) (runs : s.clock.drive ≠ .stopped) (started : s.clock.t0.isSome = true) :
    s.Turns (.keeperTrim t step) t fun v => v.onClock fun c => { c with keeper := { count := v.grove64 * 2 ^ 32, noted := v.now, step := step } } :=
  congrArg Host.Outcome.next (if_neg (not_or.mpr ⟨runs, ne_true_of_eq_false (Option.isNone_eq_false_iff.mpr started)⟩))

theorem sqRephaseDone_turns (waits : s.clock.sqRephase = true) :
    s.TurnsThen (.sqRephaseDone t) t fun v => (v.onClock fun c => { c with sqRephase := false }).seqEnabled :=
  State.event_turnsThen (f := fun v => if v.clock.sqRephase then (v.onClock fun c => { c with sqRephase := false }).seqEnabled else v) rfl (if_pos waits)

end

/-- Settles O13: each row by what its operation does where its condition holds. -/
theorem clockSwitchEventsTakeEffect : Obligations.ClockSwitchEventsTakeEffect := by
  intro s t
  refine ⟨fun present => congrArg Host.Outcome.next (State.referenceLost_eq (s := s.advance t) present),
    fun phase offset lost on => congrArg Host.Outcome.next (State.referenceBack_eq (s := s.advance t) phase offset lost on),
    fun w phase slew whole => congrArg Host.Outcome.next (State.slewDone_eq (s := s.advance t) phase slew whole),
    fun x scheduled due => fallbackSwitch_turns scheduled due, fun x driven takes => clockRestore_turns driven takes,
    fun driven free fallback int present => fallbackStandby_turns driven free fallback int present, ?stop,
    fun x uncertainty scheduled due runs loop => ⟨sampleClockRestart_turns uncertainty scheduled due runs loop, State.restartClocks_clock _ x uncertainty⟩,
    fun present => xoLost_turns present, fun step runs started => keeperTrim_turns step runs started, fun waits => sqRephaseDone_turns waits⟩
  case stop =>
    intro x scheduled due v
    obtain ⟨c, clock⟩ := State.stopClocks_clock v x
    refine ⟨sampleClockStop_turns scheduled due, ?_⟩
    rw [clock]
    exact ⟨rfl, rfl, rfl, rfl⟩

end Sys2Proof.Machine
end

section
/-!
The tables of the stimulus sequencer (R287, R288, R292 to R295, R297, R378): what the cards of the setting, segments, list entries and steps find and do, and
the next state where nothing is found against them.
-/
namespace Sys2Proof.Machine
open Sys2Proof.Laws

/-! The entries of a SEQ_LIST_WRITE stand one after another in its payload (R378). -/

theorem structAt_append {a : Bytes} {k : Nat} (h : a.length = k) (n : Nat) (r : Bytes) (off : Nat) : structAt n (a ++ r) (k + off) = structAt n r off :=
  congrArg (BitVec.ofNat n) (leAt_past a r off (n / 8) k h)

/-- The bytes of list entries. -/
def entryBytes (es : List (BitVec 128)) : Bytes := (es.map fun e => leBytes 16 e.toNat).flatten

theorem entryBytes_cons (e : BitVec 128) (es : List (BitVec 128)) : entryBytes (e :: es) = leBytes 16 e.toNat ++ entryBytes es := rfl

theorem entryBytes_length (es : List (BitVec 128)) : (entryBytes es).length = 16 * es.length := by
  induction es with
  | nil => rfl
  | cons e es ih =>
    rw [entryBytes_cons, List.length_append, leBytes_length, ih, List.length_cons]
    omega

theorem entryBytes_structs (es : List (BitVec 128)) : (List.range es.length).map (fun k => structAt 128 (entryBytes es) (16 * k)) = es := by
  induction es with
  | nil => rfl
  | cons e es ih =>
    have later (k : Nat) : structAt 128 (entryBytes (e :: es)) (16 * (k + 1)) = structAt 128 (entryBytes es) (16 * k) := by
      rw [entryBytes_cons, Nat.mul_succ, Nat.add_comm]
      exact structAt_append (leBytes_length ..) _ _ _
    rw [List.length_cons, List.range_succ_eq_map, List.map_cons, List.map_map]
    exact congr (congrArg List.cons (structAt_here 16 e (entryBytes es))) ((List.map_congr_left fun k _ => later k).trans ih)

/-- SEQ_LIST_WRITE brings SELECT, FIRST and the entries. -/
theorem listWrite_payload {select : BitVec 32} (hs : select.toNat < 65536) (first : BitVec 32) (es : List (BitVec 128)) :
    let b := leBytes 4 select.toNat ++ leBytes 4 first.toNat ++ entryBytes es
    b.length = 8 + 16 * es.length ∧ selOk b = true ∧ selIndex b = select.toNat ∧ word b 1 = first.toNat ∧ listEntries b = es := by
  intro b
  have split : b = leBytes 4 select.toNat ++ (leBytes 4 first.toNat ++ entryBytes es) := List.append_assoc ..
  have length : b.length = 8 + 16 * es.length := by simp only [b, List.length_append, leBytes_length, entryBytes_length]
  have count : (b.length - 8) / 16 = es.length := by omega
  refine ⟨length, ?_, ?_, ?_, ?_⟩
  · rw [split, selOk_here _ _ hs]
  · rw [split, selIndex_here _ _ hs]
  · rw [split, word_next, word_here]
  · rw [listEntries, count]
    exact (List.map_congr_left fun k _ => structAt_append (by simp) _ _ _).trans (entryBytes_structs es)

/-- SEQ_LIST_READ brings SELECT, COUNT and FIRST. -/
theorem listRead_payload {select : BitVec 32} (hs : select.toNat < 65536) (count first : BitVec 32) :
    let b := leBytes 4 select.toNat ++ leBytes 4 count.toNat ++ leBytes 4 first.toNat
    selOk b = true ∧ selIndex b = select.toNat ∧ word b 1 = count.toNat ∧ word b 2 = first.toNat := by
  intro b
  rw [show b = leBytes 4 select.toNat ++ (leBytes 4 count.toNat ++ leBytes 4 first.toNat) from List.append_assoc .., selOk_here _ _ hs,
    selIndex_here _ _ hs, word_next, word_here, word_next, word_second]
  exact ⟨rfl, rfl, rfl, rfl⟩

/-! What the cards find and do, for any payload that brings the words given. -/

section
variable {b : Bytes} {cfg : BitVec 128} (hc : structAt 128 b 0 = cfg)
include hc

theorem cardSeqConfig_checks_none {s : State} (off : s.stim.enabled = false) (valid : seqInvalid cfg = false) : (cardSeqConfig b).checks s = none := by
  simp [cardSeqConfig, firstOf, hc, off, valid]

theorem cardSeqConfig_run (h : Hdr) (s : State) : (cardSeqConfig b).run h s = (s.onStim fun q => { q with cfg := cfg }, .done Reply.ok) := by
  simp only [cardSeqConfig, doOk, hc]

end

/-- A change is not judged while the sequencer is off, and passes while it is enabled where its check finds nothing (R297). -/
theorem State.judged_none {s : State} {f : Stim → Stim} (passes : s.stim.enabled = true → (s.onStim f).seqCheck = none) : s.judged f = none :=
  ite_eq_right_iff.mpr passes

section
variable {b : Bytes} {i : Nat} {d : BitVec 128} (hi : selIndex b = i) (hd : structAt 128 b 4 = d)
include hi hd

theorem cardSegmentDefine_checks_none {s : State} (free : s.stim.segActive i = false) (valid : s.stim.segInvalid i d = false)
    (passes : s.stim.enabled = true → (s.onStim fun q => q.define i d).seqCheck = none) : (cardSegmentDefine b).checks s = none := by
  simp [cardSegmentDefine, orElse', firstOf, hi, hd, free, valid, State.judged_none passes]

theorem cardSegmentDefine_run (h : Hdr) (s : State) : (cardSegmentDefine b).run h s = (s.onStim fun q => q.define i d, .done Reply.ok) := by
  simp only [cardSegmentDefine, doOk, hi, hd]

theorem cardStepWrite_checks_none {s : State} (known : i < 1024) (free : s.stim.stepActive i = false) (within : stepSegment d + stepRing d ≤ 4096)
    (passes : s.stim.enabled = true → (s.onStim fun q => { q with steps := putAssoc q.steps i d }).seqCheck = none) :
    (cardStepWrite b).checks s = none := by
  have valid : stepInvalid i d = false := by simp [stepInvalid, known, within]
  simp [cardStepWrite, orElse', firstOf, hi, hd, free, valid, State.judged_none passes]

theorem cardStepWrite_run (h : Hdr) (s : State) :
    (cardStepWrite b).run h s = (s.onStim fun q => { q with steps := putAssoc q.steps i d }, .done Reply.ok) := by
  simp only [cardStepWrite, doOk, hi, hd]

end

section
variable {b : Bytes} {i first count : Nat} {es : List (BitVec 128)}

theorem cardListWrite_reserved (sel : selOk b = true) (hes : listEntries b = es) (clear : ∀ e ∈ es, fld e 2 2 = 0) : (cardListWrite b).reservedOk = true := by
  simpa [cardListWrite, sel, hes, zeroFields] using clear

theorem cardListRead_reserved (sel : selOk b = true) (hn : word b 1 = count) (most : count < 256) : (cardListRead b).reservedOk = true := by
  simp [cardListRead, sel, hn, most]

variable (hi : selIndex b = i)
include hi

theorem cardSegmentReady_checks_none {s : State} (free : s.stim.segActive i = false) (stream : segKind (s.stim.seg i) = 2) :
    (cardSegmentReady b).checks s = none := by
  simp [cardSegmentReady, firstOf, hi, free, stream]

theorem cardSegmentReady_run {crc : Nat} (hc : word b 1 = crc) (h : Hdr) (s : State) : (cardSegmentReady b).run h s =
    (s.onStim fun q => { q with readback := q.readback ++ [(i, crc)] }, .held (.readback i)) := by
  simp only [cardSegmentReady, hi, hc]

section
variable (hf : word b 1 = first) (hes : listEntries b = es)
include hf hes

theorem cardListWrite_checks_none {s : State} (free : s.stim.segActive i = false) (within : s.stim.listOk i first es.length = true) :
    (cardListWrite b).checks s = none := by
  simp [cardListWrite, firstOf, hi, hf, hes, free, within]

theorem cardListWrite_run (h : Hdr) (s : State) : (cardListWrite b).run h s =
    (s.onStim fun q =>
      let d := q.seg i
      let q1 := q.putEntries (segFirst d + first) es
      { q1 with segs := putAssoc q1.segs i (withUpdates d (q1.sumUpdates d)) }, .done Reply.ok) := by
  simp only [cardListWrite, doOk, hi, hf, hes]

end

section
variable (hn : word b 1 = count) (hf : word b 2 = first)
include hn hf

theorem cardListRead_checks_none {s : State} (least : 1 ≤ count) (within : s.stim.listOk i first count = true) : (cardListRead b).checks s = none := by
  simp [cardListRead, firstOf, hi, hn, hf, within, Nat.ne_of_gt least]

theorem cardListRead_run (h : Hdr) (s : State) : (cardListRead b).run h s =
    (s, .done (Reply.ok ((List.range count).map fun k => leBytes 16 (s.segEntry i (first + k)).toNat).flatten)) := by
  simp only [cardListRead, hi, hn, hf]

end
end

/-! The rows, heard where nothing is against them. -/

section
variable {s : State} {h : Hdr} (he : s.engineState ∈ setT)
include he

theorem State.Hears.seqConfig (k : s.Hears h 0x0901) {cfg : BitVec 128} (h1 : fld cfg 6 2 = 0) (h2 : fld cfg 2 2 = 0) (off : s.stim.enabled = false)
    (valid : seqInvalid cfg = false) :
    s.Does (.seqConfig h cfg) h 0x0901 (leBytes 16 cfg.toNat) Reply.ok fun u => u.onStim fun q => { q with cfg := cfg } := by
  have hc := structAt_only 16 cfg
  have reserved : (cardSeqConfig (leBytes 16 cfg.toNat)).reservedOk = true := by
    show zeroFields (structAt (8 * 16) (leBytes 16 cfg.toNat) 0) _ = true
    rw [hc]
    simp [zeroFields, h1, h2]
  exact (k.unmarked_passes rfl rfl (by decide) (by simp) ⟨rfl, rfl, rfl⟩ rfl reserved (by simp [cardSeqConfig]) he rfl
    (cardSeqConfig_checks_none (s := s.heard h _ _) hc off valid) (cardSeqConfig_frame _ h) rfl).does (cardSeqConfig_run hc h _)

theorem State.Hears.seqSegmentDefine (k : s.Hears h 0x0902) {select : BitVec 32} {d : BitVec 128} (known : select.toNat < 4096) (h1 : flag d 0 = false)
    (free : s.stim.segActive select.toNat = false) (valid : s.stim.segInvalid select.toNat d = false)
    (passes : s.stim.enabled = true → (s.onStim fun q => q.define select.toNat d).seqCheck = none) :
    s.Does (.seqSegmentDefine h select d) h 0x0902 (leBytes 4 select.toNat ++ leBytes 16 d.toNat) Reply.ok fun u =>
      u.onStim fun q => q.define select.toNat d := by
  have hi := selIndex_here select (leBytes 16 d.toNat) (by omega)
  have hd := structAt_past 16 select d
  exact ((cardSegmentDefine_selects _).passes k rfl rfl rfl (by decide) (by simp) rfl (cardSegmentDefine_frame _ h) (by simp [cardSegmentDefine])
    (reserved_clear 16 (f := (!flag · 0)) (by omega) (by simp [h1])) he rfl
    (cardSegmentDefine_checks_none (s := s.heard h _ _) hi hd free valid passes)).does (cardSegmentDefine_run hi hd h _)

theorem State.Hears.seqStepWrite (k : s.Hears h 0x0905) {select : BitVec 32} {t : BitVec 128} (known : select.toNat < 1024) (h1 : fld t 88 4 = 0)
    (h2 : fld t 0 57 = 0) (free : s.stim.stepActive select.toNat = false) (within : stepSegment t + stepRing t ≤ 4096)
    (passes : s.stim.enabled = true → (s.onStim fun q => { q with steps := putAssoc q.steps select.toNat t }).seqCheck = none) :
    s.Does (.seqStepWrite h select t) h 0x0905 (leBytes 4 select.toNat ++ leBytes 16 t.toNat) Reply.ok fun u =>
      u.onStim fun q => { q with steps := putAssoc q.steps select.toNat t } := by
  have hi := selIndex_here select (leBytes 16 t.toNat) (by omega)
  have hd := structAt_past 16 select t
  exact (k.unmarked_passes rfl rfl (by decide) (by simp) ⟨rfl, rfl, rfl⟩ rfl
    (reserved_clear 16 (f := (zeroFields · [(88, 4), (0, 57)])) (by omega) (by simp [zeroFields, h1, h2])) (by simp [cardStepWrite]) he rfl
    (cardStepWrite_checks_none (s := s.heard h _ _) hi hd known free within passes) (cardStepWrite_frame _ h) rfl).does (cardStepWrite_run hi hd h _)

theorem State.Hears.seqListWrite (k : s.Hears h 0x0903) {select first : BitVec 32} {es : List (BitVec 128)} (hs : select.toNat < 65536)
    (least : 1 ≤ es.length) (most : es.length ≤ 255) (clear : ∀ e ∈ es, fld e 2 2 = 0) (free : s.stim.segActive select.toNat = false)
    (within : s.stim.listOk select.toNat first.toNat es.length = true) :
    s.Does (.seqListWrite h select first es) h 0x0903 (leBytes 4 select.toNat ++ leBytes 4 first.toNat ++ entryBytes es) Reply.ok fun u =>
      u.onStim fun q =>
        let d := q.seg select.toNat
        let q1 := q.putEntries (segFirst d + first.toNat) es
        { q1 with segs := putAssoc q1.segs select.toNat (withUpdates d (q1.sumUpdates d)) } := by
  obtain ⟨length, sel, hi, hf, hes⟩ := listWrite_payload hs first es
  have size : (cardListWrite (leBytes 4 select.toNat ++ leBytes 4 first.toNat ++ entryBytes es)).sizeOk = true := by
    simp only [cardListWrite, length, Bool.and_eq_true, decide_eq_true_eq]
    omega
  exact (k.unmarked_passes rfl rfl (by decide) (by omega) ⟨rfl, rfl, rfl⟩ rfl (cardListWrite_reserved sel hes clear) size he rfl
    (cardListWrite_checks_none (s := s.heard h _ _) hi hf hes free within) (cardListWrite_frame _ h) rfl).does (cardListWrite_run hi hf hes h _)

theorem State.Hears.seqListRead (k : s.Hears h 0x0983) {select count first : BitVec 32} (hs : select.toNat < 65536) (least : 1 ≤ count.toNat)
    (most : count.toNat < 256) (within : s.stim.listOk select.toNat first.toNat count.toNat = true) :
    s.Does (.seqListRead h select count first) h 0x0983 (leBytes 4 select.toNat ++ leBytes 4 count.toNat ++ leBytes 4 first.toNat)
      (Reply.ok ((List.range count.toNat).map fun k => leBytes 16 (s.segEntry select.toNat (first.toNat + k)).toNat).flatten) id := by
  obtain ⟨sel, hi, hn, hf⟩ := listRead_payload hs count first
  exact (k.unmarked_passes rfl rfl (by decide) (by simp) ⟨rfl, rfl, rfl⟩ rfl (cardListRead_reserved sel hn most) (by simp [cardListRead]) he rfl
    (cardListRead_checks_none (s := s.heard h _ _) hi hn hf least within) (cardListRead_frame _ h) rfl).does (cardListRead_run hi hn hf h _)

theorem State.Hears.seqSegmentReady (k : s.Hears h 0x0904) {select crc : BitVec 32} (hs : select.toNat < 65536)
    (free : s.stim.segActive select.toNat = false) (stream : segKind (s.stim.seg select.toNat) = 2) :
    s.Holds (.seqSegmentReady h select crc) h 0x0904 (leBytes 4 select.toNat ++ leBytes 4 crc.toNat) (.readback select.toNat) fun u =>
      u.onStim fun q => { q with readback := q.readback ++ [(select.toNat, crc.toNat)] } := by
  have hi := selIndex_here select (leBytes 4 crc.toNat) hs
  exact (k.unmarked_passes rfl rfl (by decide) (by simp) ⟨rfl, rfl, rfl⟩ rfl (selOk_here select _ hs) (by simp [cardSegmentReady]) he rfl
    (cardSegmentReady_checks_none (s := s.heard h _ _) hi free stream) (cardSegmentReady_frame _ h) rfl).holds
    (cardSegmentReady_run hi (word_second select crc) h _)

end

/-- Settles O8: the cards of the six commands, each where it finds nothing against the command. -/
theorem stimulusTablesAreWritten : Obligations.StimulusTablesAreWritten := fun _ _ he =>
  ⟨fun _ k h1 h2 off valid => k.seqConfig he h1 h2 off valid,
    fun _ _ k known h1 free valid passes => k.seqSegmentDefine he known h1 free valid passes,
    fun _ _ _ k hs least most clear free within => k.seqListWrite he hs least most clear free within,
    fun _ _ _ k hs least most within => k.seqListRead he hs least most within,
    fun _ _ k hs free stream => k.seqSegmentReady he hs free stream,
    fun _ _ k known h1 h2 free within passes => k.seqStepWrite he known h1 h2 free within passes⟩

end Sys2Proof.Machine
end

section
/-!
The control of the stimulus sequencer (R297 to R302, R378, R379): what the cards of SEQ_ENABLE, SEQ_START, SEQ_STOP and SEQ_JUMP find and do, and the next
state where nothing is found against them.
-/
namespace Sys2Proof.Machine
open Sys2Proof.Laws

/-! What a stop does to a channel (R300). -/

section
variable {s : State} {c : Fin 2}

theorem State.stopNow_waiting (waits : (s.stim.chs.get c).state = .waiting) :
    s.stopNow c = (s.onCh c fun k => { k with state := .idle, lastEnd := .stopped, decided := [] }, s.grove64) := by
  simp only [State.stopNow, waits]

theorem State.stopBoundary_waiting (waits : (s.stim.chs.get c).state = .waiting) : s.stopBoundary c = s.stopNow c := by
  simp only [State.stopBoundary, waits]

theorem State.stopNow_playing (plays : (s.stim.chs.get c).state = .playing) (first : (s.stim.chs.get c).stopRamp = none) :
    s.stopNow c = (s.onCh c fun k => { k with stopRamp := some (k.stopRamp.getD (dacFrom (s.grove64 + 4096), 0)) },
      dacTick (dacFrom (s.grove64 + 4096) + 64 * seqPeriod s.stim.cfg c.val)) := by
  simp only [State.stopNow, plays, first, Option.map_none, Option.getD_none]

theorem State.stops_silent (silent : (s.stim.chs.get c).state = .off ∨ (s.stim.chs.get c).state = .idle) :
    s.stopNow c = (s, 0) ∧ s.stopBoundary c = (s, 0) := by
  obtain off | idle := silent
  · simp only [State.stopNow, State.stopBoundary, off, and_self]
  · simp only [State.stopNow, State.stopBoundary, idle, and_self]

end

/-! SEQ_ENABLE (R297, R298): its two rows force ENABLE, bit 0, the only bit of a word of at most 1. -/

/-- ENABLE forced on and off. -/
theorem enableWord {w : BitVec 32} (hw : w.toNat ≤ 1) : w ||| 1#32 = 1#32 ∧ w &&& 0xFFFFFFFE#32 = 0#32 := by
  obtain rfl | rfl : w = 0#32 ∨ w = 1#32 := by bv_omega
  · decide
  · decide

section
variable {s : State} {b : Bytes}

theorem cardSeqEnable_checks_none (ok : s.stim.enabled = true ∨ s.seqCheck = none) : (cardSeqEnable b).checks s = none :=
  ite_eq_left_iff.mpr fun off => ok.resolve_left off

variable (h : Hdr)

theorem cardSeqEnable_run_enabled (on : s.stim.enabled = true) : (cardSeqEnable b).run h s = (s, .done Reply.ok) := if_pos on

theorem cardSeqEnable_run_free (off : s.stim.enabled = false) (grains : s.seqRegrains = []) (phased : s.clock.sqRephase = false) :
    (cardSeqEnable b).run h s = ((s.onStim fun q => { q with enabled := true }).seqIdle, .done Reply.ok) := by
  simp [cardSeqEnable, off, grains, phased]

theorem cardSeqEnable_run_waits (off : s.stim.enabled = false) (waits : s.seqRegrains ≠ [] ∨ s.clock.sqRephase = true) :
    (cardSeqEnable b).run h s = (s.onStim fun q => { q with enabled := true }, .held .seqEnable) := by
  have held : ¬ (s.seqRegrains.isEmpty && !s.clock.sqRephase) = true := by
    simpa using fun grains => waits.resolve_left (not_not_intro grains)
  exact (if_neg (ne_true_of_eq_false off)).trans (if_neg held)

end

theorem cardSeqDisable_checks_none {s : State} (silent : ∀ c : Fin 2, (s.stim.chs.get c).state = .off ∨ (s.stim.chs.get c).state = .idle) (b : Bytes) :
    (cardSeqDisable b).checks s = none := by
  have free : two.find? (fun c => (s.stim.chs.get c).state = .waiting || (s.stim.chs.get c).state = .playing) = none := by
    refine List.find?_eq_none.mpr fun c _ => ?_
    obtain off | idle := silent c
    · simp [off]
    · simp [idle]
  exact congrArg (Option.map _) free

/-! SEQ_START (R299, R379), for any payload that brings the words of w. -/

/-- The words of a SEQ_START. -/
theorem startWord_fields (w : BitVec 128) : word (leBytes 16 w.toNat) 0 = fld w 0 32 ∧ (∀ j < 32, bit (word (leBytes 16 w.toNat) 0) j = flag w j) ∧
    (∀ c : Fin 2, startStep (leBytes 16 w.toNat) c = fld w (32 + 16 * c.val) 16) ∧ leAt (leBytes 16 w.toNat) 8 8 = fld w 64 64 := by
  have low : word (leBytes 16 w.toNat) 0 = fld w 0 32 := leAt_field 16 _ 0 4 (by decide)
  refine ⟨low, fun j hj => ?_, fun c => ?_, leAt_field 16 _ 8 8 (by decide)⟩
  · rw [low, flag, bit_testBit, bit_testBit, fld, bits, Nat.testBit_mod_two_pow, decide_eq_true hj, Bool.true_and, Nat.shiftRight_zero]
  · rw [startStep, leAt_field 16 _ _ 2 (by omega), Nat.mul_add, ← Nat.mul_assoc]
    rfl

/-- A mask of two bits other than 0 names a channel. -/
theorem two_any_flag {n : Nat} {w : BitVec n} (h : fld w 0 2 ≠ 0) : ∃ c : Fin 2, flag w c.val = true := by
  refine Decidable.byContradiction fun unset => h (Nat.eq_of_testBit_eq fun i => ?_)
  rw [fld, bits, Nat.shiftRight_zero, Nat.testBit_mod_two_pow, Nat.zero_testBit]
  by_cases hi : i < 2
  · have clear : bit w.toNat i = false := Bool.eq_false_iff.mpr fun set => unset ⟨⟨i, hi⟩, set⟩
    rw [← bit_testBit, clear, Bool.and_false]
  · rw [decide_eq_false hi, Bool.false_and]

theorem mem_two : ∀ c : Fin 2, c ∈ two := by decide

section
variable {b : Bytes} {w : BitVec 128} (hm : chMask b = fun c => flag w c.val) (hs : ∀ c : Fin 2, startStep b c = fld w (32 + 16 * c.val) 16)
  (ha : bit (word b 0) 8 = flag w 8) (ht : leAt b 8 8 = fld w 64 64)
include hm hs ha ht

theorem cardSeqStart_reserved (only : onlyBits (word b 0) 0x103 = true) (now : flag w 8 = false → fld w 64 64 = 0)
    (others : ∀ c : Fin 2, flag w c.val = false → fld w (32 + 16 * c.val) 16 = 0) : (cardSeqStart b).reservedOk = true := by
  have tick : (flag w 8 || decide (fld w 64 64 = 0)) = true := by
    cases at_ : flag w 8 with
    | true => rfl
    | false => exact decide_eq_true (now at_)
  have steps : (two.all fun c => flag w c.val || decide (fld w (32 + 16 * c.val) 16 = 0)) = true := by
    refine List.all_eq_true.mpr fun c _ => ?_
    cases on : flag w c.val with
    | true => rfl
    | false => exact decide_eq_true (others c on)
  simp only [cardSeqStart, hm, hs, ha, ht, only, tick, steps, Bool.and_self]

theorem cardSeqStart_checks_none {s : State} (named : fld w 0 2 ≠ 0)
    (ready : ∀ c : Fin 2, flag w c.val = true → (s.stim.chs.get c).state = .idle ∧ (assoc s.stim.steps (fld w (32 + 16 * c.val) 16)).isSome = true)
    (ahead : flag w 8 = true → 4096 ≤ signed 64 (unsigned 64 ((fld w 64 64 : Int) - s.grove64))) : (cardSeqStart b).checks s = none := by
  have idle : (two.find? fun c => flag w c.val && decide ((s.stim.chs.get c).state ≠ .idle)) = none :=
    List.find?_eq_none.mpr fun c _ => by simpa using fun on => (ready c on).1
  have chosen : (two.all fun c => !flag w c.val) = false := by
    obtain ⟨c, on⟩ := two_any_flag named
    exact List.all_eq_false.mpr ⟨c, mem_two c, by simp [on]⟩
  have defined : (two.any fun c => flag w c.val && (assoc s.stim.steps (fld w (32 + 16 * c.val) 16)).isNone) = false :=
    List.any_eq_false.mpr fun c _ => by simpa [Option.isSome_iff_ne_none] using fun on => (ready c on).2
  have far : (flag w 8 && decide (signed 64 (unsigned 64 ((fld w 64 64 : Int) - s.grove64)) < 4096)) = false := by
    simpa using ahead
  simp only [cardSeqStart, orElse', firstOf, hm, hs, ha, ht, idle, chosen, defined, far, Option.map_none, Bool.false_eq_true, if_false]

theorem cardSeqStart_run (h : Hdr) (s : State) : (cardSeqStart b).run h s =
    (let n := dacFrom (if flag w 8 then fld w 64 64 else s.grove64 + 4096)
     (s.each (two.filter fun c => flag w c.val) fun v c => v.onCh c fun k => { k with
        state := .waiting, startAt := n, startStep := fld w (32 + 16 * c.val) 16, judgeAt := v.grove64 + 4096, decided := [] },
      .done (Reply.ok (leBytes 8 (dacTick n))))) := by
  simp only [cardSeqStart, hm, hs, ha, ht]

end

/-! SEQ_STOP (R300, R378): its two rows force MODE, bit 8. -/

/-- The words that CH_MASK and MODE make. -/
def stopWords : List (BitVec 32) := [0, 1, 2, 3, 0x100, 0x101, 0x102, 0x103]

theorem mem_stopWords {w : BitVec 32} (reserved : fld w 2 6 = 0) (small : w.toNat < 512) : w ∈ stopWords := by
  have reserved : w.toNat / 4 % 64 = 0 := by rwa [fld, bits, Nat.shiftRight_eq_div_pow] at reserved
  simp only [stopWords, List.mem_cons, List.not_mem_nil, or_false]
  bv_omega

/-- The word of a SEQ_STOP_NOW row: MODE is clear, and the channels are those of the word given. -/
theorem stopNowWord_fields : ∀ w ∈ stopWords, onlyBits (w &&& 0xFFFFFEFF#32).toNat 0x103 = true ∧ bit (w &&& 0xFFFFFEFF#32).toNat 8 = false ∧
    ∀ c : Fin 2, bit (w &&& 0xFFFFFEFF#32).toNat c.val = flag w c.val := by
  simp only [stopWords, List.forall_mem_cons, List.not_mem_nil, false_imp_iff, implies_true, and_true]
  decide

/-- The word of a SEQ_STOP_BOUNDARY row: MODE is set, and the channels are those of the word given. -/
theorem stopBoundaryWord_fields : ∀ w ∈ stopWords, onlyBits (w ||| 0x100#32).toNat 0x103 = true ∧ bit (w ||| 0x100#32).toNat 8 = true ∧
    ∀ c : Fin 2, bit (w ||| 0x100#32).toNat c.val = flag w c.val := by
  simp only [stopWords, List.forall_mem_cons, List.not_mem_nil, false_imp_iff, implies_true, and_true]
  decide

theorem chMask_word {v w : BitVec 32} (same : ∀ c : Fin 2, bit v.toNat c.val = flag w c.val) : chMask (leBytes 4 v.toNat) = fun c => flag w c.val :=
  funext fun c => (congrArg (bit · c.val) (word_only v)).trans (same c)

theorem stopBoth_eq {b : Bytes} {w : BitVec 32} (hm : chMask b = fun c => flag w c.val) (f : State → Fin 2 → State × Nat) (s : State) :
    stopBoth b f s =
      (let x := if flag w 0 then f s 0 else (s, 0)
       let y := if flag w 1 then f x.1 1 else (x.1, 0)
       (y.1, .done (Reply.ok (leBytes 8 x.2 ++ leBytes 8 y.2)))) := by
  simp only [stopBoth, hm]
  rfl

/-! SEQ_JUMP (R301, R302), for any payload whose word names channel c. -/

section
variable {b : Bytes} {c : Fin 2} (hc : word b 0 = c.val) {s : State} {d : Decision} (at_ : s.requestAt c = d)
include hc at_

theorem cardSeqJump_checks_none (plays : (s.stim.chs.get c).state = .playing) (goesOn : d.ends = false)
    (jumps : stepByCommand (s.stim.step d.step) = true) : (cardSeqJump b).checks s = none := by
  simp [cardSeqJump, firstOf, hc, at_, plays, goesOn, jumps]

theorem cardSeqJump_run (h : Hdr) : (cardSeqJump b).run h s =
    (s.onCh c fun k => { k with jumpSeq := some (d.seq + 1) },
     .done (Reply.ok (leBytes 8 (d.seq + 1) ++ leBytes 8 (dacTick (d.nextAt (seqPeriod s.stim.cfg c.val))) ++
       leBytes 2 (stepTarget (s.stim.step d.step)) ++ zeros 6))) := by
  simp only [cardSeqJump, hc, Fin.ofNat_val_eq_self, at_]

end

/-! The rows, heard where nothing is against them. -/

section
variable {s : State} {h : Hdr} (he : s.engineState ∈ setT)
include he

theorem State.Hears.seqEnable_passes (k : s.Hears h 0x0906) {w : BitVec 32} (hw : w.toNat ≤ 1) (ok : s.stim.enabled = true ∨ s.seqCheck = none) :
    s.Passes (.seqEnable h w) h 0x0906 (leBytes 4 1) (cardSeqEnable (leBytes 4 1)) [.stim] :=
  have row := congrArg (fun v : BitVec 32 => Host.Outcome.next (s.command h 0x0906 (leBytes 4 v.toNat))) (enableWord hw).1
  k.word_passes (v := 1#32) row rfl (by decide) ⟨rfl, rfl, rfl⟩ rfl (fun _ => rfl) rfl rfl he
    (cardSeqEnable_checks_none (s := s.heard h _ _) ok) (cardSeqEnable_frame _ h) rfl

theorem State.Hears.seqDisable_passes (k : s.Hears h 0x0906) {w : BitVec 32} (hw : w.toNat ≤ 1)
    (silent : ∀ c : Fin 2, (s.stim.chs.get c).state = .off ∨ (s.stim.chs.get c).state = .idle) :
    s.Passes (.seqDisable h w) h 0x0906 (leBytes 4 0) (cardSeqDisable (leBytes 4 0)) [.stim] :=
  have row := congrArg (fun v : BitVec 32 => Host.Outcome.next (s.command h 0x0906 (leBytes 4 v.toNat))) (enableWord hw).2
  k.word_passes (v := 0#32) row rfl (by decide) ⟨rfl, rfl, rfl⟩ rfl (fun _ => rfl) rfl rfl he
    (cardSeqDisable_checks_none (s := s.heard h _ _) silent _) (cardSeqDisable_frame _ h) rfl

theorem State.Hears.seqStart (k : s.Hears h 0x0907) {w : BitVec 128} (only : onlyBits (fld w 0 32) 0x103 = true)
    (now : flag w 8 = false → fld w 64 64 = 0) (named : fld w 0 2 ≠ 0)
    (others : ∀ c : Fin 2, flag w c.val = false → fld w (32 + 16 * c.val) 16 = 0)
    (ready : ∀ c : Fin 2, flag w c.val = true → (s.stim.chs.get c).state = .idle ∧ (assoc s.stim.steps (fld w (32 + 16 * c.val) 16)).isSome = true)
    (ahead : flag w 8 = true → 4096 ≤ signed 64 (unsigned 64 ((fld w 64 64 : Int) - (s.advance h.tick).grove64))) :
    let n := dacFrom (if flag w 8 then fld w 64 64 else (s.advance h.tick).grove64 + 4096)
    s.Does (.seqStart h w) h 0x0907 (leBytes 16 w.toNat) (Reply.ok (leBytes 8 (dacTick n))) fun u =>
      u.each (two.filter fun c => flag w c.val) fun v c => v.onCh c fun k => { k with
        state := .waiting, startAt := n, startStep := fld w (32 + 16 * c.val) 16, judgeAt := v.grove64 + 4096, decided := [] } := by
  obtain ⟨low, flags, hs, ht⟩ := startWord_fields w
  have hm : chMask (leBytes 16 w.toNat) = fun c => flag w c.val := funext fun c => flags c.val (by omega)
  have ha := flags 8 (by decide)
  rw [← low] at only
  exact (k.unmarked_passes rfl rfl (by decide) (by simp) ⟨rfl, rfl, rfl⟩ rfl (cardSeqStart_reserved hm hs ha ht only now others)
    (decide_eq_true (leBytes_length 16 w.toNat)) he rfl (cardSeqStart_checks_none (s := s.heard h _ _) hm hs ha ht named ready ahead) (cardSeqStart_frame _ h) rfl).does
    (cardSeqStart_run hm hs ha ht h _)

theorem State.Hears.seqStopNow (k : s.Hears h 0x0908) {w : BitVec 32} (hw : w ∈ stopWords) :
    let b := leBytes 4 (w &&& 0xFFFFFEFF#32).toNat
    let x := if flag w 0 then (s.heard h 0x0908 b).stopNow 0 else (s.heard h 0x0908 b, 0)
    let y := if flag w 1 then x.1.stopNow 1 else (x.1, 0)
    s.Does (.seqStopNow h w) h 0x0908 b (Reply.ok (leBytes 8 x.2 ++ leBytes 8 y.2)) fun _ => y.1 := by
  intro b x y
  obtain ⟨reserved, mode, same⟩ := stopNowWord_fields w hw
  rw [← word_only (w &&& 0xFFFFFEFF#32)] at reserved mode
  exact (k.word_passes rfl (congrArg some (if_neg (ne_true_of_eq_false mode))) (by decide) ⟨rfl, rfl, rfl⟩ rfl (fun _ => rfl) reserved
    (by simp [cardSeqStopNow]) he rfl (cardSeqStopNow_frame _ h) rfl).does (stopBoth_eq (chMask_word same) State.stopNow _)

theorem State.Hears.seqStopBoundary (k : s.Hears h 0x0908) {w : BitVec 32} (hw : w ∈ stopWords) :
    let b := leBytes 4 (w ||| 0x100#32).toNat
    let x := if flag w 0 then (s.heard h 0x0908 b).stopBoundary 0 else (s.heard h 0x0908 b, 0)
    let y := if flag w 1 then x.1.stopBoundary 1 else (x.1, 0)
    s.Does (.seqStopBoundary h w) h 0x0908 b (Reply.ok (leBytes 8 x.2 ++ leBytes 8 y.2)) fun _ => y.1 := by
  intro b x y
  obtain ⟨reserved, mode, same⟩ := stopBoundaryWord_fields w hw
  rw [← word_only (w ||| 0x100#32)] at reserved mode
  exact (k.word_passes rfl (congrArg some (if_pos mode)) (by decide) ⟨rfl, rfl, rfl⟩ rfl (fun _ => rfl) reserved
    (by simp [cardSeqStopBoundary]) he rfl (cardSeqStopBoundary_frame _ h) rfl).does (stopBoth_eq (chMask_word same) State.stopBoundary _)

theorem State.Hears.seqJump (k : s.Hears h 0x0909) {w : BitVec 32} {c : Fin 2} (hw : w.toNat = c.val) (plays : (s.stim.chs.get c).state = .playing)
    {d : Decision} (at_ : (s.advance h.tick).requestAt c = d) (goesOn : d.ends = false) (jumps : stepByCommand (s.stim.step d.step) = true) :
    s.Does (.seqJump h w) h 0x0909 (leBytes 4 w.toNat)
      (Reply.ok (leBytes 8 (d.seq + 1) ++ leBytes 8 (dacTick (d.nextAt (seqPeriod s.stim.cfg c.val))) ++ leBytes 2 (stepTarget (s.stim.step d.step)) ++ zeros 6))
      fun u => u.onCh c fun k => { k with jumpSeq := some (d.seq + 1) } := by
  have hc := (word_only w).trans hw
  have reserved : (cardSeqJump (leBytes 4 w.toNat)).reservedOk = true := by
    show decide (word _ 0 ≤ 1) = true
    rw [hc]
    exact decide_eq_true (by omega)
  exact (k.word_passes rfl rfl (by decide) ⟨rfl, rfl, rfl⟩ rfl (fun _ => rfl) reserved (by simp [cardSeqJump]) he
    (cardSeqJump_checks_none (s := s.heard h _ _) hc at_ plays goesOn jumps) (cardSeqJump_frame _ h) rfl).does (cardSeqJump_run (s := s.heard h _ _) hc at_ h)

end

/-- Settles O9: the cards of the five commands, each where it finds nothing against the command, and what a stop does in each state of a channel. -/
theorem stimulusControlTakesEffect : Obligations.StimulusControlTakesEffect := by
  intro s h he
  refine ⟨fun w k hw => ⟨?_, ?_, ?_⟩, fun w k hw silent => (k.seqDisable_passes he hw silent).does rfl,
    fun w k only now named others ready ahead => k.seqStart he only now named others ready ahead,
    fun w k reserved small => k.seqStopNow he (mem_stopWords reserved small), fun w k reserved small => k.seqStopBoundary he (mem_stopWords reserved small),
    fun w c k hw plays => k.seqJump he hw plays rfl,
    fun c => ⟨fun waits => ⟨State.stopNow_waiting waits, State.stopBoundary_waiting waits⟩, State.stopNow_playing, State.stops_silent⟩⟩
  · exact fun on => (k.seqEnable_passes he hw (.inl on)).does (cardSeqEnable_run_enabled (s := s.heard h _ _) h on)
  · exact fun off ok grains phased => (k.seqEnable_passes he hw (.inr ok)).does (cardSeqEnable_run_free (s := s.heard h _ _) h off grains phased)
  · exact fun off ok waits => (k.seqEnable_passes he hw (.inr ok)).holds (cardSeqEnable_run_waits (s := s.heard h _ _) h off waits)

end Sys2Proof.Machine
end

section
/-!
The events of the stimulus sequencer (R291, R294, R296, R299 to R301, R304 to R306): what a channel does once its DAC instant is reached, and the read-back
of a segment.
-/
namespace Sys2Proof.Machine

/-! Starts and decision points (R299, R301). -/

section
variable {s : State} {t : Nat} {c : Fin 2} {k : StimCh} {p : Nat} (channel : s.stim.chs.get c = k) (period : seqPeriod s.stim.cfg c.val = p)
include channel

include period in
/-- A waiting channel begins at its start instant, with the iteration decided for it, everything of the channel at its start values. -/
theorem stimStartInstant_turns (waits : k.state = .waiting) (due : (s.advance t).reached k.startAt = true) :
    s.Turns (.stimStartInstant t c) t fun u => (u.onCh c fun x => { x with
      state := .playing, underrun := false, lastEnd := .none, fresh := true, acc := 0, accAt := k.startAt, freq := 0, phase := 0, ampl := 0, decided := []
      lastDp := k.startAt - 64 * p, requests := [], jumpSeq := none, stopSeq := none, stopRamp := none, ramping := false
      muteRamp := none, begun := k.startAt, updates := 0 }).beginIteration c
        ((k.decided.head?).getD (s.stim.iteration 0 k.startAt k.startStep 0 false)) := by
  subst channel period
  exact congrArg Host.Outcome.next (if_pos (Bool.and_eq_true_iff.mpr ⟨decide_eq_true waits, due⟩))

/-- The decision point of a waiting channel decides its first iteration. -/
theorem stimDecisionPoint_waiting (waits : k.state = .waiting) (undecided : k.decided = []) (due : k.judgeAt ≤ (s.advance t).grove64) :
    s.Turns (.stimDecisionPoint t c) t fun u => u.onCh c fun x => { x with decided := [s.stim.iteration 0 k.startAt k.startStep 0 false] } := by
  subst channel
  have judged : ((s.stim.chs.get c).decided.isEmpty && decide ((s.stim.chs.get c).judgeAt ≤ (s.advance t).grove64)) = true :=
    Bool.and_eq_true_iff.mpr ⟨List.isEmpty_iff.mpr undecided, decide_eq_true due⟩
  have waits : ((s.advance t).stim.chs.get c).state = .waiting := waits
  refine congrArg Host.Outcome.next ?_
  simp only [State.decisionPoint, waits]
  exact if_pos judged

include period in
/-- The decision point of a playing channel decides its next boundary. -/
theorem stimDecisionPoint_playing (plays : k.state = .playing) (goesOn : k.tail.ends = false) (due : (s.advance t).reached (k.tail.nextDp p) = true) :
    s.Turns (.stimDecisionPoint t c) t fun u => u.decideBoundary c := by
  subst channel period
  have plays : ((s.advance t).stim.chs.get c).state = .playing := plays
  refine congrArg Host.Outcome.next ?_
  simp only [State.decisionPoint, plays]
  exact if_pos (Bool.and_eq_true_iff.mpr ⟨congrArg (!·) goesOn, due⟩)

end

/-! Boundaries (R296, R305). -/

/-- What a boundary leaves of the iteration before it, its jump counted. -/
def State.passed (u : State) (c : Fin 2) (d : Decision) : State :=
  (u.endIteration c d.at_).onCh c fun x => { x with jumps := x.jumps + (if d.jump then 1 else 0) }

section
variable {v u : State} {c : Fin 2} {k : StimCh} {d : Decision} {rest : List Decision} (channel : v.stim.chs.get c = k) (plays : k.state = .playing)
  (due : v.reached (k.begun + k.updates * seqPeriod v.stim.cfg c.val) = true) (settled : u = if k.decided = [] then v.decideBoundary c else v)
  (next : (u.stim.chs.get c).decided = d :: rest)
include channel plays due settled next

theorem State.boundary_eq : v.boundary c =
    if d.ends then (u.passed c d).endChannel c (if d.stopped || k.stopRamp.isSome then .stopped else .program) d.at_
    else ((u.passed c d).beginIteration c d).onCh c fun x => { x with decided := rest } := by
  subst channel
  have settled : (if (v.stim.chs.get c).decided.isEmpty = true then v.decideBoundary c else v) = u := by
    simp only [settled, List.isEmpty_iff]
  rw [State.boundary, if_pos (Bool.and_eq_true_iff.mpr ⟨decide_eq_true plays, due⟩)]
  simp only [settled, next]
  rfl

/-- At a boundary that ends the channel it ends, STOPPED by a stop or with its program. -/
theorem State.boundary_ends (ends : d.ends = true) :
    v.boundary c = (u.passed c d).endChannel c (if d.stopped = true ∨ k.stopRamp ≠ none then .stopped else .program) d.at_ := by
  rw [State.boundary_eq channel plays due settled next, if_pos ends]
  simp only [Bool.or_eq_true, Option.isSome_iff_ne_none]

/-- At any other boundary the decided iteration begins. -/
theorem State.boundary_begins (ends : d.ends = false) :
    v.boundary c = ((u.passed c d).beginIteration c d).onCh c fun x => { x with decided := rest } := by
  rw [State.boundary_eq channel plays due settled next, if_neg (ne_true_of_eq_false ends)]

end

/-! Entries (R291, R304 to R306). -/

section
variable {v : State} {c : Fin 2} {k : StimCh} {d : BitVec 128} {a : Nat} (channel : v.stim.chs.get c = k) (segment : v.stim.seg k.seg = d)
  (address : v.stim.entryAddr d k.entry = a) (plays : k.state = .playing) (running : k.underrun = false) (within : k.entry < segEntries d)
  (due : v.reached k.entryAt = true) (starved : Bool)
include channel segment address plays running within due

theorem State.entryEffect_eq : v.entryEffect c starved =
    if segKind d = 2 ∧ starved = true ∨ segKind d = 2 ∧ v.mem.bad a 16 = true then
      ((if segKind d = 2 ∧ v.mem.bad a 16 = true then v.raiseAt { code := 0x0681, obj := 0x15, vals := [a] } (dacTick k.entryAt) else v).onStim fun q =>
        { q with starved := q.starved + 1 }).underrunFrom c k.entryAt
    else
      let e := v.segEntry k.seg k.entry
      (v.onCh c fun x => { x with
        acc := if entClear e then 0 else v.accumAt c k.entryAt, accAt := k.entryAt, freq := entFreq e, phase := entPhase e, ampl := entAmpl e, fresh := false
        muteRamp := none, entry := k.entry + 1, entryAt := k.entryAt + entDuration e * seqPeriod v.stim.cfg c.val }).setMarkers c
          (if k.ramping then 0 else entMarkers e) k.entryAt := by
  subst channel segment address
  have effect : (decide ((v.stim.chs.get c).state = .playing) && !(v.stim.chs.get c).underrun &&
      decide ((v.stim.chs.get c).entry < segEntries (v.stim.seg (v.stim.chs.get c).seg)) && v.reached (v.stim.chs.get c).entryAt) = true := by
    rw [plays, running, decide_eq_true within, due]
    rfl
  rw [State.entryEffect, if_pos effect]
  simp only [Bool.and_eq_true, Bool.or_eq_true, decide_eq_true_eq, and_or_left, and_self_left]
  rfl

end

/-! Ramps (R300, R305). -/

section
variable {s : State} {t : Nat} {c : Fin 2} {k : StimCh} {p n a : Nat} (channel : s.stim.chs.get c = k) (period : seqPeriod s.stim.cfg c.val = p)
include channel

/-- The ramp of a stop NOW starts from the present amplitude, the markers low. -/
theorem stimStopRampStart_turns (stop : k.stopRamp = some (n, a)) (plays : k.state = .playing) (flat : k.ramping = false)
    (due : (s.advance t).reached n = true) :
    s.Turns (.stimStopRampStart t c) t fun u => (u.setMarkers c 0 n).onCh c fun x => { x with ramping := true, stopRamp := some (n, u.amplAt c n) } := by
  subst channel
  have stop : ((s.advance t).stim.chs.get c).stopRamp = some (n, a) := stop
  have starts : (decide ((s.stim.chs.get c).state = .playing) && !(s.stim.chs.get c).ramping && (s.advance t).reached n) = true := by
    rw [plays, flat, due]
    rfl
  refine congrArg Host.Outcome.next ?_
  simp only [State.stopRampStart, stop]
  exact if_pos starts

include period

theorem stimStopRampEnd_turns (stop : k.stopRamp = some (n, a)) (plays : k.state = .playing) (ramps : k.ramping = true)
    (due : (s.advance t).reached (n + 64 * p) = true) : s.Turns (.stimStopRampEnd t c) t fun u => u.endChannel c .stopped (n + 64 * p) := by
  subst channel period
  have stop : ((s.advance t).stim.chs.get c).stopRamp = some (n, a) := stop
  have ends : (decide ((s.stim.chs.get c).state = .playing) && (s.stim.chs.get c).ramping &&
      (s.advance t).reached (n + 64 * seqPeriod s.stim.cfg c.val)) = true := by
    rw [plays, ramps, due]
    rfl
  refine congrArg Host.Outcome.next ?_
  simp only [State.stopRampEnd, stop]
  exact if_pos ends

theorem stimMuteRampEnd_turns (mute : k.muteRamp = some (n, a)) (due : (s.advance t).reached (n + 64 * p) = true) :
    s.Turns (.stimMuteRampEnd t c) t fun u => u.onCh c fun x => { x with ampl := 0, muteRamp := none } := by
  subst channel period
  have mute : ((s.advance t).stim.chs.get c).muteRamp = some (n, a) := mute
  refine congrArg Host.Outcome.next ?_
  simp only [State.muteRampEnd, mute]
  exact if_pos due

end

/-! The read-back of a segment (R294). -/

/-- What a read-back brought agrees with its CRC and with the segment's UPDATES. -/
def readsBack (d : BitVec 128) (crc : Nat) (data : Bytes) : Bool :=
  segKind d = 2 && crc32c data = crc &&
    ((List.range (segEntries d)).map fun e => bits (leAt data (16 * e) 16) 8 24 + 1).foldl (· + ·) 0 = segUpdates d

section
variable {v : State} {i crc : Nat} {rest : List (Nat × Nat)} {r : State × Bytes} (oldest : v.stim.readback = (i, crc) :: rest)
  (read : v.fwpRead (v.stim.entryAddr (v.stim.seg i) 0) (16 * segEntries (v.stim.seg i)) = r)
include oldest read

theorem State.readbackDone_agrees (ok : readsBack (v.stim.seg i) crc r.2 = true) :
    v.readbackDone = (r.1.onStim fun q => { q with
      readback := rest, ready := (q.ready.filter (· ≠ i)) ++ [i], stirred := q.stirred.filter (· ≠ i) }).finish (.readback i) Reply.ok := by
  subst read
  unfold readsBack at ok
  simp only [State.readbackDone, oldest, ok, if_true]

theorem State.readbackDone_differs (ok : readsBack (v.stim.seg i) crc r.2 = false) :
    v.readbackDone = (r.1.onStim fun q => { q with readback := rest }).finish (.readback i) (Reply.refused 0x090A) := by
  subst read
  unfold readsBack at ok
  simp only [State.readbackDone, oldest, ok, Bool.false_eq_true, if_false]

end

/-- Settles O29: each row by what its operation does where its condition holds. -/
theorem stimulusEventsTakeEffect : Obligations.StimulusEventsTakeEffect := by
  intro s t c k p v
  refine ⟨stimStartInstant_turns rfl rfl, stimDecisionPoint_waiting rfl, stimDecisionPoint_playing rfl rfl, ?boundary, ?entry,
    fun n a stop plays => ⟨stimStopRampStart_turns rfl stop plays, stimStopRampEnd_turns rfl rfl stop plays⟩,
    fun n a => stimMuteRampEnd_turns rfl rfl, fun i crc rest oldest => ⟨?agrees, ?differs⟩⟩
  case boundary =>
    intro plays due u d rest settled next
    exact ⟨fun ends => congrArg Host.Outcome.next (State.boundary_ends rfl plays due settled next ends),
      fun ends => congrArg Host.Outcome.next (State.boundary_begins rfl plays due settled next ends)⟩
  case entry =>
    intro plays running within due starved
    have effect := State.entryEffect_eq (v := v) rfl rfl rfl plays running within due starved
    exact ⟨fun lost => congrArg Host.Outcome.next (effect.trans (if_pos lost)),
      fun there => congrArg Host.Outcome.next (effect.trans (if_neg there))⟩
  case agrees => exact fun ok => State.event_turnsThen rfl (State.readbackDone_agrees (v := v) oldest rfl ok)
  case differs => exact fun ok => State.event_turnsThen rfl (State.readbackDone_differs (v := v) oldest rfl ok)

end Sys2Proof.Machine
end

section
/-!
The events of the monitor ADC (R311 to R321, R399, R460, R483): what a slot does, by what it is used for, the reference and the rails.
-/
namespace Sys2Proof.Machine

/-! Slots (R316, R320, R321, R399). -/

section
variable (v : State) (code : Nat) (ovr : Bool)

/-- What the system slot leaves before any trip: its reading kept, and the rotation gone on to the next channel. -/
def State.rotated : State :=
  v.countConversion.onMon fun m => { m with
    rotation := if v.mon.rotation = 9 then 0 else v.mon.rotation + 1
    temps := m.temps.set v.mon.rotation ((v.convert v.mon.rotation code ovr).code, true)
    hot := m.hot.set v.mon.rotation (decide (v.mon.rotation < 6 ∧ 2540 ≤ (v.convert v.mon.rotation code ovr).code)) }

/-- The system slot's reading is a die sensor's second in a row to qualify for a thermal trip, and the watch is set (R399). -/
abbrev State.dieTrips : Prop :=
  v.mon.rotation < 6 ∧ 2540 ≤ code ∧ v.mon.hot.getD v.mon.rotation false = true ∧ v.board.thermWatch = true

variable {v code ovr}

/-- The die sensors read what the converter reads; only the channels of the stacks do not (R311). -/
theorem State.convert_code_die {c : Nat} (die : c < 6) : (v.convert c code ovr).code = code := by
  rw [State.convert, if_neg fun stack => Nat.not_le.mpr die stack.1]

theorem rotation_next {c : Nat} (rotates : c < 10) : (c + 1) % 10 = if c = 9 then 0 else c + 1 := by
  split <;> omega

/-- The system slot reports the sensor that trips. -/
theorem State.slotEnd_system (rotates : v.mon.rotation < 10) :
    v.slotEnd 8 code ovr = (v.rotated code ovr, if v.dieTrips code then some v.mon.rotation else none) := by
  have trips : (decide (v.mon.rotation < 6) && decide (2540 ≤ (v.convert v.mon.rotation code ovr).code) &&
      v.mon.hot.getD v.mon.rotation false && v.board.thermWatch) = true ↔ v.dieTrips code := by
    simp only [Bool.and_eq_true, decide_eq_true_eq, and_assoc, State.dieTrips]
    exact and_congr_right fun die => by rw [State.convert_code_die die]
  simp only [State.slotEnd, State.rotated, rotation_next rotates, Bool.decide_and, trips]
  rfl

theorem State.monSlot_system_trips (rotates : v.mon.rotation < 10) (trips : v.dieTrips code) :
    v.monSlot 8 code ovr = (v.rotated code ovr).fatal 0x0025 v.mon.rotation true := by
  rw [State.monSlot, State.slotEnd_system rotates, if_pos trips]

theorem State.monSlot_system (rotates : v.mon.rotation < 10) (calm : ¬ v.dieTrips code) : v.monSlot 8 code ovr = v.rotated code ovr := by
  rw [State.monSlot, State.slotEnd_system rotates, if_neg calm]

variable {slot : Fin 16}

/-- The slot of an enabled comparator converts its channel for it. -/
theorem State.monSlot_window {n : Fin 8} (own : slot.val = n.val) (on : winOn (v.mon.windows.get n).cfg = true) :
    v.monSlot slot code ovr = v.countConversion.windowResult n (v.convert (winChannel (v.mon.windows.get n).cfg) code ovr) := by
  have window : slot.val < 8 := own ▸ n.isLt
  have comparator : Fin.ofNat 8 slot.val = n := by rw [own, Fin.ofNat_val_eq_self]
  simp only [State.monSlot, State.slotEnd, if_neg window.ne, if_pos window, comparator, if_pos on]

section
variable (system : slot.val ≠ 8) (off : ∀ n : Fin 8, slot.val = n.val → winOn (v.mon.windows.get n).cfg = false)
include system off

/-- A slot that neither the system nor an enabled comparator uses serves the next requester, where there is one. -/
theorem State.slotEnd_free : v.slotEnd slot code ovr =
    (v.mon.nextReq.elim v fun r => v.countConversion.softwareResult r (v.convert ((v.mon.reqs.get r).pending.getD 0) code ovr), none) := by
  have silent : slot.val < 8 → ¬ winOn (v.mon.windows.get (Fin.ofNat 8 slot.val)).cfg = true := fun window =>
    ne_true_of_eq_false (off _ (Nat.mod_eq_of_lt window).symm)
  rw [State.slotEnd, if_neg system]
  split
  next window =>
    simp only [if_neg (silent window)]
    cases v.mon.nextReq <;> rfl
  next => cases v.mon.nextReq <;> rfl

theorem State.monSlot_idle (idle : v.mon.nextReq = none) : v.monSlot slot code ovr = v := by
  rw [State.monSlot, State.slotEnd_free system off, idle, Option.elim_none]

theorem State.monSlot_serves {r : Fin 3} {channel : Nat} (next : v.mon.nextReq = some r) (pending : (v.mon.reqs.get r).pending = some channel) :
    v.monSlot slot code ovr = v.countConversion.softwareResult r (v.convert channel code ovr) := by
  rw [State.monSlot, State.slotEnd_free system off, next, Option.elim_some, pending, Option.getD_some]

end

end

/-! The rows. -/

section
variable {s : State} {t : Nat} (power : s.board.pwrOk = true)
include power

theorem monConversion_turns (slot : Fin 16) (code : BitVec 12) (ovr : Bool) {f : State → State}
    (h : (s.advance t).monSlot slot code.toNat ovr = f (s.advance t)) : s.TurnsThen (.monConversion t slot code ovr) t f :=
  State.event_turnsThen (f := fun v => if v.board.pwrOk then v.monSlot slot code.toNat ovr else v) rfl ((if_pos power).trans h)

theorem monRefSettled_turns (unsettled : s.mon.settled = false) :
    s.Turns (.monRefSettled t) t fun v => v.onMon fun m => { m with settled := true, roseAt := max s.now t } :=
  congrArg Host.Outcome.next (if_pos ⟨power, unsettled⟩)

theorem railFault_turns (rail : Fin 12) : s.TurnsThen (.railFault t rail) t fun v => v.fatal 0x0026 rail.val :=
  State.event_turnsThen (f := fun v => if v.board.pwrOk then v.fatal 0x0026 rail.val else v) rfl (if_pos power)

end

/-- Settles O26: what a slot does by its use, carried to the state at the event's tick, and the rows of the reference and the rails. -/
theorem monitorEventsTakeEffect : Obligations.MonitorEventsTakeEffect := by
  intro s t power
  refine ⟨?system, ?window, ?free, monRefSettled_turns power, railFault_turns power⟩
  case system =>
    exact fun code ovr rotates =>
      ⟨fun trips => monConversion_turns power 8 code ovr (State.monSlot_system_trips (v := s.advance t) rotates trips),
        fun calm => monConversion_turns power 8 code ovr (State.monSlot_system (v := s.advance t) rotates calm)⟩
  case window =>
    exact fun slot n code ovr own on => monConversion_turns power slot code ovr (State.monSlot_window (v := s.advance t) own on)
  case free =>
    exact fun slot code ovr system off =>
      ⟨fun idle => monConversion_turns power slot code ovr (State.monSlot_idle (v := s.advance t) system off idle),
        fun r channel next pending => monConversion_turns power slot code ovr (State.monSlot_serves (v := s.advance t) system off next pending)⟩

end Sys2Proof.Machine
end

section
/-!
A step and the row it runs (R326, R335): the front of the queue, the idle step, and whether a row answers a next state or is refused as ill formed.
-/
namespace Sys2Proof.Machine

/-- Settles O47: step is a match on the queue. -/
theorem stepRunsTheFront : Obligations.StepRunsTheFront := fun _ _ _ => rfl

/-- Settles O48: with an empty queue step takes its first branch. -/
theorem emptyQueueIdles : Obligations.EmptyQueueIdles := by
  intro s empty
  rw [step, empty]

/-- A row gives a next state where it is well formed, and is refused by name where it is not. -/
def State.Answers (s : State) (i : Instr) : Prop := (i.wf = true → ∃ u, exec i s = .next u) ∧ (i.wf = false → exec i s = .refused .illFormed)

theorem State.answers_of_next {s u : State} {i : Instr} (wf : i.wf = true) (row : exec i s = .next u) : s.Answers i :=
  ⟨fun _ => ⟨u, row⟩, fun ill => absurd wf (ne_true_of_eq_false ill)⟩

/-- A row that is refused where its operands have a shape that is not well formed. -/
theorem State.answers_of_guard {s u : State} {i : Instr} {bad : Prop} [Decidable bad] (ill : bad ↔ i.wf = false)
    (row : exec i s = if bad then .refused .illFormed else .next u) : s.Answers i :=
  ⟨fun wf => ⟨u, row.trans (if_neg fun h => ne_true_of_eq_false (ill.mp h) wf)⟩, fun h => row.trans (if_pos (ill.mpr h))⟩

/-- Settles O43: eight rows are guarded by the shape of their operands, and every other gives a next state at once. -/
theorem everyRowAnswers : Obligations.EveryRowAnswers := by
  intro i s
  show s.Answers i
  cases i with
  | sampleLinkBlock | memRequest | bar2Access | selfCalPhaseEnd => exact State.answers_of_guard (Bool.not_eq_true' _).to_iff rfl
  | descriptorTake | calLeakageEnd | calCompareEnd => exact State.answers_of_guard (decide_eq_false_iff_not.symm) rfl
  | readoutBlockRead t g damaged =>
    refine State.answers_of_guard (bad := damaged.any (·.length ≠ 2048) = true) ?_ rfl
    cases damaged <;> simp [Instr.wf]
  | _ => exact State.answers_of_next rfl rfl

end Sys2Proof.Machine
end

section
/-!
The rows of the grove: what each leaves alone (R426, R428, R435, R437, R439, R445, R447, R450).
-/
namespace Sys2Proof.Machine
open Sys2Proof.Laws

/-- Settles O39: each row's own frame, in the order of the rows. -/
theorem groveRowsLeaveTheRest : Obligations.GroveRowsLeaveTheRest := fun s t =>
  -- Ports, lanes and blocks.
  ⟨(execLaneLockLost_changes t · · s), (execFastRetrainDone_changes t · s), (execBlockLock_changes t · · s), (execBoughBlockReceive_changes t · · s),
    (execBlockReplayTimeout_changes t · s), (execMessageAgeExpiry_changes t · s),
    -- Messages between devices.
    (execUnicast_changes t · s), (execUp_changes t · s), (execFlood_changes t · s), (execPath_changes t · s),
    -- Messages between neighbours.
    (execHello_changes t · s), (execJoinAccept_changes t · s), (execJoinRefuse_changes t · s), (execOrphanNotice_changes t · s),
    (execEpochSet_changes t · s), (execSaplingSet_changes t · s),
    -- The priority lane and ranging.
    (execGroveTrigger_changes t · · · · · s), (execTriggerRequest_changes t · · · · · s), execGroveBroadcast_changes t s,
    execRequestForward_changes t s, (execRangeReq_changes t · · · · · · s), (execRangeReply_changes t · · · · s),
    (execRangeResult_changes t · · s), (execPack_changes t · · s), (execPframeResend_changes t · s), (execRangeExchange_changes t · s),
    (execRangeComplete_changes t · s), (execTrackingRange_changes t · s),
    -- The time limits of a partition.
    execOrphanTimeout_changes t s, execSaplingTimeout_changes t s⟩

end Sys2Proof.Machine
end

section
/-!
The query twins (R353): what their cards answer, and that they change nothing.
-/
namespace Sys2Proof.Machine
open Sys2Proof.Laws

section
variable {s : State} {h : Hdr} (he : s.engineState ∈ setQ)
include he

/-- The twin of a command without SELECT answers its structure. -/
theorem State.Hears.queries {op : Nat} (k : s.Hears h op) {i : Instr} {get : State → Nat → Bytes} (row : exec i s = .next (s.command h op []))
    (card : cardOf op [] = some (queryCard op [] 0 0 get)) (opcode : op ≠ 0x10000) :
    s.Does i h op [] (Reply.ok (get (s.heard h op []) 0)) id :=
  (k.unmarked_passes row card opcode (by decide) ⟨rfl, rfl, rfl⟩ rfl rfl rfl he rfl rfl (ps := []) (fun u => Frame.refl _ u) rfl).does rfl

/-- The twin of a command with SELECT answers the structure of the object selected. -/
theorem State.Hears.queriesOne {op : Nat} (k : s.Hears h op) {i : Instr} {select : BitVec 32} {n reason : Nat} {get : State → Nat → Bytes}
    (row : exec i s = .next (s.command h op (leBytes 4 select.toNat)))
    (card : cardOf op (leBytes 4 select.toNat) = some (queryCard op (leBytes 4 select.toNat) n reason get)) (opcode : op ≠ 0x10000)
    (most : n ≤ 65536) (known : select.toNat < n) :
    s.Does i h op (leBytes 4 select.toNat) (Reply.ok (get (s.heard h op (leBytes 4 select.toNat)) select.toNat)) id := by
  have hi : selIndex (leBytes 4 select.toNat) = select.toNat := selIndex_only select (by omega)
  have hn : n ≠ 0 := by omega
  exact ((queryCard_selects op _ n reason get hn).passes k row card rfl opcode (by simp) (ps := []) rfl (fun u => Frame.refl _ u)
    (by simp [queryCard, hn]) (by rw [selOk_only select (by omega)]; rfl) he rfl (by simp [queryCard, firstOf, hi, known])).does
    (by simp only [queryCard, hi]; rfl)

/-- CMD_RING_SETUP_QUERY comes over PCIe and to this device itself (R355). -/
theorem State.Hears.cmdRingSetupQuery (k : s.Hears h 0x0083) (path : h.path = .pcie) (own : h.group = false) :
    s.Does (.cmdRingSetupQuery h) h 0x0083 [] (Reply.ok (structBytes s.host.ring)) id :=
  State.Passes.does (ps := [])
    { hears := k, row := rfl, size := by decide, opcode := by decide, card := rfl, after := rfl, waits := rfl
      frame := Frame.refl _ _
      judge := Card.judge_none _ h [] _ k.flags.2 rfl (by simp [Card.admits, queryCard, path, own]) rfl rfl he rfl } rfl

end

/-- Settles O34: each twin's card, where SELECT is in range. -/
theorem queriesAnswerConfiguration : Obligations.QueriesAnswerConfiguration := by
  intro s h select k one all
  have one_holds {i : Instr} {op n reason : Nat} {get : State → Nat → Bytes} (row : exec i s = .next (s.command h op (leBytes 4 k)))
      (card : cardOf op (leBytes 4 k) = some (queryCard op (leBytes 4 k) n reason get)) (opcode : op ≠ 0x10000) (most : n ≤ 65536)
      {answer : Bytes} (ha : get (s.heard h op (leBytes 4 k)) k = answer) : one i op n answer :=
    fun hears he known => ha ▸ hears.queriesOne he row card opcode most known
  have all_holds {i : Instr} {op : Nat} {get : State → Nat → Bytes} (row : exec i s = .next (s.command h op []))
      (card : cardOf op [] = some (queryCard op [] 0 0 get)) (opcode : op ≠ 0x10000)
      {answer : Bytes} (ha : get (s.heard h op []) 0 = answer) : all i op answer :=
    fun hears he => ha ▸ hears.queries he row card opcode
  exact ⟨fun path own k he => k.cmdRingSetupQuery he path own, all_holds rfl rfl (by decide) rfl, one_holds rfl rfl (by decide) (by decide) rfl,
    one_holds rfl rfl (by decide) (by decide) rfl, one_holds rfl rfl (by decide) (by decide) rfl, one_holds rfl rfl (by decide) (by decide) rfl,
    one_holds rfl rfl (by decide) (by decide) rfl, one_holds rfl rfl (by decide) (by decide) rfl, one_holds rfl rfl (by decide) (by decide) rfl,
    one_holds rfl rfl (by decide) (by decide) rfl, one_holds rfl rfl (by decide) (by decide) rfl, one_holds rfl rfl (by decide) (by decide) rfl,
    one_holds rfl rfl (by decide) (by decide) rfl, all_holds rfl rfl (by decide) rfl, all_holds rfl rfl (by decide) rfl,
    one_holds rfl rfl (by decide) (by decide) rfl, all_holds rfl rfl (by decide) rfl, all_holds rfl rfl (by decide) rfl,
    one_holds rfl rfl (by decide) (by decide) rfl, one_holds rfl rfl (by decide) (by decide) rfl, all_holds rfl rfl (by decide) rfl,
    one_holds rfl rfl (by decide) (by decide) rfl, all_holds rfl rfl (by decide) rfl⟩

end Sys2Proof.Machine
end

section
/-!
The layouts of GROVE_STATUS, CAL_SET_DOWNLOAD and CAL_SLICE_QUERY (R377, R383): numbers that stand one after another in a result, and where each is read.
-/
namespace Sys2Proof.Machine

/-! Masks: the bits set are the indices that have the property. -/

theorem maskOf_succ (n : Nat) (p : Nat → Bool) : maskOf (n + 1) p = maskOf n p + if p n then 2 ^ n else 0 := by
  rw [maskOf, List.range_succ, List.filter_append, List.foldl_append]
  cases hp : p n
  · rw [List.filter_singleton, hp]; rfl
  · rw [List.filter_singleton, hp]; rfl

theorem maskOf_lt (n : Nat) (p : Nat → Bool) : maskOf n p < 2 ^ n := by
  induction n with
  | zero => exact Nat.one_pos
  | succ n ih =>
    rw [maskOf_succ, Nat.pow_succ]
    split <;> omega

theorem bit_maskOf (n : Nat) (p : Nat → Bool) {i : Nat} (hi : i < n) : bit (maskOf n p) i = p i := by
  induction n with
  | zero => exact absurd hi (Nat.not_lt_zero i)
  | succ n ih =>
    have low := maskOf_lt n p
    rw [bit_testBit, maskOf_succ]
    obtain rfl | below := Nat.eq_or_lt_of_le (Nat.le_of_lt_succ hi)
    · cases hp : p i
      · simpa using Nat.testBit_lt_two_pow low
      · rw [if_pos rfl, Nat.add_comm, Nat.testBit_two_pow_add_eq, Nat.testBit_lt_two_pow low]; rfl
    · cases hp : p n
      · simpa [← bit_testBit] using ih below
      · rw [if_pos rfl, Nat.add_comm, Nat.testBit_two_pow_add_gt below, ← bit_testBit, ih below]

/-! Numbers one after another. -/

/-- The bytes of numbers, each given by its width in bytes and its value. -/
def fieldBytes (fs : List (Nat × Nat)) : Bytes := fs.flatMap fun f => leBytes f.1 f.2

/-- The bytes that numbers of these widths take. -/
def fieldsLength (fs : List (Nat × Nat)) : Nat := (fs.map Prod.fst).sum

theorem fieldBytes_length (fs : List (Nat × Nat)) : (fieldBytes fs).length = fieldsLength fs := by
  simp [fieldBytes, fieldsLength, List.length_flatMap]

/-- A number is read at the end of those before it. -/
theorem leAt_fieldBytes (before : List (Nat × Nat)) (n v : Nat) (after : List (Nat × Nat)) :
    leAt (fieldBytes (before ++ (n, v) :: after)) (fieldsLength before) n = v % 256 ^ n := by
  rw [fieldBytes, List.flatMap_append, List.flatMap_cons]
  exact (leAt_past _ _ 0 n _ (fieldBytes_length before)).trans (leAt_here n v _)

/-! GROVE_STATUS (R383). -/

/-- The delay that GROVE_STATUS shows of a port. -/
def State.delayShown (s : State) (p : Fin 5) : Nat := if (s.port p).ranged then unsigned 32 (s.port p).delay else 0

/-- The numbers of GROVE_STATUS before its delays. -/
def State.groveFields (s : State) : List (Nat × Nat) :=
  [(2, s.grove.devaddr), (1, s.grove.role.code), (1, s.grove.depth), (4, s.grove.epoch), (4, s.grove.bound), (1, s.portsUp), (3, 0)]

/-- The bytes of GROVE_STATUS. -/
def State.groveStatusBytes (s : State) : Bytes := fieldBytes (s.groveFields ++ dn.map fun p => (4, s.delayShown p))

theorem State.groveStatusBytes_eq (s : State) : leBytes 2 s.grove.devaddr ++ leBytes 1 s.grove.role.code ++ leBytes 1 s.grove.depth ++
    leBytes 4 s.grove.epoch ++ leBytes 4 s.grove.bound ++ leBytes 1 s.portsUp ++ zeros 3 ++
    (dn.map fun p => leBytes 4 (if (s.port p).ranged then unsigned 32 (s.port p).delay else 0)).flatten = s.groveStatusBytes := by
  rw [State.groveStatusBytes, fieldBytes, List.flatMap_append, List.flatMap_map, List.flatMap_def]
  rfl

theorem unsigned_lt (w : Nat) (i : Int) : unsigned w i < 2 ^ w := by
  have h := Int.emod_lt_of_pos i (b := ((2 ^ w : Nat) : Int)) (by exact_mod_cast Nat.two_pow_pos w)
  have h0 := Int.emod_nonneg i (b := ((2 ^ w : Nat) : Int)) (by exact_mod_cast (Nat.two_pow_pos w).ne')
  rw [unsigned]
  omega

theorem State.delayShown_lt (s : State) (p : Fin 5) : s.delayShown p < 2 ^ 32 := by
  unfold State.delayShown
  split
  · exact unsigned_lt 32 _
  · decide

theorem leAt_groveStatus_delay (s : State) (k : Fin 4) : leAt s.groveStatusBytes (16 + 4 * k.val) 4 = s.delayShown k.succ := by
  refine Eq.trans ?_ (Nat.mod_eq_of_lt (s.delayShown_lt k.succ))
  match k with
  | 0 => exact leAt_fieldBytes s.groveFields 4 _ _
  | 1 => exact leAt_fieldBytes (s.groveFields ++ [(4, s.delayShown 1)]) 4 _ _
  | 2 => exact leAt_fieldBytes (s.groveFields ++ [(4, s.delayShown 1), (4, s.delayShown 2)]) 4 _ _
  | 3 => exact leAt_fieldBytes (s.groveFields ++ [(4, s.delayShown 1), (4, s.delayShown 2), (4, s.delayShown 3)]) 4 _ _

/-- The number at place i of GROVE_STATUS. -/
theorem leAt_groveStatus (s : State) (i : Nat) (hi : i < s.groveFields.length) :
    leAt s.groveStatusBytes (fieldsLength (s.groveFields.take i)) s.groveFields[i].1 = s.groveFields[i].2 % 256 ^ s.groveFields[i].1 := by
  have split : s.groveFields = s.groveFields.take i ++ s.groveFields[i] :: s.groveFields.drop (i + 1) := by
    rw [← List.drop_eq_getElem_cons, List.take_append_drop]
  have := leAt_fieldBytes (s.groveFields.take i) s.groveFields[i].1 s.groveFields[i].2
    (s.groveFields.drop (i + 1) ++ dn.map fun p => (4, s.delayShown p))
  rwa [← List.cons_append, ← List.append_assoc, ← split] at this

theorem State.portsUp_lt (s : State) : s.portsUp < 32 := maskOf_lt 5 _

theorem State.bit_portsUp (s : State) (p : Fin 5) : bit s.portsUp p.val = true ↔ (s.port p).link = .up := by
  rw [State.portsUp, bit_maskOf 5 _ p.isLt, decide_eq_true_iff, vnat, Fin.ofNat_val_eq_self]
  rfl

/-- Settles O52: the result of GROVE_STATUS is its numbers one after another. -/
theorem groveStatusReturnsItsLayout : Obligations.GroveStatusReturnsItsLayout := by
  intro s h k he
  have size : s.groveFields.length = 7 := rfl
  have up : leAt s.groveStatusBytes 12 1 = s.portsUp := (leAt_groveStatus s 5 (by omega)).trans (Nat.mod_eq_of_lt (s.portsUp_lt.trans (show 32 < 256 by decide)))
  refine ⟨s.groveStatusBytes, s.groveStatusBytes_eq ▸ k.groveStatus he, fieldBytes_length _, leAt_groveStatus s 0 (by omega),
    ?role, leAt_groveStatus s 2 (by omega), leAt_groveStatus s 3 (by omega), leAt_groveStatus s 4 (by omega),
    fun p => up ▸ s.bit_portsUp p, up ▸ s.portsUp_lt, leAt_groveStatus s 6 (by omega), leAt_groveStatus_delay s⟩
  case role =>
    refine (leAt_groveStatus s 1 (by omega)).trans ?_
    show s.grove.role.code % 256 = _
    cases s.grove.role <;> rfl

/-! CAL_SET_DOWNLOAD (R377). -/

theorem padWords_length (b : Bytes) : (padWords b).length = (b.length + 3) / 4 * 4 := by
  rw [padWords, List.length_append, zeros, List.length_replicate]
  omega

theorem padWords_getElem? (b : Bytes) {i : Nat} (hi : i < b.length) : (padWords b)[i]? = b[i]? := List.getElem?_append_left hi

/-- What fills up the last word is zero. -/
theorem padWords_beyond (b : Bytes) {i : Nat} (beyond : b.length ≤ i) (within : i < (padWords b).length) : (padWords b)[i]? = some 0 := by
  rw [padWords, List.length_append, zeros, List.length_replicate] at within
  rw [padWords, List.getElem?_append_right beyond, zeros, List.getElem?_replicate, if_pos (by omega)]

/-- The result of CAL_SET_DOWNLOAD. -/
def downloadBytes (set : Bytes) (offset length : Nat) : Bytes := leBytes 4 set.length ++ padWords ((set.drop offset).take length)

section
variable (set : Bytes) (offset length : Nat)

theorem downloadBytes_length : (downloadBytes set offset length).length = 4 + (min length (set.length - offset) + 3) / 4 * 4 := by
  rw [downloadBytes, List.length_append, leBytes_length, padWords_length, List.length_take, List.length_drop]

theorem downloadBytes_getElem? (i : Nat) : (downloadBytes set offset length)[4 + i]? = (padWords ((set.drop offset).take length))[i]? := by
  rw [downloadBytes, List.getElem?_append_right (by simp), leBytes_length, Nat.add_sub_cancel_left]

variable {set offset length}

theorem downloadBytes_within {i : Nat} (hi : i < length) (hs : offset + i < set.length) :
    (downloadBytes set offset length)[4 + i]? = set[offset + i]? := by
  rw [downloadBytes_getElem?, padWords_getElem? _ (by rw [List.length_take, List.length_drop]; omega), List.getElem?_take, if_pos hi, List.getElem?_drop]

theorem downloadBytes_beyond {i : Nat} (hs : set.length ≤ offset + i) (hi : 4 + i < (downloadBytes set offset length).length) :
    (downloadBytes set offset length)[4 + i]? = some 0 := by
  rw [downloadBytes, List.length_append, leBytes_length] at hi
  rw [downloadBytes_getElem?]
  exact padWords_beyond _ (by rw [List.length_take, List.length_drop]; omega) (by omega)

end

/-! CAL_SLICE_QUERY (R377): its fields per slice. -/

section
variable {α : Type} {n : Nat} {f : α → Bytes} (size : ∀ a, (f a).length = n)
include size

theorem flatMap_length_of_const (l : List α) : (l.flatMap f).length = n * l.length := by
  induction l with
  | nil => rfl
  | cons a l ih => rw [List.flatMap_cons, List.length_append, size, ih, List.length_cons, Nat.mul_succ, Nat.add_comm]

/-- Of strings of one length, one after another, the k-th stands where k others end. -/
theorem flatMap_drop_take {l : List α} {k : Nat} {a : α} (h : l[k]? = some a) : ((l.flatMap f).drop (n * k)).take n = f a := by
  obtain ⟨hk, rfl⟩ := List.getElem?_eq_some_iff.mp h
  have before : ((l.take k).flatMap f).length = n * k := by rw [flatMap_length_of_const size, List.length_take_of_le (Nat.le_of_lt hk)]
  conv => lhs; rw [← List.take_append_drop k l, List.drop_eq_getElem_cons hk]
  rw [List.flatMap_append, List.flatMap_cons, List.drop_left' before, List.take_left' (size _)]

end

/-- The fields of one slice in CAL_SLICE_QUERY's result. -/
def sliceBytes (c : SliceCoef) : Bytes :=
  leBytes 2 (unsigned 16 (liveUnits c).offset) ++ leBytes 2 (unsigned 16 (liveUnits c).gain) ++ leBytes 2 (unsigned 16 (liveUnits c).skew) ++ zeros 2

theorem sliceBytes_length (c : SliceCoef) : (sliceBytes c).length = 8 := rfl

/-- Settles O53: the results that the two cards give, read back. -/
theorem setDownloadReturnsTheSet : Obligations.SetDownloadReturnsTheSet := by
  intro s h he
  refine ⟨fun w offset length set k known hs aligned within words least most => ?_, fun select b k hb => ?_⟩
  · have zero : w = 0 ↔ w.toNat = 0 := by bv_omega
    have does := k.calSetDownload he known (set := set) (by simpa only [State.setNamed, zero] using hs) aligned within words least most
    have size := downloadBytes_length set offset.toNat length.toNat
    exact ⟨downloadBytes set offset.toNat length.toNat, does, leAt_here 4 set.length _, fun h => by omega, fun h => by omega,
      fun i => downloadBytes_within, fun i => downloadBytes_beyond⟩
  · exact ⟨(s.banks.get b).live.flatMap sliceBytes, k.calSliceQuery he hb, flatMap_length_of_const sliceBytes_length _,
      fun i c => flatMap_drop_take sliceBytes_length⟩

end Sys2Proof.Machine
end

section
/-!
EVENT_STATUS (R488, R492): its fields, and what a read of it answers.
-/
namespace Sys2Proof.Machine

/-- A word of HOLDING, PENDING and QUEUED, as R492 lays it out. -/
theorem eventWord_fields (holding : Bool) {pending queued : Nat} (hp : pending ≤ 2047) (hq : queued ≤ 1024) :
    let w := bAt holding 31 + at' pending 16 + queued
    w < 2 ^ 32 ∧ bit w 31 = holding ∧ bits w 16 11 = pending ∧ bits w 0 11 = queued ∧ bits w 27 4 = 0 ∧ bits w 11 5 = 0 := by
  simp only [bit, bits, at', Nat.shiftLeft_eq, Nat.shiftRight_eq_div_pow]
  cases holding
  · have clear : (pending * 2 ^ 16 + queued) / 2 ^ 31 = 0 := by omega
    simp only [bAt, Bool.false_eq_true, if_false, Nat.zero_add, clear]
    exact ⟨by omega, rfl, by omega, by omega, by omega, by omega⟩
  · have set : (1 <<< 31 + pending * 2 ^ 16 + queued) / 2 ^ 31 = 1 := by omega
    simp only [bAt, if_true, set]
    exact ⟨by omega, rfl, by omega, by omega, by omega, by omega⟩

theorem State.read32_eventStatus {s : State} (lit : s.windowDark = false) (req : Requester) : s.read32 req 0x0018 = s.returns req s.eventStatus := by
  have small : s.eventStatus < 2 ^ 32 := (eventWord_fields _ (Nat.min_le_left ..) (Nat.min_le_left ..)).1
  have word : s.word32 req 0x0018 = s.eventStatus := by
    rw [State.word32, lit, Bool.false_and, if_neg Bool.false_ne_true]
    exact Nat.mod_eq_of_lt small
  show (s.clearWord 0x0018).returns req (s.word32 req 0x0018) = _
  rw [word]
  rfl

/-- Settles O51: EVENT_STATUS's fields, read in the lit window. -/
theorem eventStatusIsLaidOut : Obligations.EventStatusIsLaidOut := by
  refine ⟨fun s t req awake lit => ?_, rfl⟩
  obtain ⟨_, holding, pending, queued, zero, zero'⟩ := eventWord_fields (!s.events.pending.isEmpty)
    (pending := min 2047 s.events.pending.length) (queued := min 1024 s.events.queue.length) (Nat.min_le_left ..) (Nat.min_le_left ..)
  have turns : s.TurnsThen (.rcFieldRead t req 0x0018) t fun v => v.returns req s.eventStatus :=
    State.event_turnsThen (f := fun v => v.read32 req 0x0018) rfl (State.read32_eventStatus (s.advance_lit t awake lit) req)
  exact ⟨s.eventStatus, turns, by simp [State.eventStatus, holding], fun h => pending.trans (Nat.min_eq_right h), fun h => queued.trans (Nat.min_eq_right h), zero, zero'⟩

end Sys2Proof.Machine
end

section
/-!
The event queue (R361, R486, R488): where an event that is raised goes, and what a fetch takes.
-/
namespace Sys2Proof.Machine
open Sys2Proof.Laws

section
variable (ev : Events) (e : Event)

/-- With nothing pending and room in the queue an event becomes its last. -/
theorem Events.enter_room (none : ev.pending = []) (room : ev.queue.length < 1024) : ev.enter e = { ev with queue := ev.queue ++ [e] } := by
  simp [Events.enter, none, room]

/-- A pending event is of the same register. -/
theorem Event.decide_register (p : Event) : (p.code = e.code && p.obj = e.obj && p.devaddr = e.devaddr) = decide (p.register = e.register) := by
  simp [Event.register, Bool.and_assoc]

variable (full : ev.pending ≠ [] ∨ 1024 ≤ ev.queue.length)
include full

/-- Otherwise it pends, in a register of its own or counted in that of its repeats. -/
theorem Events.enter_full : ev.enter e =
    if ∃ p ∈ ev.pending, p.register = e.register then { ev with
      coalesced := ev.coalesced + 1
      pending := ev.pending.map fun p => if p.register = e.register then { p with repeated := min 65535 (p.repeated + 1), coalesced := true } else p }
    else { ev with pending := ev.pending ++ [e] } := by
  have full : ¬ (ev.pending.isEmpty = true ∧ ev.queue.length < 1024) := by
    rintro ⟨none, room⟩
    obtain held | full := full
    · exact held (List.isEmpty_iff.mp none)
    · omega
  rw [Events.enter, if_neg full]
  simp only [Event.decide_register, List.any_eq_true, decide_eq_true_eq]

end

/-- Raising an event enters it, and counts it. -/
theorem State.raiseAt_events (s : State) (e : EventSpec) (tick : Nat) :
    (s.raiseAt e tick).events = { s.events.enter (s.mkEvent e tick) with seq := s.events.seq + 1 } := by
  unfold State.raiseAt
  dsimp only
  rw [(eventUp_frame _ _).rest .events rfl]
  split <;> rfl

theorem Events.fetch_parts (ev : Events) (n : Nat) :
    (ev.fetch n).queue = ev.queue.drop n ++ ev.pending.take (1024 - (ev.queue.drop n).length) ∧
    (ev.fetch n).pending = ev.pending.drop (1024 - (ev.queue.drop n).length) ∧ (ev.fetch n).seq = ev.seq := ⟨rfl, rfl, rfl⟩

/-- What pends enters the queue as its entries free, in order, so that events pend only while it is full. -/
theorem Events.fetch_keeps (ev : Events) (n : Nat) :
    (ev.fetch n).queue ++ (ev.fetch n).pending = ev.queue.drop n ++ ev.pending ∧ ((ev.fetch n).pending = [] ∨ 1024 ≤ (ev.fetch n).queue.length) := by
  obtain ⟨queue, pending, _⟩ := ev.fetch_parts n
  rw [queue, pending, List.append_assoc, List.take_append_drop, List.length_append, List.length_take, List.drop_eq_nil_iff]
  exact ⟨rfl, by omega⟩

/-- Settles O54: what raising an event does to the queue where it has room and where not, and what a fetch keeps. -/
theorem eventsAreNeverDropped : Obligations.EventsAreNeverDropped := by
  refine ⟨fun s e tick => ?_, fun q n => ⟨(q.fetch_keeps n).1, (q.fetch_keeps n).2, (q.fetch_parts n).2.2⟩⟩
  have events := s.raiseAt_events e tick
  refine ⟨raiseAt_frame s e tick, by rw [events], rfl, rfl, rfl, fun none room => ?_, fun full => ?_⟩
  · rw [events, Events.enter_room _ _ none room]
    exact ⟨rfl, none, rfl⟩
  · rw [events, Events.enter_full _ _ full]
    refine ⟨by split <;> rfl, fun own => ?_, fun repeats => ?_⟩
    · rw [if_neg fun ⟨p, hp, same⟩ => own p hp same]
      exact ⟨rfl, rfl⟩
    · rw [if_pos repeats]
      refine ⟨rfl, List.length_map _, fun i p hp => ?_⟩
      show (List.map _ s.events.pending)[i]? = _
      rw [List.getElem?_map, hp]
      rfl

end Sys2Proof.Machine
end

section
/-!
Fatal causes (R483 to R485, R491): what FAULT does to the board, the firmware and the calibration switches, and the word that keeps the first cause.
-/
namespace Sys2Proof.Machine
open Sys2Proof.Laws

/-! Replies that leave start and stop no core. -/

theorem State.submitReply_running (s : State) (ticket : Nat) (pkt : Bytes) : (s.submitReply ticket pkt).fw.running = s.fw.running := by
  unfold State.submitReply
  split
  · rfl
  · split <;> rfl

theorem State.handReply_running (s : State) (path : Path) (pkt : Bytes) (ticket addr size after : Nat) :
    (s.handReply path pkt ticket addr size after).fw.running = s.fw.running := by
  cases path with
  | pcie =>
    unfold State.handReply
    dsimp only
    split
    · split <;> rfl
    · rfl
  | bough => exact congrArg Firmware.running ((sendUp_frame _ _).rest .fw rfl)
  | mailbox => exact State.submitReply_running _ _ _

theorem State.flush_running (n : Nat) (path : Path) (s : State) : (State.flush n path s).fw.running = s.fw.running := by
  induction n generalizing s with
  | zero => rfl
  | succ n ih =>
    rw [State.flush]
    split
    · rfl
    · split
      · refine (ih _).trans ?_
        split
        · rfl
        · split
          · split <;> rfl
          · exact State.handReply_running _ _ _ _ _ _ _
      · rfl

theorem State.failHeld_running (s : State) (reason : Nat) : (s.failHeld reason).fw.running = s.fw.running := by
  unfold State.failHeld State.flushAll
  rw [State.flush_running, State.flush_running, State.flush_running]
  rfl

/-! The calibration switches. -/

theorem State.returnSwitch_switch (s : State) (q p : Fin 4) (n : Nat) :
    ((s.returnSwitch q n).quads.get p).switch = if q = p then .connect else (s.quads.get p).switch := by
  show ((vmod s.quads q _).get p).switch = _
  rw [vmod_get]
  split
  · next same =>
    dsimp only
    split
    · next back => exact back
    · rfl
  · rfl

theorem State.returnAll_switch (s : State) (q : Fin 4) : (s.returnAll.quads.get q).switch = .connect := by
  show (((((s.returnSwitch 0 _).returnSwitch 1 _).returnSwitch 2 _).returnSwitch 3 _).quads.get q).switch = _
  simp only [State.returnSwitch_switch]
  match q with
  | 0 | 1 | 2 | 3 => rfl

/-- Cutting ports' range runs off leaves the quads as they are. -/
theorem State.eachPort_quads (s : State) (ports : List (Fin 5)) (f : BoughPort → BoughPort) : (s.each ports fun s p => s.onPort p f).quads = s.quads :=
  (Frame.each ports _ (fun s p => onPort_frame s p f) (Frame.refl _ s)).rest .quads rfl

theorem State.cutDeferred_switch (s : State) (q : Fin 4) : (s.cutDeferred.quads.get q).switch = (s.quads.get q).switch := by
  unfold State.cutDeferred
  dsimp only
  rw [(State.allQuads_parts _ _).2.2.2.2.2.1, State.eachPort_quads]
  exact (congrArg Quad.switch (Vector.getElem_map (fun k : Quad => { k with ticket := 0 }) q.isLt)).trans rfl

/-! Entry to FAULT (R476, R484). -/

/-- FAULT as the board and the firmware see it, before the switches return. -/
def State.faulting (s : State) : State :=
  (s.onBoard fun b => { b with boot := .fault, ready := false, faultLow := true, alert := true }).onFw fun w => { w with running := false, restart := none }

/-- The switches are back, what waited is cut off, and the clocks are to stop; commands are not yet answered. -/
def State.faultStopped (s : State) : State :=
  if s.clock.t0.isSome then s.faulting.returnAll.cutDeferred.scheduleStop else s.faulting.returnAll.cutDeferred

theorem State.intoFault_eq (s : State) : s.intoFault = s.faultStopped.failHeld 0x0020 := rfl

theorem State.faultStopped_frame (s : State) : Frame [.clock] s.faulting.returnAll.cutDeferred s.faultStopped := by
  unfold State.faultStopped
  split
  · exact scheduleStop_frame _
  · exact Frame.refl _ _

theorem State.intoFault_board (s : State) : s.intoFault.board = { s.board with boot := .fault, ready := false, faultLow := true, alert := true } :=
  calc s.intoFault.board = s.faultStopped.board := (failHeld_frame _ _).rest .board rfl
    _ = s.faulting.returnAll.cutDeferred.board := s.faultStopped_frame.rest .board rfl
    _ = s.faulting.returnAll.board := (cutDeferred_frame _).rest .board rfl
    _ = s.faulting.board := (returnAll_frame _).rest .board rfl

theorem State.intoFault_running (s : State) : s.intoFault.fw.running = false :=
  calc s.intoFault.fw.running = s.faultStopped.fw.running := State.failHeld_running _ _
    _ = s.faulting.returnAll.cutDeferred.fw.running := congrArg Firmware.running (s.faultStopped_frame.rest .fw rfl)
    _ = s.faulting.returnAll.fw.running := congrArg Firmware.running ((cutDeferred_frame _).rest .fw rfl)
    _ = s.faulting.fw.running := congrArg Firmware.running ((returnAll_frame _).rest .fw rfl)

theorem State.intoFault_switch (s : State) (q : Fin 4) : (s.intoFault.quads.get q).switch = .connect := by
  have quads : s.intoFault.quads = s.faulting.returnAll.cutDeferred.quads :=
    ((failHeld_frame _ _).rest .quads rfl).trans (s.faultStopped_frame.rest .quads rfl)
  rw [quads, State.cutDeferred_switch, State.returnAll_switch]

/-! The word that keeps the first cause (R491). -/

/-- THERM is a bit of its own between FATAL and OBJ. -/
theorem causeWord_therm {obj reason : Nat} (ho : obj < 16) (hr : reason < 65536) :
    BitVec.ofNat 24 (at' 1 23 + at' obj 16 + reason) ||| BitVec.ofNat 24 (1 <<< 22) = BitVec.ofNat 24 (at' 1 23 + bAt true 22 + at' obj 16 + reason) := by
  have low : at' obj 16 + reason < 2 ^ 22 := by
    rw [at', Nat.shiftLeft_eq]
    omega
  rw [← BitVec.ofNat_or]
  refine congrArg (BitVec.ofNat 24) ?_
  calc (at' 1 23 + at' obj 16 + reason) ||| 1 <<< 22 = (2 ^ 23 * 1 ||| (at' obj 16 + reason)) ||| 2 ^ 22 := by
        rw [Nat.add_assoc, ← Nat.two_pow_add_eq_or_of_lt (low.trans (by decide))]; rfl
    _ = 2 ^ 23 * 1 ||| (2 ^ 22 * 1 ||| (at' obj 16 + reason)) := by rw [Nat.or_assoc, Nat.or_comm _ (2 ^ 22)]; rfl
    _ = 2 ^ 23 + (2 ^ 22 + (at' obj 16 + reason)) := by
        rw [← Nat.two_pow_add_eq_or_of_lt low, ← Nat.two_pow_add_eq_or_of_lt (by omega), Nat.mul_one, Nat.mul_one]
    _ = _ := by
        show _ = 2 ^ 23 + 2 ^ 22 + at' obj 16 + reason
        omega

/-- A cause recorded, with THERM for a thermal trip. -/
theorem State.record_thermal (s : State) {reason obj : Nat} (row : Nat) (therm : Bool) (ho : obj < 16) (hr : reason < 65536) :
    ((s.onBoard fun b => b.record reason obj row s.now).thermal therm).board.engineWord =
      BitVec.ofNat 24 (at' 1 23 + bAt therm 22 + at' obj 16 + reason) := by
  cases therm
  · rfl
  · exact causeWord_therm ho hr

theorem State.thermal_thermLow (s : State) (therm : Bool) : (s.thermal therm).board.thermLow = (s.board.thermLow || therm) := by
  cases therm
  · exact (Bool.or_false _).symm
  · exact (Bool.or_true _).symm

/-! A cause in RUN and a further one in FAULT (R484, R485). -/

theorem Events.enter_fatalCauses (ev : Events) (e : Event) : (ev.enter e).fatalCauses = ev.fatalCauses := by
  unfold Events.enter
  split
  · rfl
  · split <;> rfl

theorem State.raise_counts (s : State) (e : EventSpec) : (s.raise e).events.fatalCauses = s.events.fatalCauses ∧ (s.raise e).events.seq = s.events.seq + 1 := by
  rw [State.raise, State.raiseAt_events]
  exact ⟨Events.enter_fatalCauses _ _, rfl⟩

section
variable {s : State} (reason obj : Nat) (therm call : Bool)

/-- The first cause as it stands in RUN, before the engine enters FAULT. -/
def State.firstCause (s : State) : State :=
  (((s.onBoard fun b => b.record reason obj (fatalRow reason call) s.now).onEvents fun ev =>
    { ev with fatalCauses := ev.fatalCauses + 1 }).thermal therm).raise { code := 0x0080, obj := obj, vals := [s.engineState], reason := reason }

theorem State.fatal_run (run : s.board.boot = .run) : s.fatal reason obj therm call = (s.firstCause reason obj therm call).intoFault := by
  unfold State.fatal
  rw [run]
  rfl

/-- The first cause on the board. -/
theorem State.firstCause_board : (s.firstCause reason obj therm call).board = ((s.onBoard fun b =>
    b.record reason obj (fatalRow reason call) s.now).thermal therm).board := by
  refine ((raise_frame _ _).rest .board rfl).trans ?_
  cases therm <;> rfl

theorem State.firstCause_counts : (s.firstCause reason obj therm call).events.fatalCauses = s.events.fatalCauses + 1 ∧
    (s.firstCause reason obj therm call).events.seq = s.events.seq + 1 := by
  obtain ⟨causes, seq⟩ := State.raise_counts (((s.onBoard fun b => b.record reason obj (fatalRow reason call) s.now).onEvents fun ev =>
    { ev with fatalCauses := ev.fatalCauses + 1 }).thermal therm) { code := 0x0080, obj := obj, vals := [s.engineState], reason := reason }
  rw [(thermal_frame _ _).rest .events rfl] at causes seq
  exact ⟨causes, seq⟩

/-- A further cause: one higher in the table in the same tick takes the first one's place. -/
def State.furtherCause (s : State) : State :=
  if s.now = s.board.faultFrom ∧ fatalRow reason call < s.board.faultRow then
    (s.onBoard fun b => b.record reason obj (fatalRow reason call) s.now).thermal therm
  else s

theorem State.fatal_fault (fault : s.board.boot = .fault) (recorded : flag s.board.engineWord 23 = true) :
    s.fatal reason obj therm call = (((s.furtherCause reason obj therm call).onEvents fun ev => { ev with fatalCauses := ev.fatalCauses + 1 }).raise
      { code := 0x0080, obj := obj, vals := [0x0A], reason := reason }).onBoard fun b => { b with thermLow := b.thermLow || therm, alert := true } := by
  unfold State.fatal
  rw [fault]
  exact if_pos recorded

theorem State.furtherCause_frame (s : State) : Frame [.board] s (s.furtherCause reason obj therm call) := by
  unfold State.furtherCause
  split
  · exact (thermal_frame _ _).step rfl (onBoard_frame _ _)
  · exact Frame.refl _ _

end

/-- The board after a first cause. -/
theorem State.fatal_run_board {s : State} {reason obj : Nat} (therm call : Bool) (run : s.board.boot = .run) (ho : obj < 16) (hr : reason < 65536) :
    let b := (s.fatal reason obj therm call).board
    b.boot = .fault ∧ b.engineWord.toNat = at' 1 23 + bAt therm 22 + at' obj 16 + reason ∧ b.ready = false ∧ b.faultLow = true ∧
      b.thermLow = (s.board.thermLow || therm) := by
  have word := s.record_thermal (fatalRow reason call) therm ho hr
  have low := (s.onBoard fun b => b.record reason obj (fatalRow reason call) s.now).thermal_thermLow therm
  rw [← State.firstCause_board] at word low
  rw [State.fatal_run reason obj therm call run, State.intoFault_board]
  refine ⟨rfl, (congrArg BitVec.toNat word).trans (Nat.mod_eq_of_lt ?_), rfl, rfl, low⟩
  have : bAt therm 22 ≤ 1 <<< 22 := by cases therm <;> decide
  rw [at', at', Nat.shiftLeft_eq, Nat.shiftLeft_eq]
  omega

section
variable (s : State) (reason obj : Nat) (therm call : Bool)

theorem State.furtherCause_boot : (s.furtherCause reason obj therm call).board.boot = s.board.boot := by
  unfold State.furtherCause
  split
  · cases therm <;> rfl
  · rfl

theorem State.furtherCause_thermLow : ((s.furtherCause reason obj therm call).board.thermLow || therm) = (s.board.thermLow || therm) := by
  unfold State.furtherCause
  split
  · rw [State.thermal_thermLow, Bool.or_assoc, Bool.or_self]
    rfl
  · rfl

/-- The state after a further cause: its board, its counts, and the parts it leaves alone. -/
theorem State.fatal_fault_parts {s : State} (fault : s.board.boot = .fault) (recorded : flag s.board.engineWord 23 = true) :
    let u := s.fatal reason obj therm call
    Frame [.board, .events, .grove, .link] s u ∧
    u.board = { (s.furtherCause reason obj therm call).board with thermLow := s.board.thermLow || therm, alert := true } ∧
    u.events.fatalCauses = s.events.fatalCauses + 1 ∧ u.events.seq = s.events.seq + 1 := by
  rw [State.fatal_fault reason obj therm call fault recorded]
  have counted : Frame [.events] (s.furtherCause reason obj therm call)
      ((s.furtherCause reason obj therm call).onEvents fun ev => { ev with fatalCauses := ev.fatalCauses + 1 }) := onEvents_frame _ _ fun h => h
  have further := s.furtherCause_frame reason obj therm call
  obtain ⟨causes, seq⟩ := State.raise_counts ((s.furtherCause reason obj therm call).onEvents fun ev => { ev with fatalCauses := ev.fatalCauses + 1 })
    { code := 0x0080, obj := obj, vals := [0x0A], reason := reason }
  refine ⟨(onBoard_frame _ _).step rfl ((raise_frame _ _).step rfl (counted.step rfl (further.widen rfl))), ?board, ?counts⟩
  case board =>
    rw [← s.furtherCause_thermLow reason obj therm call]
    exact congrArg (fun b : Board => { b with thermLow := b.thermLow || therm, alert := true }) ((raise_frame _ _).rest .board rfl)
  case counts =>
    have events : (s.furtherCause reason obj therm call).events = s.events := further.rest .events rfl
    rw [← events]
    exact ⟨causes, seq⟩

end

/-- Settles O57: the first cause through intoFault, and a further one through what it leaves of the first. -/
theorem fatalCausesAreRecorded : Obligations.FatalCausesAreRecorded := by
  refine ⟨fun s reason obj therm call run hr ho => ?run, fun s reason obj therm call fault recorded => ?fault⟩
  case run =>
    obtain ⟨boot, word, ready, faultLow, thermLow⟩ := State.fatal_run_board therm call run ho hr
    have eng : (s.fatal reason obj therm call).engineState = 0x0A := by rw [State.engineState, boot]
    have enters := State.fatal_run reason obj therm call run
    obtain ⟨causes, seq⟩ := State.firstCause_counts (s := s) reason obj therm call
    have events : (s.fatal reason obj therm call).events = (s.firstCause reason obj therm call).events :=
      enters ▸ (intoFault_frame _).rest .events rfl
    refine ⟨fatal_frame s reason obj therm call, eng, ?_, ready, faultLow, thermLow, enters ▸ State.intoFault_running _,
      fun q => enters ▸ State.intoFault_switch _ q, events ▸ causes, events ▸ seq⟩
    rw [State.engineWord, eng, word, Nat.add_assoc, Nat.add_assoc, Nat.add_assoc, Nat.add_assoc, Nat.add_assoc]
  case fault =>
    obtain ⟨frame, board, causes, seq⟩ := State.fatal_fault_parts reason obj therm call fault recorded
    intro u
    refine ⟨frame, ?boot, ?kept, ?higher, congrArg Board.thermLow board, causes, seq⟩
    case boot => exact (congrArg Board.boot board).trans ((s.furtherCause_boot reason obj therm call).trans fault)
    case kept =>
      intro lower
      refine (congrArg Board.engineWord board).trans ?_
      rw [State.furtherCause, if_neg fun ⟨same, above⟩ => lower.elim (· same) fun below => Nat.not_le.mpr above below]
    case higher =>
      intro same above hr ho
      refine (congrArg Board.engineWord board).trans ?_
      rw [State.furtherCause, if_pos ⟨same, above⟩]
      exact s.record_thermal _ therm ho hr

end Sys2Proof.Machine
end

section
/-!
The board's interfaces (R506 to R512): what the SMBus slave answers, and what the test access port selects.
-/
namespace Sys2Proof.Machine

/-! Bytes of SMBus reads (R508, R509). -/

/-- PINS is a byte of eight bits. -/
theorem pins_byte : ∀ hot perst ready faultLow thermLow ref xo alert : Bool,
    BitVec.ofNat 8 (bAt hot 7 + bAt perst 6 + bAt ready 5 + bAt faultLow 4 + bAt thermLow 3 + bAt ref 2 + bAt xo 1 + bAt alert 0) =
      BitVec.ofBool hot ++ BitVec.ofBool perst ++ BitVec.ofBool ready ++ BitVec.ofBool faultLow ++ BitVec.ofBool thermLow ++ BitVec.ofBool ref ++
        BitVec.ofBool xo ++ BitVec.ofBool alert := by decide

theorem State.smbTemps_eq (s : State) : s.smbTemps = (List.range 10).flatMap fun i =>
    let x := s.mon.temps.getD i (0, false)
    leBytes 2 ((if x.2 then 0x8000 else 0) + x.1 % 4096) := rfl

theorem State.alertResponse_eq (s : State) : s.alertResponse = s.onBoard fun b =>
    if b.alert && b.pwrOk then { b with smb := some { code := 0x0C, acked := true, data := leBytes 1 (0x58 + b.straps) }, alert := false }
    else { b with smb := some { code := 0x0C, acked := false, data := [] } } := by
  unfold State.alertResponse State.onBoard
  split
  · next driven =>
    obtain ⟨alert, power⟩ := Bool.and_eq_true_iff.mp driven
    simp [State.smbRead, State.onBoard, State.smbAddress, power, alert]
  · next released => simp only [if_neg released]

/-! What an instruction of the test access port selects (R511, R512). -/

section
variable {s : State} {i : TapInstr} {takes : Bool} {cells : Option (BitVec 151)}

theorem State.tapLoad_off (off : s.board.pwrOk = false) : s.tapLoad i takes cells = s.onBoard fun b => { b with tap := .idcode } := by
  simp [State.tapLoad, off]

theorem State.tapLoad_bypassed (power : s.board.pwrOk = true) (runs : s.board.perstReleased = true) :
    s.tapLoad i true cells = s.onBoard fun b => { b with tap := .bypass } := by
  simp [State.tapLoad, power, runs]

theorem State.tapLoad_selects (power : s.board.pwrOk = true) (free : takes = false ∨ s.board.perstReleased = false) :
    s.tapLoad i takes cells = s.onBoard fun b => { b with tap := i, boundary := cells.getD b.boundary } := by
  obtain free | free := free <;> simp [State.tapLoad, power, free]

end

/-- The rows of a test access port that stays in Test-Logic-Reset. -/
theorem tapRows_off {s : State} {t : Nat} (off : s.board.pwrOk = false) (cells : BitVec 151) :
    ∀ i ∈ [Instr.extest t cells, .idcode t, .samplePreload t cells, .clamp t, .highz t, .extestPulse t cells, .extestTrain t cells, .bypass t],
      s.Turns i t fun v => v.onBoard fun b => { b with tap := .idcode } := by
  have stays (i : TapInstr) (takes : Bool) (c : Option (BitVec 151)) := State.tapLoad_off (s := s.advance t) (i := i) (takes := takes) (cells := c) off
  intro i hi
  fin_cases hi <;> exact congrArg Host.Outcome.next (stays _ _ _)

/-- The rows that take the pins, while PERST_N is released. -/
theorem tapRows_bypassed {s : State} {t : Nat} (power : s.board.pwrOk = true) (runs : s.board.perstReleased = true) (cells : BitVec 151) :
    ∀ i ∈ [Instr.extest t cells, .clamp t, .highz t, .extestPulse t cells, .extestTrain t cells],
      s.Turns i t fun v => v.onBoard fun b => { b with tap := .bypass } := by
  have bypasses (i : TapInstr) (c : Option (BitVec 151)) := State.tapLoad_bypassed (s := s.advance t) (i := i) (cells := c) power runs
  intro i hi
  fin_cases hi <;> exact congrArg Host.Outcome.next (bypasses _ _)

/-- A row that selects its instruction, and loads the boundary register where it brings cells. -/
theorem tapRow_selects {s : State} {t : Nat} {i : Instr} {j : TapInstr} {takes : Bool} (cells : Option (BitVec 151)) (power : s.board.pwrOk = true)
    (row : exec i s = .next ((s.advance t).tapLoad j takes cells)) (free : takes = false ∨ s.board.perstReleased = false) :
    s.Turns i t fun v => v.onBoard fun b => { b with tap := j, boundary := cells.getD b.boundary } :=
  row.trans (congrArg Host.Outcome.next (State.tapLoad_selects power free))

/-- Settles O15: the reads by their bytes, and the instructions by what is selected. -/
theorem boardInterfacesTakeEffect : Obligations.BoardInterfacesTakeEffect := by
  intro s t ok gives
  refine ⟨rfl, rfl, rfl, ?pins, rfl, rfl, rfl, rfl, congrArg Host.Outcome.next (State.alertResponse_eq _), rfl, rfl, tapRows_off, fun power => ⟨?_, ?_, ?_,
    tapRows_bypassed power, fun asserted => ?_⟩⟩
  case pins =>
    show Host.Outcome.next ((s.advance t).smbRead 3 [BitVec.ofNat 8 (s.advance t).pins]) = _
    rw [State.pins, pins_byte]
    rfl
  · exact tapRow_selects none power rfl (.inl rfl)
  · exact tapRow_selects none power rfl (.inl rfl)
  · exact fun pins => tapRow_selects (some pins) power rfl (.inl rfl)
  · exact ⟨tapRow_selects none power rfl (.inr asserted), tapRow_selects none power rfl (.inr asserted), fun cells =>
      ⟨tapRow_selects (some cells) power rfl (.inr asserted), tapRow_selects (some cells) power rfl (.inr asserted),
        tapRow_selects (some cells) power rfl (.inr asserted)⟩⟩

end Sys2Proof.Machine
end

section
/-!
The commands of the firmware family (R384, R385, R401): what their cards find and do, and the next state where nothing is found against them.
-/
namespace Sys2Proof.Machine

/-- The firmware changes in no part that decides what waits. -/
theorem State.onFw_waits (s : State) (f : Firmware → Firmware) (restart : (f s.fw).restart = s.fw.restart) (calls : (f s.fw).callQueue = s.fw.callQueue)
    (cores : (f s.fw).cores = s.fw.cores) : s.waitsAs (s.onFw f) :=
  ⟨fun _ => rfl, rfl, restart, calls, fun c => congrArg (fun v : Vector Core 4 => (v.get c).submit) cores⟩

theorem ofLe_append (a b : Bytes) : ofLe (a ++ b) = ofLe a + 256 ^ a.length * ofLe b := by
  induction a with
  | nil => simp [ofLe]
  | cons x a ih =>
    rw [List.cons_append, ofLe, ofLe, ih, List.length_cons, Nat.pow_succ, Nat.mul_add, Nat.mul_comm (256 ^ a.length) 256, Nat.mul_assoc, Nat.add_assoc]

theorem toNat_lt_bytes (k : Nat) (c : BitVec (8 * k)) : c.toNat < 256 ^ k := by
  have h := c.isLt
  rwa [Nat.pow_mul] at h

/-- The point of KEY_INSTALL is its coordinates, and one number of 96 bytes. -/
theorem keyInstall_payload (x y : BitVec 384) : let b := leBytes 48 x.toNat ++ leBytes 48 y.toNat
    leAt b 0 48 = x.toNat ∧ leAt b 48 48 = y.toNat ∧ leAt b 0 96 = x.toNat + 2 ^ 384 * y.toNat := by
  intro b
  have hx : x.toNat % 256 ^ 48 = x.toNat := Nat.mod_eq_of_lt (toNat_lt_bytes 48 x)
  have hy : y.toNat % 256 ^ 48 = y.toNat := Nat.mod_eq_of_lt (toNat_lt_bytes 48 y)
  refine ⟨(leAt_here ..).trans hx, (leAt_past _ _ 0 48 48 (leBytes_length ..)).trans ((leAt_only ..).trans hy), ?_⟩
  rw [leAt, List.drop_zero, List.take_of_length_le (by simp [b]), ofLe_append, ofLe_leBytes, ofLe_leBytes, hx, hy, leBytes_length]
  rfl

section
variable {s : State} {h : Hdr} (awaits : s.board.boot = .awaitImage) (path : h.path = .pcie) (own : h.group = false)

include awaits in
theorem State.engineState_awaitImage : s.engineState ∈ [2] := by
  rw [State.engineState, awaits]
  exact List.mem_singleton.mpr rfl

include path own in
/-- A command from PCIe to this device itself meets every card's marks but that of the bough. -/
theorem Card.admits_host {c : Card} (bough : c.boughOnly = false) : c.admits h = true := by
  simp [Card.admits, path, own, bough]

include awaits path own

theorem State.Hears.keyInstall (k : s.Hears h 0x0C01) {x y : BitVec 384} (none : s.fw.ownerKey = none) (point : onCurve x.toNat y.toNat = true) :
    s.Does (.keyInstall h x y) h 0x0C01 (leBytes 48 x.toNat ++ leBytes 48 y.toNat) Reply.ok fun u =>
      u.onFw fun w => { w with ownerKey := some (x.toNat + 2 ^ 384 * y.toNat) } := by
  obtain ⟨hx, hy, hk⟩ := keyInstall_payload x y
  have none : (s.heard h 0x0C01 (leBytes 48 x.toNat ++ leBytes 48 y.toNat)).fw.ownerKey = .none := none
  exact k.admitted_does (c := cardKeyInstall _) rfl rfl (by decide) (by simp) (Card.admits_host path own rfl) rfl rfl (by simp [cardKeyInstall])
    (State.engineState_awaitImage awaits) rfl (by simp [cardKeyInstall, firstOf, hx, hy, none, point]) (by simp only [cardKeyInstall, doOk, hk])
    (State.onFw_waits _ _ rfl rfl rfl)

theorem State.Hears.imageLoad (k : s.Hears h 0x0C02) {offset : BitVec 32} {data : Bytes} (words : data.length % 4 = 0) (least : 4 ≤ data.length)
    (most : data.length ≤ 4080) (aligned : offset.toNat % 4 = 0) (within : offset.toNat + data.length ≤ 2 ^ 24) :
    s.Does (.imageLoad h offset data) h 0x0C02 (leBytes 4 offset.toNat ++ data) Reply.ok fun u =>
      u.onFw fun w => { w with image := putSparse w.image offset.toNat data } := by
  have ho := word_here offset data
  have hd : (leBytes 4 offset.toNat ++ data).drop 4 = data := List.drop_left' (leBytes_length ..)
  have length : (leBytes 4 offset.toNat ++ data).length = 4 + data.length := by simp
  have size : (cardImageLoad (leBytes 4 offset.toNat ++ data)).sizeOk = true := by
    simp only [cardImageLoad, length, Bool.and_eq_true, decide_eq_true_eq]
    omega
  have checks : (cardImageLoad (leBytes 4 offset.toNat ++ data)).checks (s.heard h 0x0C02 (leBytes 4 offset.toNat ++ data)) = none := by
    simpa [cardImageLoad, firstOf, ho, length, aligned] using within
  exact k.admitted_does rfl rfl (by decide) (by omega) (Card.admits_host path own rfl) rfl rfl size (State.engineState_awaitImage awaits) rfl checks
    (by simp only [cardImageLoad, doOk, ho, hd]) (State.onFw_waits _ _ rfl rfl rfl)

theorem State.Hears.imageStart (k : s.Hears h 0x0C03) {total : BitVec 32} (aligned : total.toNat % 4 = 0) (within : total.toNat ≤ 2 ^ 24) :
    s.Holds (.imageStart h total) h 0x0C03 (leBytes 4 total.toNat) .imageAuth fun u => u.onFw fun w => { w with auth := some total.toNat } := by
  have hw := word_only total
  have judge : (cardImageStart (leBytes 4 total.toNat)).judge h (leBytes 4 total.toNat) (s.heard h 0x0C03 (leBytes 4 total.toNat)) = none :=
    Card.judge_none _ h _ _ k.flags.2 rfl (Card.admits_host path own rfl) (by simp [cardImageStart]) rfl (State.engineState_awaitImage awaits)
      (by simpa [cardImageStart, firstOf, hw, aligned] using within)
  have run : (cardImageStart (leBytes 4 total.toNat)).run h (s.heard h 0x0C03 (leBytes 4 total.toNat)) =
      ((s.heard h 0x0C03 (leBytes 4 total.toNat)).onFw fun w => { w with auth := some total.toNat }, .held .imageAuth) := by
    simp only [cardImageStart, hw]
  exact congrArg Host.Outcome.next (k.held _ (by simp) _ rfl rfl judge _ _ run (State.onFw_waits _ _ rfl rfl rfl))

end

/-- Settles O11: the cards of the three commands, each where it finds nothing against the command. -/
theorem firmwareCommandsTakeEffect : Obligations.FirmwareCommandsTakeEffect := fun _ _ awaits path own =>
  ⟨fun _ _ k none point => k.keyInstall awaits path own none point,
    fun _ _ k words least most aligned within => k.imageLoad awaits path own words least most aligned within,
    fun _ k aligned within => k.imageStart awaits path own aligned within⟩

end Sys2Proof.Machine
end

section
/-!
The commands of the system family (R332, R345, R358 to R361, R494): what their cards find and do, and the next state where nothing is found against them.
-/
namespace Sys2Proof.Machine
open Sys2Proof.Laws

section
variable (s : State) (h : Hdr) (op eng : Nat) (r : Reply)

/-- A reply leaves the command ring's parameters alone, those in force and those set up. -/
theorem State.handReply_setup (p : Path) (pkt : Bytes) (ticket addr size after : Nat) :
    (s.handReply p pkt ticket addr size after).host.ring = s.host.ring ∧ (s.handReply p pkt ticket addr size after).host.setup = s.host.setup := by
  cases p with
  | pcie =>
    unfold State.handReply
    dsimp only
    split
    · split <;> exact ⟨rfl, rfl⟩
    · exact ⟨rfl, rfl⟩
  | bough =>
    have same := (State.handReply_bough_frame s pkt ticket addr size after).rest .host rfl
    exact ⟨congrArg HostPort.ring same, congrArg HostPort.setup same⟩
  | mailbox =>
    have same := (submitReply_frame (s.onPath .mailbox fun p => { p with lastReply := pkt }) ticket pkt).rest .host rfl
    exact ⟨congrArg HostPort.ring same, congrArg HostPort.setup same⟩

theorem State.answered_setup : (s.answered h op eng r).host.ring = s.host.ring ∧ (s.answered h op eng r).host.setup = s.host.setup := by
  by_cases unsent : r.status = 0 ∧ h.quiet = true
  · unfold State.answered
    dsimp only
    rw [if_pos unsent]
    split <;> exact ⟨rfl, rfl⟩
  · rw [s.answered_sent h op eng r unsent]
    exact State.handReply_setup ..

theorem State.answered_ringOn : (s.answered h op eng r).ringOn = s.ringOn :=
  congrArg (flag · 0) (s.answered_setup h op eng r).1

end

/-! What follows a reply. -/

/-- With the command ring off, parameters set up come into force at once (R332). -/
theorem State.applySetup_off (s : State) {setup : BitVec 256} (off : s.ringOn = false) (due : s.host.setup = some setup) :
    s.applySetup.host = { s.host with ring := setup, setup := none, cmdTail := 0, cmdHead := 0 } ∧
      (s.applySetup.path .pcie).tags = [] ∧ s.applySetup.ring4.tail = 0 ∧ s.applySetup.ring4.head = 0 := by
  have ends : s.applySetup = ((s.onPath .pcie fun p => { p with tags := [] }).onHost fun h =>
      { h with ring := setup, setup := none, cmdTail := 0, cmdHead := 0 }).onRing4
        fun r => { CplRing.reset with waiting := r.waiting, fullWaits := r.fullWaits } := by
    simp [State.applySetup, due, off]
  rw [ends]
  exact ⟨rfl, congrArg PathState.tags (State.path_onPath_self ..), rfl, rfl⟩

/-- With the command ring off, a reset that is due happens at once (R360). -/
theorem State.applyReset_off (s : State) (off : s.ringOn = false) (due : s.board.resetPending = true) : s.applyReset = s.toReset.leaveReset := by
  simp [State.applyReset, off, due]

theorem State.applyReset_idle (s : State) (idle : s.idle) : s.applyReset.idle := by
  unfold State.applyReset
  split
  · exact s.toReset_idle
  · exact idle

/-! The words of TAG_RETIRE and EVENT_FETCH. -/

theorem retireWord_toNat (tag : BitVec 12) (gen : BitVec 4) : ((tag ++ gen).setWidth 32 : BitVec 32).toNat = tag.toNat * 16 + gen.toNat := by
  have ht := tag.isLt
  have hg := gen.isLt
  rw [BitVec.toNat_setWidth, BitVec.toNat_append, ← Nat.shiftLeft_add_eq_or_of_lt hg, Nat.shiftLeft_eq, Nat.mod_eq_of_lt (by omega)]

/-- The fields of TAG_RETIRE's word: the tag, its generation, and nothing above them. -/
theorem retireWord_fields (tag : BitVec 12) (gen : BitVec 4) : let v := ((tag ++ gen).setWidth 32 : BitVec 32).toNat
    bits v 4 12 = tag.toNat ∧ bits v 0 4 = gen.toNat ∧ bits v 16 16 = 0 := by
  have ht := tag.isLt
  have hg := gen.isLt
  simp only [retireWord_toNat, bits, Nat.shiftRight_eq_div_pow]
  omega

/-- TAG_RETIRE answers 0 for the recorded generation and 2 for an older one, which change nothing, and 1 for one that it records (R345). -/
theorem PathState.retire_eq (p : PathState) (tag gen : Nat) : p.retire tag gen =
    (if p.lastGen tag = some gen then 0 else if ((p.lastGen tag).map fun g => newerGen gen g).getD true then 1 else 2,
      if p.lastGen tag = some gen ∨ ((p.lastGen tag).map fun g => newerGen gen g).getD true = false then p else p.record tag gen) := by
  unfold PathState.retire
  cases known : p.lastGen tag with
  | none => simp
  | some g =>
    by_cases same : g = gen
    · simp [same]
    · by_cases newer : newerGen gen g <;> simp [same, newer]

/-! The rows, heard where nothing is against them. -/

section
variable {s : State} {h : Hdr} (asks : s.engineState ∈ setQ)
include asks

theorem State.Hears.sysEcho (k : s.Hears h 0x0000) {data : Bytes} (words : data.length % 4 = 0) (most : data.length ≤ 4088) :
    s.Does (.sysEcho h data) h 0x0000 data (Reply.ok data) id :=
  (k.unmarked_passes (c := cardSysEcho data) rfl rfl (by decide) ⟨words, by omega⟩ ⟨rfl, rfl, rfl⟩ rfl rfl (by simp [cardSysEcho, words, most]) asks rfl rfl
    (cardSysEcho_frame data h) rfl).does rfl

theorem State.Hears.sysIdentify (k : s.Hears h 0x0001) : s.Does (.sysIdentify h) h 0x0001 [] (Reply.ok s.identity) id :=
  (k.unmarked_passes (c := cardSysIdentify []) rfl rfl (by decide) (by decide) ⟨rfl, rfl, rfl⟩ rfl rfl rfl asks rfl rfl (cardSysIdentify_frame [] h) rfl).does rfl

theorem State.Hears.sysStatus (k : s.Hears h 0x0002) : s.Does (.sysStatus h) h 0x0002 [] (Reply.ok (s.heard h 0x0002 []).sysStatus) id :=
  (k.unmarked_passes (c := cardSysStatus []) rfl rfl (by decide) (by decide) ⟨rfl, rfl, rfl⟩ rfl rfl rfl asks rfl rfl (cardSysStatus_frame [] h) rfl).does rfl

theorem State.Hears.cmdRingSetup (k : s.Hears h 0x0003) (host : h.path = .pcie) (single : h.group = false) {setup : BitVec 256} (h1 : fld setup 96 13 = 0)
    (h2 : fld setup 1 63 = 0) (valid : setupInvalid setup = false) (taken : s.ringOn = true → s.host.cmdHead = s.host.cmdTail) :
    exec (.cmdRingSetup h setup) s = .next (((s.heard h 0x0003 (leBytes 32 setup.toNat)).onHost fun k => { k with setup := some setup }).answered h 0x0003
      s.engineState Reply.ok).applySetup := by
  have hc : structAt 256 (leBytes 32 setup.toNat) 0 = setup := structAt_only 32 setup
  have reserved : (cardCmdRingSetup (leBytes 32 setup.toNat)).reservedOk = true := by simp [cardCmdRingSetup, hc, zeroFields, h1, h2]
  have alone : ((s.heard h 0x0003 (leBytes 32 setup.toNat)).path .pcie).queue.length = 1 := by
    rw [← host, State.heard_queue]
    rfl
  have untaken : ((s.heard h 0x0003 (leBytes 32 setup.toNat)).ringOn && (s.heard h 0x0003 (leBytes 32 setup.toNat)).host.cmdHead ≠
      (s.heard h 0x0003 (leBytes 32 setup.toNat)).host.cmdTail : Bool) = false := by
    show (s.ringOn && decide (s.host.cmdHead ≠ s.host.cmdTail)) = false
    cases on : s.ringOn with
    | false => rfl
    | true => simp [taken on]
  have checks : (cardCmdRingSetup (leBytes 32 setup.toNat)).checks (s.heard h 0x0003 (leBytes 32 setup.toNat)) = none := by
    simp only [cardCmdRingSetup, hc, alone, untaken, valid, firstOf, Nat.lt_irrefl, decide_false, Bool.or_self, Bool.false_eq_true, if_false]
  have judge := Card.judge_none _ h (leBytes 32 setup.toNat) (s.heard h 0x0003 (leBytes 32 setup.toNat)) k.flags.2 reserved
    (by simp [Card.admits, cardCmdRingSetup, host, single]) (by simp [cardCmdRingSetup]) rfl asks checks
  have run : (cardCmdRingSetup (leBytes 32 setup.toNat)).run h (s.heard h 0x0003 (leBytes 32 setup.toNat)) =
      ((s.heard h 0x0003 (leBytes 32 setup.toNat)).onHost (fun k => { k with setup := some setup }), .done Reply.ok) := by
    simp only [cardCmdRingSetup, doOk, hc]
  have waits : (s.heard h 0x0003 (leBytes 32 setup.toNat)).waitsAs
      ((s.heard h 0x0003 (leBytes 32 setup.toNat)).onHost fun k => { k with setup := some setup }) := ⟨fun _ => rfl, rfl, rfl, rfl, fun _ => rfl⟩
  have idle := State.idle_as (State.applySetup_waits _) (k.idle_answered (leBytes 32 setup.toNat) _ waits s.engineState Reply.ok)
  exact congrArg Host.Outcome.next (k.done _ (by simp) _ (by decide) rfl judge _ _ run waits.1 k.idle.2.2 idle)

theorem State.Hears.tagRetire (k : s.Hears h 0x0004) (single : h.group = false) (tag : BitVec 12) (gen : BitVec 4) :
    let w : BitVec 32 := (tag ++ gen).setWidth 32
    let known := ((s.heard h 0x0004 (leBytes 4 w.toNat)).path h.path).lastGen tag.toNat
    s.Does (.tagRetire h w) h 0x0004 (leBytes 4 w.toNat)
      (Reply.ok (leBytes 1 (if known = some gen.toNat then 0 else if (known.map fun g => newerGen gen.toNat g).getD true then 1 else 2) ++ zeros 3))
      fun v => v.onPath h.path fun p => if known = some gen.toNat ∨ (known.map fun g => newerGen gen.toNat g).getD true = false then p
        else p.record tag.toNat gen.toNat := by
  intro w known
  have hw := word_only w
  obtain ⟨htag, hgen, hrest⟩ := retireWord_fields tag gen
  refine k.admitted_does (c := cardTagRetire (leBytes 4 w.toNat)) rfl rfl (by decide) (by simp) (by simp [Card.admits, cardTagRetire, single]) rfl
    (by simp only [cardTagRetire, hw]; exact beq_iff_eq.mpr hrest) (by simp [cardTagRetire]) asks rfl rfl ?_ ?_
  · simp only [cardTagRetire, hw]
    rw [htag, hgen, PathState.retire_eq]
    exact Prod.ext (State.onPath_congr _ _ _ _ rfl) rfl
  · exact ⟨fun p => by
      by_cases own : h.path = p
      · subst own
        rw [State.path_onPath_self]
        split <;> rfl
      · rw [State.path_onPath_ne _ _ _ _ own], rfl, rfl, rfl, fun _ => rfl⟩

theorem State.Hears.sysReset (k : s.Hears h 0x0005) : exec (.sysReset h 0xA55A) s =
    .next (((s.heard h 0x0005 (leBytes 4 0xA55A)).onBoard fun k => { k with resetPending := true }).answered h 0x0005 s.engineState Reply.ok).applyReset := by
  have judge : (cardSysReset (leBytes 4 0xA55A)).judge h (leBytes 4 0xA55A) (s.heard h 0x0005 (leBytes 4 0xA55A)) = none :=
    Card.judge_none _ h _ _ k.flags.2 rfl rfl rfl rfl asks rfl
  have waits : (s.heard h 0x0005 (leBytes 4 0xA55A)).waitsAs ((s.heard h 0x0005 (leBytes 4 0xA55A)).onBoard fun k => { k with resetPending := true }) :=
    ⟨fun _ => rfl, rfl, rfl, rfl, fun _ => rfl⟩
  have idle := State.applyReset_idle _ (k.idle_answered (leBytes 4 0xA55A) _ waits s.engineState Reply.ok)
  exact congrArg Host.Outcome.next (k.done _ (by decide) _ (by decide) rfl judge _ _ rfl waits.1 k.idle.2.2 idle)

theorem State.Hears.eventFetch (k : s.Hears h 0x0006) {n : BitVec 32} (least : 1 ≤ n.toNat) (most : n.toNat ≤ 42)
    (free : s.ringOn = false ∨ s.board.boot = .fault) :
    s.Does (.eventFetch h n) h 0x0006 (leBytes 4 n.toNat)
      (Reply.ok (leBytes 2 (s.events.queue.take n.toNat).length ++
        leBytes 2 (min 65535 (((s.events.fetch n.toNat).queue.length + (s.events.fetch n.toNat).pending.length))) ++ zeros 4 ++
        ((s.events.queue.take n.toNat).map Event.body).flatten))
      fun u => u.onEvents fun ev => ev.fetch n.toNat := by
  have hw := word_only n
  have high : bits n.toNat 6 26 = 0 := by
    simp only [bits, Nat.shiftRight_eq_div_pow]
    omega
  have polled : (s.ringOn && decide (s.board.boot ≠ .fault)) = false := by
    rcases free with off | fault
    · simp [off]
    · simp [fault]
  have checks : (cardEventFetch (leBytes 4 n.toNat)).checks (s.heard h 0x0006 (leBytes 4 n.toNat)) = none := by
    show firstOf [((s.ringOn && decide (s.board.boot ≠ .fault)), _), _] = none
    have zero : n.toNat ≠ 0 := by omega
    have few : ¬ 42 < n.toNat := by omega
    simp only [hw, polled, firstOf, zero, few, decide_false, Bool.or_self, Bool.false_eq_true, if_false]
  exact (k.unmarked_passes (c := cardEventFetch (leBytes 4 n.toNat)) rfl rfl (by decide) (by simp) ⟨rfl, rfl, rfl⟩ rfl
    (by simp only [cardEventFetch, hw, high, beq_self_eq_true]) (by simp [cardEventFetch]) asks rfl checks (cardEventFetch_frame _ h) rfl).does (by
      simp only [cardEventFetch, hw]
      rfl)

end

/-- Settles O1: the cards of the seven commands, each where it finds nothing against the command, and what follows the replies of two. -/
theorem systemCommandsTakeEffect : Obligations.SystemCommandsTakeEffect := fun _ _ asks =>
  ⟨fun _ k words most => k.sysEcho asks words most, fun k => k.sysIdentify asks, fun k => k.sysStatus asks,
    fun _ k host single h1 h2 valid taken => ⟨k.cmdRingSetup asks host single h1 h2 valid taken, fun off =>
      State.applySetup_off _ ((State.answered_ringOn ..).trans off) (State.answered_setup ..).2⟩,
    fun tag gen k single => k.tagRetire asks single tag gen,
    fun k => ⟨k.sysReset asks, fun off => State.applyReset_off _ ((State.answered_ringOn ..).trans off)
      (congrArg Board.resetPending ((State.answered_frame ..).rest .board rfl))⟩,
    fun _ k least most free => k.eventFetch asks least most free⟩

end Sys2Proof.Machine
end

section
/-!
The events of power-up and boot (R401, R460 to R473, R478, R479, R506): what the self-test, the authentication of an image and the phases of the
self-calibration do, and the next state of each row.
-/
namespace Sys2Proof.Machine

section
variable {s : State} {t : Nat}

/-! The pins. -/

theorem pwrOkRise_turns (straps : BitVec 2) (low : s.board.pwrOk = false) (reset : s.board.boot = .reset) :
    s.Turns (.pwrOkRise t straps) t fun v => v.onBoard fun b => { b with
      pwrOk := true, straps := straps.toNat, strapPins := straps.toNat, boot := if b.perstReleased then .heartwood else .reset } := by
  refine congrArg Host.Outcome.next ?_
  have low : (s.advance t).board.pwrOk = false := low
  have reset : (s.advance t).board.boot = .reset := reset
  simp only [low, State.leaveReset, State.onBoard, reset]
  cases (s.advance t).board.perstReleased <;> simp

theorem perstNRelease_turns (reset : s.board.boot = .reset) :
    s.Turns (.perstNRelease t) t fun v => v.onBoard fun b => { b with
      perstReleased := true, tap := if b.tap.takesPins then .bypass else b.tap, boot := if b.pwrOk then .heartwood else .reset } := by
  refine congrArg Host.Outcome.next ?_
  have reset : (s.advance t).board.boot = .reset := reset
  simp only [State.leaveReset, State.onBoard, reset]
  cases (s.advance t).board.pwrOk <;> simp

/-! The self-test. -/

/-- In HEARTWOOD the end of the self-test has its effect, and a held packet is taken (R331, R462). -/
theorem selftestDone_turns (self : s.board.boot = .heartwood) (r : SelfTest) :
    s.TurnsThen (.selftestDone t r) t fun v => (v.selftest r).takeHeldBoot :=
  State.event_turnsThen (f := fun s => if s.board.boot = .heartwood then (s.selftest r).takeHeldBoot else s) rfl (if_pos self)

/-! An image, and the time limits. -/

theorem imageAuthDone_turns {total : Nat} (ok : Bool) (waits : s.fw.auth = some total) :
    s.TurnsThen (.imageAuthDone t ok) t fun v =>
      let u := v.onFw fun w => { w with auth := none }
      if ok = true ∧ s.imageFits total = true then u.enterInit.finish .imageAuth Reply.deferred else u.finish .imageAuth (Reply.refused 0x0C01) := by
  refine State.event_turnsThen (f := fun s => s.authDone ok) rfl ?_
  have waits : (s.advance t).fw.auth = some total := waits
  have fits : (s.advance t).imageFits total = s.imageFits total := rfl
  simp only [State.authDone, waits, fits, Bool.and_eq_true]

theorem lockTimeout_turns (init : s.board.boot = .init) (stopped : s.clock.drive = .stopped) (seeks : s.clock.loop = .searching ∨ s.clock.loop = .acquiring)
    (late : s.clock.lockSince + (if planSource s.clock.plan = 2 then 200000000000 else 20000000000) ≤ max s.now t) :
    s.TurnsThen (.lockTimeout t) t fun v => v.bootFail 0x0106 0xF :=
  State.event_turnsThen (f := fun s => let c := s.clock
    let limit := if planSource c.plan = 2 then 10 * second else second
    if s.board.boot = .init ∧ c.drive = .stopped ∧ (c.loop = .searching ∨ c.loop = .acquiring) ∧ c.lockSince + limit ≤ s.now then
      s.bootFail 0x0106 0xF else s) rfl (if_pos ⟨init, stopped, seeks, late⟩)

theorem quadStartTimeout_turns (q : Fin 4) (init : s.board.boot = .init) (starts : s.clock.t0.isSome = true) (unready : (s.quads.get q).state ≠ .ready)
    (late : s.clock.firstDelivered + 2000000000 ≤ max s.now t) : s.TurnsThen (.quadStartTimeout t q) t fun v => v.bootFail 0x0206 q.val :=
  State.event_turnsThen (f := fun s => let k := (s.quads.get q).state
    if s.board.boot = .init ∧ s.clock.t0.isSome ∧ k ≠ .ready ∧ s.clock.firstDelivered + 100 * ms ≤ s.now then s.bootFail 0x0206 q.val else s) rfl
    (if_pos ⟨init, starts, unready, late⟩)

theorem readyCallTimeout_turns (init : s.board.boot = .init) (quads : flag s.board.bootStatus 26 = true) (memory : flag s.board.bootStatus 28 = true)
    (none : s.cal.self = none) (late : s.board.readyFrom + 100000000000 ≤ max s.now t) :
    s.TurnsThen (.readyCallTimeout t) t fun v => v.bootFail 0x0C07 0xF := by
  refine State.event_turnsThen (f := fun s =>
    if s.board.boot = .init && flag s.board.bootStatus 26 && flag s.board.bootStatus 28 && s.cal.self.isNone && s.board.readyFrom + 5 * second ≤ s.now then
      s.bootFail 0x0C07 0xF else s) rfl (if_pos ?_)
  show (decide (s.board.boot = .init) && flag s.board.bootStatus 26 && flag s.board.bootStatus 28 && s.cal.self.isNone &&
    decide (s.board.readyFrom + 5 * second ≤ max s.now t)) = true
  have late : s.board.readyFrom + 5 * second ≤ max s.now t := late
  simp [init, quads, memory, none, late]

/-! The phases of the self-calibration. -/

theorem selfCalPhaseEnd_turns {res : SelfPhaseEnd} (wf : res.wf = true) {g : State → State} (ends : (s.advance t).selfPhaseEnds res = g (s.advance t)) :
    s.TurnsThen (.selfCalPhaseEnd t res) t g :=
  State.event_turnsThen (f := fun s => s.selfPhaseEnds res) (if_neg (by simp [wf])) ends

/-- No bank is left to converge. -/
theorem unconverged_none (all : ∀ b : Fin 16, (s.banks.get b).converged = true) : (sixteen.find? fun b => !(s.banks.get b).converged) = none :=
  List.find?_eq_none.mpr fun b _ => by simp [all b]

/-- The first bank that has not converged, all before it having done so. -/
theorem unconverged_some {b : Fin 16} (left : (s.banks.get b).converged = false) (least : ∀ d : Fin 16, d < b → (s.banks.get d).converged = true) :
    (sixteen.find? fun b => !(s.banks.get b).converged) = some b := by
  rw [sixteen, ← List.ofFn_id]
  exact (List.find?_ofFn_eq_some_of_injective Function.injective_id).mpr ⟨by simp [left], fun d before => by simp [least d before]⟩

/-- A CONVERGE window that is not the last leads to the next one (R470). -/
theorem State.convergeEnds_next (c : SelfCal) {n : Nat} (more : n < 2 ∨ (¬ ∀ b : Fin 16, (s.banks.get b).converged = true) ∧ n < 4) :
    s.convergeEnds c n = s.onCal fun k => { k with self := some { c with phase := .converge (n + 1), since := s.now, windows := n } } := by
  unfold State.convergeEnds
  dsimp only
  cases left : sixteen.find? fun b => !(s.banks.get b).converged with
  | none =>
    have all : ∀ b : Fin 16, (s.banks.get b).converged = true := fun b => by
      simpa using List.find?_eq_none.mp left b (List.mem_finRange b)
    exact if_pos (more.resolve_right fun h => h.1 all)
  | some b => exact if_pos (by omega)

/-- Once every bank has converged, after two windows at least, MEASURE follows, or the end where there is nothing to measure (R470). -/
theorem State.convergeEnds_last (c : SelfCal) {n : Nat} (two : 2 ≤ n) (all : ∀ b : Fin 16, (s.banks.get b).converged = true) :
    s.convergeEnds c n = if c.caldc = 0 ∧ c.base = none then s.selfEnds { c with windows := n, since := s.now } [0xFFFF, 0xFFFF, 0xFFFF, 0xFFFF] []
      else s.onCal fun k => { k with self := some { c with phase := .measure, since := s.now, windows := n } } := by
  simp only [State.convergeEnds, unconverged_none all, Nat.not_lt.mpr two, if_false, Option.isNone_iff_eq_none]
  rfl

/-- A bank that has not converged after four windows fails the boot (R470, R472). -/
theorem State.convergeEnds_fails (c : SelfCal) {n : Nat} (four : 4 ≤ n) {b : Fin 16} (left : (s.banks.get b).converged = false)
    (least : ∀ d : Fin 16, d < b → (s.banks.get d).converged = true) : s.convergeEnds c n = s.bootFail 0x080C b.val := by
  simp only [State.convergeEnds, unconverged_some left least, Nat.not_lt.mpr four, if_false]

section
variable {c : SelfCal} (runs : s.cal.self = some c)
include runs

theorem State.selfPhaseEnds_leakage (active : BitVec 4) (phase : c.phase = .leakage) (due : c.since + 20000000 ≤ s.now) :
    s.selfPhaseEnds (.leakage active) =
      s.onCal fun k => { k with self := some { c with phase := .converge 1, since := s.now, active := active.toNat } } := by
  simp only [State.selfPhaseEnds, runs, phase]
  exact if_neg (Nat.not_lt.mpr due)

theorem State.selfPhaseEnds_converge {n : Nat} (phase : c.phase = .converge n) (due : c.since + 2360000000 ≤ s.now) :
    s.selfPhaseEnds .converge = s.convergeEnds c n := by
  simp only [State.selfPhaseEnds, runs, phase]
  exact if_neg (Nat.not_lt.mpr due)

theorem State.selfPhaseEnds_measure (outcomes : List (BitVec 16)) (points : List Bytes) (phase : c.phase = .measure) (due : c.since + 2380000000 ≤ s.now) :
    s.selfPhaseEnds (.measure outcomes points) =
      s.selfEnds c ((List.range 4).map fun q => c.outcomeOf q ((outcomes.map BitVec.toNat).getD q 0xFFFF) (points.getD q []))
        (points.zipIdx.map fun x => (x.2, x.1)) := by
  simp only [State.selfPhaseEnds, runs, phase]
  exact if_neg (Nat.not_lt.mpr due)

end

theorem converge_turns {c : SelfCal} (runs : s.cal.self = some c) {n : Nat} (phase : c.phase = .converge n) (due : c.since + 2360000000 ≤ max s.now t)
    {g : State → State} (ends : (s.advance t).convergeEnds c n = g (s.advance t)) : s.TurnsThen (.selfCalPhaseEnd t .converge) t g :=
  selfCalPhaseEnd_turns rfl ((State.selfPhaseEnds_converge (s := s.advance t) runs phase due).trans ends)

end

/-- Settles O14: each row at the case of its definition that the hypotheses name. -/
theorem bootEventsTakeEffect : Obligations.BootEventsTakeEffect := by
  intro s t
  refine ⟨fun straps low reset => pwrOkRise_turns straps low reset, fun high => ?_, fun released => ?_,
    fun _ reset => perstNRelease_turns reset, fun self => ?_, fun total ok waits => imageAuthDone_turns ok waits,
    lockTimeout_turns, quadStartTimeout_turns, readyCallTimeout_turns, fun ready => congrArg Host.Outcome.next (if_pos ready), fun c runs => ?_⟩
  · exact congrArg Host.Outcome.next (if_neg (by show ¬ (!s.board.pwrOk) = true; simp [high]))
  · exact congrArg Host.Outcome.next (if_neg (by show ¬ (!s.board.perstReleased) = true; simp [released]))
  · have ends := fun r => selftestDone_turns (t := t) self r
    exact ⟨ends .passed, ends .rom, ends .sram, fun i => ends (.rail i), ends .xo, fun q => ends (.quad q), fun k => ends (.thermal k)⟩
  · refine ⟨fun active phase due => ?_, fun n phase due => ⟨fun more => ?_, fun two all some => ?_, fun two all none => ?_, fun four b left least => ?_⟩,
      fun outcomes points phase due h1 h2 h3 => ?_⟩
    · exact selfCalPhaseEnd_turns rfl (State.selfPhaseEnds_leakage (s := s.advance t) runs active phase due)
    · exact converge_turns runs phase due (State.convergeEnds_next (s := s.advance t) c more)
    · exact converge_turns runs phase due ((State.convergeEnds_last (s := s.advance t) c two all).trans (if_neg some))
    · exact converge_turns runs phase due ((State.convergeEnds_last (s := s.advance t) c two all).trans (if_pos none))
    · exact converge_turns runs phase due (State.convergeEnds_fails (s := s.advance t) c four left least)
    · have wf : (SelfPhaseEnd.measure outcomes points).wf = true := by
        simp only [SelfPhaseEnd.wf, h1, h2, decide_true, Bool.true_and, List.all_eq_true, decide_eq_true_eq]
        exact h3
      exact selfCalPhaseEnd_turns wf (State.selfPhaseEnds_measure (s := s.advance t) runs outcomes points phase due)

end Sys2Proof.Machine
end

section
/-!
Receipt of packets and interim notices (R330, R334, R343): the intake of each path at its cases, and a notice that is due.
-/
namespace Sys2Proof.Machine

section
variable {s : State} {t : Nat}

/-! Receipt. -/

/-- Out of RESET and HEARTWOOD a packet reaches its path's intake. -/
theorem commandReceive_turns (past : s.board.boot ≠ .reset) (self : s.board.boot ≠ .heartwood) {path : Path} {desc packet : Bytes} {g : State → State}
    (takes : (s.advance t).intake path desc packet = g (s.advance t)) : s.TurnsThen (.commandReceive t path desc packet) t g := by
  refine State.event_turnsThen (f := fun s => if s.board.boot = .reset || s.board.boot = .heartwood then s else s.intake path desc packet) rfl
    ((if_neg ?_).trans takes)
  have past : (s.advance t).board.boot ≠ .reset := past
  have self : (s.advance t).board.boot ≠ .heartwood := self
  simp [past, self]

/-- A packet that comes without a descriptor is received where its path has room, and counted where it has none. -/
theorem State.intake_direct (s : State) {path : Path} (desc packet : Bytes) (direct : path ≠ .pcie) : s.intake path desc packet =
    if 256 ≤ (s.path path).queue.length then s.countPath path fun c => { c with intakeFull := c.intakeFull + 1 } else s.receiveBytes path packet 0 0 := by
  cases path with
  | pcie => exact absurd rfl direct
  | bough => rfl
  | mailbox => rfl

section
variable (on : s.ringOn = true) (left : s.host.cmdHead ≠ s.host.cmdTail) (desc packet : Bytes)
include on left

/-- With the command ring on and a descriptor to take, it is taken where the path has room. -/
theorem State.intake_ring : s.intake .pcie desc packet =
    if 256 ≤ (s.path .pcie).queue.length then s.countPath .pcie fun c => { c with intakeFull := c.intakeFull + 1 }
    else
      let s1 := s.onHost fun h => { h with cmdHead := (h.cmdHead + 1) % 2 ^ 32 }
      if descriptorBad desc then
        let e := newEntry (headerOf s.now .pcie []) 0x10000 [] s.now true 0 0
        State.flush 800 .pcie (s1.onPath .pcie fun p => { p with queue := p.queue ++ [{ e with phase := .answered }] })
      else s1.receiveBytes .pcie (packet.take (leAt desc 20 2)) (leAt desc 8 8) (leAt desc 16 4) :=
  if_neg (by simp [on, left])

theorem State.intake_ring_full (full : 256 ≤ (s.path .pcie).queue.length) :
    s.intake .pcie desc packet = s.countPath .pcie fun c => { c with intakeFull := c.intakeFull + 1 } :=
  (State.intake_ring on left desc packet).trans (if_pos full)

variable (room : (s.path .pcie).queue.length < 256)
include room

theorem State.intake_ring_good (good : descriptorBad desc = false) : s.intake .pcie desc packet =
    (s.onHost fun h => { h with cmdHead := (h.cmdHead + 1) % 2 ^ 32 }).receiveBytes .pcie (packet.take (leAt desc 20 2)) (leAt desc 8 8) (leAt desc 16 4) :=
  (State.intake_ring on left desc packet).trans ((if_neg (Nat.not_le.mpr room)).trans (if_neg (by simp [good])))

theorem State.intake_ring_bad (bad : descriptorBad desc = true) : s.intake .pcie desc packet =
    State.flush 800 .pcie ((s.onHost fun h => { h with cmdHead := (h.cmdHead + 1) % 2 ^ 32 }).onPath .pcie fun p =>
      { p with queue := p.queue ++ [{ newEntry (headerOf s.now .pcie []) 0x10000 [] s.now true 0 0 with phase := .answered }] }) :=
  (State.intake_ring on left desc packet).trans ((if_neg (Nat.not_le.mpr room)).trans (if_pos bad))

end

/-! Notices. -/

/-- A notice leaves on its path: for ring 4, upward, or nowhere from the mailbox, whose calls take replies only. -/
def State.noticeLeaves (s : State) (path : Path) (n : Bytes) : State :=
  match path with
  | .pcie => s.toRing4 (replyCompletion n false 0)
  | .bough => s.sendUp n
  | .mailbox => s

section
variable {path : Path} {index : Nat} {e : Entry} (there : (s.path path).queue[index]? = some e) (due : s.noticeDue path e = true)
include there due

/-- A notice that is due without room for it is counted as skipped (R343). -/
theorem State.sendNotice_skips (room : s.noticeRoom path = false) : s.sendNotice path index =
    (s.onPath path fun p => { p with queue := modAt p.queue index fun x => { x with notices := x.notices + 1 } }).countPath path
      fun c => { c with noticeSkips := c.noticeSkips + 1 } := by
  simp [State.sendNotice, there, due, room]

/-- A notice that is due and has room is counted as sent and leaves on its path (R343). -/
theorem State.sendNotice_sends (room : s.noticeRoom path = true) : s.sendNotice path index =
    (((s.onPath path fun p => { p with queue := modAt p.queue index fun x => { x with notices := x.notices + 1 } }).countPath path
      fun c => { c with noticesSent := c.noticesSent + 1 }).onPath path fun p => { p with lastReply := s.notice path index e }).noticeLeaves path
        (s.notice path index e) := by
  cases path <;> simp [State.sendNotice, State.noticeLeaves, there, due, room]

end

/-- A notice falls due for a command that awaits its reply, once its time has come and where its path takes notices. -/
theorem State.noticeDue_of {path : Path} {e : Entry} (awaits : (s.path path).awaits e = true) (time : e.received + 20000000 + 80000000 * e.notices ≤ s.now)
    (ring : path = .pcie → s.ringOn = true) (past : s.board.boot ≠ .reset) : s.noticeDue path e = true := by
  have time : e.received + ms + 4 * ms * e.notices ≤ s.now := time
  have takes : (path ≠ .pcie || s.ringOn : Bool) = true := by
    by_cases pcie : path = .pcie
    · simp [ring pcie]
    · simp [pcie]
  simp only [State.noticeDue, awaits, time, takes, past, decide_true, Bool.and_true, ne_eq, not_false_eq_true]

end

/-- Settles O19: each path's intake at its cases, and a notice skipped or sent. -/
theorem packetsAreReceived : Obligations.PacketsAreReceived := by
  intro s t past self
  refine ⟨fun path desc packet direct => commandReceive_turns past self ((s.advance t).intake_direct desc packet direct),
    fun desc packet on left => ⟨fun full => ?_, fun room good => ?_, fun room bad => ?_⟩,
    fun path index e there awaits time ring => ⟨fun pcie full => ?_, fun room => ?_⟩⟩
  · exact commandReceive_turns past self (State.intake_ring_full (s := s.advance t) on left desc packet full)
  · exact commandReceive_turns past self (State.intake_ring_good (s := s.advance t) on left desc packet room good)
  · exact commandReceive_turns past self (State.intake_ring_bad (s := s.advance t) on left desc packet room bad)
  · have due : (s.advance t).noticeDue path e = true := State.noticeDue_of (s := s.advance t) awaits time ring past
    have none : (s.advance t).noticeRoom path = false := by
      have full : (s.advance t).ring4.full (s.advance t).host.ring = true := full
      simp [State.noticeRoom, pcie, full]
    exact State.event_turnsThen (f := fun s => s.sendNotice path index) rfl (State.sendNotice_skips (s := s.advance t) there due none)
  · have due : (s.advance t).noticeDue path e = true := State.noticeDue_of (s := s.advance t) awaits time ring past
    have room : (s.advance t).noticeRoom path = true := by
      have room : path = .pcie → (s.advance t).ring4.full (s.advance t).host.ring = false := room
      by_cases pcie : path = .pcie
      · simp [State.noticeRoom, room pcie]
      · simp [State.noticeRoom, pcie]
    exact State.event_turnsThen (f := fun s => s.sendNotice path index) rfl (State.sendNotice_sends (s := s.advance t) there due room)

end Sys2Proof.Machine
end

section
/-!
The rows of the firmware (R340, R405 to R417): the intake registers, COMMIT, and the causes and steps of a restart, each at the cases of its operation.
-/
namespace Sys2Proof.Machine

/-- The command that TAKE would return after the one last taken: of the first path in turn that has one (R340). -/
def State.nextTake (s : State) (turn : Nat) : Option (Path × Entry) :=
  ([1, 2, 3] : List Nat).findSome? fun k => (s.takeable (pathAt (turn + k))).map fun e => (pathAt (turn + k), e)

/-- Every path with the outdated commands at its turn discarded (R342). -/
def State.discardAllStale (s : State) : State := ((s.discardStale .pcie).discardStale .bough).discardStale .mailbox

theorem takeValue_eq (path : Path) (slot : Nat) (e : Entry) :
    takeValue path slot e = 2 ^ 63 + path.idx.val * 2 ^ 48 + slot * 2 ^ 32 + (20 + e.payload.length) := by
  simp [takeValue, bAt, at', Nat.shiftLeft_eq]

section
variable {s : State} {t : Nat} {core : Fin 4}

section
variable (runs : s.sapwood = true)
include runs

/-! The intake registers. -/

section
variable (stays : s.fw.restart = none)
include stays

theorem State.takeRead_none (none : s.discardAllStale.nextTake s.fw.turn = none) : s.takeRead core = s.discardAllStale.returns .sapwood 0 := by
  unfold State.nextTake State.discardAllStale at none
  simp only [State.takeRead, runs, stays, none]
  rfl

theorem State.takeRead_some {path : Path} {e : Entry} (found : s.discardAllStale.nextTake s.fw.turn = some (path, e)) : s.takeRead core =
    ((s.discardAllStale.onPath path fun p => p.onFirst fun x => { x with phase := .taken, slot := some s.discardAllStale.freeSlot }).onFw fun w =>
      { w with turn := path.idx.val }.took core.val s.discardAllStale.freeSlot).returns .sapwood
        (2 ^ 63 + path.idx.val * 2 ^ 48 + s.discardAllStale.freeSlot * 2 ^ 32 + (20 + e.payload.length)) := by
  rw [← takeValue_eq]
  unfold State.nextTake State.discardAllStale at found
  simp only [State.takeRead, runs, stays, found]
  rfl

end

theorem State.postReply_some {slot : Nat} {path : Path} {e : Entry} (length : Nat) (there : s.slotEntry slot = some (path, e)) :
    s.postReply slot length = State.flush 800 path (s.onSlot slot fun x => { x.answer (e.staged length) (leAt (e.staged length) 16 1 = 0) with slot := none }) := by
  simp [State.postReply, runs, there]

theorem State.postReply_none {slot : Nat} (length : Nat) (none : s.slotEntry slot = none) :
    s.postReply slot length = s.onFw fun w => { w with scErrors := w.scErrors + 1 } := by
  simp [State.postReply, runs, none]

theorem State.eventPost_inSram {addr : Nat} (inside : inSram addr 96 = true) : s.eventPost addr =
    (s.onEvents fun ev => { ev.enter (s.postedEvent (s.sramAt addr 96)) with seq := ev.seq + 1 }).eventUp (s.postedEvent (s.sramAt addr 96)) :=
  if_neg (by simp [runs, inside])

/-! COMMIT. -/

section
variable (stays : s.fw.restart = none) {v op : Nat} {b : Bytes} {c : Card} (card : s.commitOf v = some (op, b, c))
include stays card

theorem State.commitWrite_unnamed (unnamed : bit v 53 = false) : s.commitWrite v =
    c.after (c.run { tick := s.now, path := .pcie, flags := 0, ticket := 0, dest := 0, source := 0, reserved := 0 } s).1 := by
  simp [State.commitWrite, runs, stays, card, unnamed]

theorem State.commitWrite_named {path : Path} {e : Entry} (named : bit v 53 = true) (there : s.slotEntry (bits v 54 10) = some (path, e)) : s.commitWrite v =
    let fill := if bits v 40 13 = 0x1FFF then none else some (bits v 40 13)
    let out := c.run e.hdr s
    c.after ((out.1.countPath path fun k => { k with executed := k.executed + 1 }).onSlot (bits v 54 10) fun x => match out.2 with
      | .done r => { x with fill := fill }.filled r.result
      | .held k => { x with fill := fill, phase := .held k s.engineState }) := by
  simp only [State.commitWrite, runs, stays, card, named, there]
  rfl

end

end

/-! A restart. -/

theorem State.wdtExpired_of (runs : s.sapwood = true) (watched : (s.fw.cores.get core).parked = false)
    (late : (s.fw.cores.get core).kicked + s.fw.wdtPeriod * 20000000 ≤ s.now) : s.wdtExpired core = true := by
  have late : (s.fw.cores.get core).kicked + s.fw.wdtPeriod * ms ≤ s.now := late
  simp [State.wdtExpired, runs, watched, late]

theorem State.readyLate_of {r : Restart} (halts : s.fw.restart = some r) (started : r.started = true) (after : s.board.boot = .run)
    (late : r.since + 20000000000 ≤ s.now) : s.readyLate = s.fatal 0x0C07 0xF := by
  have late : r.since + second ≤ s.now := late
  exact if_pos (by simp [halts, started, after, late])

theorem State.verifyDone_of {r : Restart} (halts : s.fw.restart = some r) (unstarted : r.started = false) (after : s.board.boot = .run) (ok : Bool) :
    s.verifyDone ok = if ok = true then ((s.restoreSram true).startCores s.fw.restarts (r.cause + 1)).onFw fun w =>
      { w with restart := some { r with started := true, since := s.now } } else s.fatal 0x0C01 0xF := by
  simp [State.verifyDone, halts, unstarted, after]

end

/-- Settles O17: each row of the firmware at the cases of its operation, at its tick. -/
theorem firmwareRowsTakeEffect : Obligations.FirmwareRowsTakeEffect := by
  refine ⟨fun s t core runs => ?_, fun s t r halts unstarted after => ⟨?_, ?_⟩⟩
  · have runs : (s.advance t).sapwood = true := runs
    refine ⟨fun stays => ⟨fun none => ?_, fun path e found => ?_⟩, fun value => ⟨fun path e there => ?_, fun none => ?_⟩, fun addr inside => ?_,
      fun value op b c stays card => ⟨fun unnamed => ?_, fun path e named there => ?_⟩, ?_, fun value => ?_,
      fun pc addr => ⟨fun watched late => ?_, ?_, ?_⟩, fun r halts started after late => ?_⟩
    · exact State.event_turnsThen (f := fun s => s.takeRead core) rfl (State.takeRead_none runs stays none)
    · exact State.event_turnsThen (f := fun s => s.takeRead core) rfl (State.takeRead_some runs stays found)
    · exact State.event_turnsThen (f := fun s => s.postReply _ _) rfl (State.postReply_some runs _ there)
    · exact State.event_turnsThen (f := fun s => s.postReply _ _) rfl (State.postReply_none runs _ none)
    · exact State.event_turnsThen (f := fun s => s.eventPost _) rfl (State.eventPost_inSram runs inside)
    · exact State.event_turnsThen (f := fun s => s.commitWrite _) rfl (State.commitWrite_unnamed runs stays card unnamed)
    · exact State.event_turnsThen (f := fun s => s.commitWrite _) rfl (State.commitWrite_named runs stays card named there)
    · exact State.event_turnsThen (f := fun s => s.kick core) rfl (if_pos runs)
    · exact State.event_turnsThen (f := fun s => if s.sapwood then s.writeCore core 0x34 4 value.toNat else s) rfl (if_pos runs)
    · exact State.event_turnsThen (f := fun s => if s.wdtExpired core then s.restart 0 core pc.toNat 0 else s) rfl
        (if_pos (State.wdtExpired_of (s := s.advance t) runs watched late))
    · exact State.event_turnsThen (f := fun s => if s.sapwood then s.restart 1 core pc.toNat addr.toNat else s) rfl (if_pos runs)
    · exact State.event_turnsThen (f := fun s => if s.sapwood then s.restart 2 core pc.toNat 0 else s) rfl (if_pos runs)
    · exact State.event_turnsThen (f := State.readyLate) rfl (State.readyLate_of (s := s.advance t) halts started after late)
  · exact State.event_turnsThen (f := fun s => s.verifyDone true) rfl (State.verifyDone_of (s := s.advance t) halts unstarted after true)
  · exact State.event_turnsThen (f := fun s => s.verifyDone false) rfl (State.verifyDone_of (s := s.advance t) halts unstarted after false)

end Sys2Proof.Machine
end

section
/-!
Bough messages (R386, R430, R432, R438 to R442, R450): what becomes of the first message that arrived on a port, by its kind, its age, the device's role, and
its destination.
-/
namespace Sys2Proof.Machine

/-! Roles: an orphan is none of the others, and a manager or worker neither an orphan nor a sapling. -/

theorem Role.orphan_not {r : Role} (orphan : r.orphan = true) : r ≠ .sapling ∧ r ≠ .manager ∧ r ≠ .worker := by
  cases r <;> simp_all [Role.orphan]

theorem Role.joined_not {r : Role} (joined : r = .manager ∨ r = .worker) : r ≠ .sapling ∧ ¬ r.orphan = true := by
  rcases joined with rfl | rfl <;> exact ⟨nofun, nofun⟩

theorem Msg.old_iff (m : Msg) (now : Nat) : m.old now = true ↔ 100000 ≤ ageNow m.age m.since now := decide_eq_true_iff

/-- The first arrival of a port, where it is a message of the kind asked for. -/
theorem State.firstMsg_of {s : State} {p : Fin 5} {m : Msg} {n : Nat} {rest : List Arrived} {k : Nat} (first : (s.port p).arrived = .msg m n :: rest)
    (kind : m.rkind = k) : s.firstMsg p k = some (m, n) := by
  simp [State.firstMsg, first, kind]

/-! What each operation does with the first message of its kind. -/

section
variable {s : State} {p : Fin 5} {m : Msg} {n : Nat}

theorem State.unicast_first (first : s.firstMsg p 1 = some (m, n)) : s.unicast p =
    if m.old s.now then (s.passOn p n).ageDrop
    else if s.grove.role = .sapling then (s.passOn p n).saplingDrop
    else if s.grove.role.orphan then s.passOn p n
    else if m.target = s.grove.devaddr then (if s.boughFull then s else (s.passOn p n).takePacket m)
    else match s.grove.route m.target with
      | none => (s.passOn p n).onGrove fun g => { g with routeMisses := g.routeMisses + 1 }
      | some k => (s.passOn p n).sendOn (Fin.ofNat 5 k) m := by
  unfold State.unicast
  rw [first] <;> rfl

theorem State.floodIn_first (first : s.firstMsg p 3 = some (m, n)) : s.floodIn p =
    if m.old s.now then (s.passOn p n).ageDrop
    else if s.grove.role = .sapling then (s.passOn p n).saplingDrop
    else if s.grove.role.orphan then s.passOn p n
    else if s.member m.target then (if s.boughFull then s else ((s.passOn p n).flood m).takePacket m)
    else (s.passOn p n).flood m := by
  unfold State.floodIn
  rw [first]

theorem State.pathIn_first (first : s.firstMsg p 4 = some (m, n)) : s.pathIn p =
    if m.old s.now then (s.passOn p n).ageDrop
    else if s.grove.role.orphan then s.passOn p n
    else if m.hops = pathDepth m.path then (if s.boughFull then s else (s.passOn p n).takePacket m)
    else (s.passOn p n).sendOn (pathPort m.path (m.hops + 1)) { m with hops := m.hops + 1 } := by
  unfold State.pathIn
  rw [first]

theorem State.upIn_first (first : s.firstMsg p 2 = some (m, n)) : s.upIn p =
    if m.old s.now then (s.passOn p n).ageDrop
    else
      let s1 := (s.passOn p n).onGrove fun g => g.learn (leAt m.packet 8 2) p.val
      if s.grove.role.orphan then s1.onGrove fun g => { g with upDrops := g.upDrops + 1 }
      else if s.grove.role = .manager then s1.writeRemote m.packet
      else s1.onPort 0 fun b => b.push m s.now := by
  unfold State.upIn
  rw [first]

end

section
variable {s : State} {t : Nat} (on : s.boughOn = true) {i : Instr} (f : State → State) (row : exec i s = s.bough t f)
include on row

/-- A packet is taken where the intake has room, and left where it arrived where it has none (R334, R429). -/
theorem taken_turns {g : State → State} (takes : f (s.advance t) = if (s.advance t).boughFull then s.advance t else g (s.advance t)) :
    ((s.path .bough).queue.length < 256 → s.TurnsThen i t g) ∧ (256 ≤ (s.path .bough).queue.length → s.TurnsThen i t id) := by
  refine ⟨fun room => State.bough_turnsThen on f row (takes.trans (if_neg ?_)), fun full => State.bough_turnsThen on f row (takes.trans (if_pos ?_))⟩
  · exact ne_true_of_eq_false (decide_eq_false (Nat.not_le.mpr room))
  · exact decide_eq_true full

end

section
variable {s : State} {t : Nat} {p : Fin 5} {m : Msg} {n : Nat} (on : s.boughOn = true)
include on

theorem unicast_turns (first : (s.advance t).firstMsg p 1 = some (m, n)) : let g := s.grove
    let past := fun v : State => v.passOn p n
    let old := 100000 ≤ ageNow m.age m.since (max s.now t)
    (old → s.TurnsThen (.unicast t p) t fun v => (past v).ageDrop) ∧
    (¬ old → g.role = .sapling → s.TurnsThen (.unicast t p) t fun v => (past v).saplingDrop) ∧
    (¬ old → g.role.orphan = true → s.TurnsThen (.unicast t p) t past) ∧
    (¬ old → g.role = .manager ∨ g.role = .worker →
      (m.target = g.devaddr → ((s.path .bough).queue.length < 256 → s.TurnsThen (.unicast t p) t fun v => (past v).takePacket m) ∧
        (256 ≤ (s.path .bough).queue.length → s.TurnsThen (.unicast t p) t id)) ∧
      (m.target ≠ g.devaddr →
        (∀ k, g.route m.target = some k → s.TurnsThen (.unicast t p) t fun v => (past v).sendOn (Fin.ofNat 5 k) m) ∧
        (g.route m.target = none → s.TurnsThen (.unicast t p) t fun v => (past v).onGrove fun x => { x with routeMisses := x.routeMisses + 1 }))) := by
  intro g past old
  have takes := State.unicast_first first
  have turns {g : State → State} (h : (s.advance t).unicast p = g (s.advance t)) : s.TurnsThen (.unicast t p) t g :=
    State.bough_turnsThen on (·.unicast p) rfl h
  have young (h : ¬ old) := takes.trans (if_neg (fun k => h ((m.old_iff _).mp k)))
  refine ⟨fun late => turns (takes.trans (if_pos ((m.old_iff _).mpr late))), fun new sapling => turns ((young new).trans (if_pos sapling)),
    fun new orphan => turns ((young new).trans ((if_neg (Role.orphan_not orphan).1).trans (if_pos orphan))), fun new joined => ?_⟩
  obtain ⟨noSapling, noOrphan⟩ := Role.joined_not joined
  have joined := (young new).trans ((if_neg noSapling).trans (if_neg noOrphan))
  refine ⟨fun mine => taken_turns on (·.unicast p) rfl (joined.trans (if_pos mine)), fun other => ⟨fun k route => ?_, fun route => ?_⟩⟩
  · have route : (s.advance t).grove.route m.target = some k := route
    exact turns ((joined.trans (if_neg other)).trans (by rw [route]))
  · have route : (s.advance t).grove.route m.target = none := route
    exact turns ((joined.trans (if_neg other)).trans (by rw [route]))

theorem floodIn_turns (first : (s.advance t).firstMsg p 3 = some (m, n)) : let g := s.grove
    let past := fun v : State => v.passOn p n
    let old := 100000 ≤ ageNow m.age m.since (max s.now t)
    (old → s.TurnsThen (.flood t p) t fun v => (past v).ageDrop) ∧
    (¬ old → g.role = .sapling → s.TurnsThen (.flood t p) t fun v => (past v).saplingDrop) ∧
    (¬ old → g.role.orphan = true → s.TurnsThen (.flood t p) t past) ∧
    (¬ old → g.role = .manager ∨ g.role = .worker →
      (s.member m.target = true → ((s.path .bough).queue.length < 256 → s.TurnsThen (.flood t p) t fun v => ((past v).flood m).takePacket m) ∧
        (256 ≤ (s.path .bough).queue.length → s.TurnsThen (.flood t p) t id)) ∧
      (s.member m.target = false → s.TurnsThen (.flood t p) t fun v => (past v).flood m)) := by
  intro g past old
  have takes := State.floodIn_first first
  have turns {g : State → State} (h : (s.advance t).floodIn p = g (s.advance t)) : s.TurnsThen (.flood t p) t g :=
    State.bough_turnsThen on (·.floodIn p) rfl h
  have young (h : ¬ old) := takes.trans (if_neg (fun k => h ((m.old_iff _).mp k)))
  refine ⟨fun late => turns (takes.trans (if_pos ((m.old_iff _).mpr late))), fun new sapling => turns ((young new).trans (if_pos sapling)),
    fun new orphan => turns ((young new).trans ((if_neg (Role.orphan_not orphan).1).trans (if_pos orphan))), fun new joined => ?_⟩
  obtain ⟨noSapling, noOrphan⟩ := Role.joined_not joined
  have joined := (young new).trans ((if_neg noSapling).trans (if_neg noOrphan))
  exact ⟨fun member => taken_turns on (·.floodIn p) rfl (joined.trans (if_pos member)), fun other => turns (joined.trans (if_neg (ne_true_of_eq_false other)))⟩

theorem pathIn_turns (first : (s.advance t).firstMsg p 4 = some (m, n)) : let g := s.grove
    let past := fun v : State => v.passOn p n
    let old := 100000 ≤ ageNow m.age m.since (max s.now t)
    (old → s.TurnsThen (.path t p) t fun v => (past v).ageDrop) ∧
    (¬ old → g.role.orphan = true → s.TurnsThen (.path t p) t past) ∧
    (¬ old → g.role.orphan = false →
      (m.hops = pathDepth m.path → ((s.path .bough).queue.length < 256 → s.TurnsThen (.path t p) t fun v => (past v).takePacket m) ∧
        (256 ≤ (s.path .bough).queue.length → s.TurnsThen (.path t p) t id)) ∧
      (m.hops ≠ pathDepth m.path →
        s.TurnsThen (.path t p) t fun v => (past v).sendOn (pathPort m.path (m.hops + 1)) { m with hops := m.hops + 1 })) := by
  intro g past old
  have takes := State.pathIn_first first
  have turns {g : State → State} (h : (s.advance t).pathIn p = g (s.advance t)) : s.TurnsThen (.path t p) t g :=
    State.bough_turnsThen on (·.pathIn p) rfl h
  have young (h : ¬ old) := takes.trans (if_neg (fun k => h ((m.old_iff _).mp k)))
  refine ⟨fun late => turns (takes.trans (if_pos ((m.old_iff _).mpr late))), fun new orphan => turns ((young new).trans (if_pos orphan)), fun new joined => ?_⟩
  have joined := (young new).trans (if_neg (ne_true_of_eq_false joined))
  exact ⟨fun ends => taken_turns on (·.pathIn p) rfl (joined.trans (if_pos ends)), fun goes => turns (joined.trans (if_neg goes))⟩

theorem upIn_turns (first : (s.advance t).firstMsg p 2 = some (m, n)) : let g := s.grove
    let past := fun v : State => v.passOn p n
    let old := 100000 ≤ ageNow m.age m.since (max s.now t)
    let learns := fun v : State => (past v).onGrove fun x => x.learn (leAt m.packet 8 2) p.val
    (old → s.TurnsThen (.up t p) t fun v => (past v).ageDrop) ∧
    (¬ old → g.role.orphan = true → s.TurnsThen (.up t p) t fun v => (learns v).onGrove fun x => { x with upDrops := x.upDrops + 1 }) ∧
    (¬ old → g.role = .manager → s.TurnsThen (.up t p) t fun v => (learns v).writeRemote m.packet) ∧
    (¬ old → g.role = .worker ∨ g.role = .sapling → s.TurnsThen (.up t p) t fun v => (learns v).onPort 0 fun b => b.push m v.now) := by
  intro g past old learns
  have takes := State.upIn_first first
  have turns {g : State → State} (h : (s.advance t).upIn p = g (s.advance t)) : s.TurnsThen (.up t p) t g :=
    State.bough_turnsThen on (·.upIn p) rfl h
  have young (h : ¬ old) := takes.trans (if_neg (fun k => h ((m.old_iff _).mp k)))
  refine ⟨fun late => turns (takes.trans (if_pos ((m.old_iff _).mpr late))), fun new orphan => turns ((young new).trans (if_pos orphan)), fun new manager => ?_,
    fun new joined => ?_⟩
  · exact turns ((young new).trans ((if_neg (Role.joined_not (.inl manager)).2).trans (if_pos manager)))
  · have apart : ¬ g.role.orphan = true ∧ g.role ≠ .manager := by
      rcases joined with e | e <;> rw [e] <;> exact ⟨nofun, nofun⟩
    exact turns ((young new).trans ((if_neg apart.1).trans (if_neg apart.2)))

end

/-- Settles O31: each of the four rows at the cases of its operation. -/
theorem boughMessagesArePassedOn : Obligations.BoughMessagesArePassedOn := by
  intro s t p m n rest on first g past old dropped taken
  have found {k : Nat} (kind : m.rkind = k) : (s.advance t).firstMsg p k = some (m, n) := State.firstMsg_of (s := s.advance t) first kind
  exact ⟨fun kind => unicast_turns on (found kind), fun kind => floodIn_turns on (found kind), fun kind => pathIn_turns on (found kind),
    fun kind => upIn_turns on (found kind)⟩

end Sys2Proof.Machine
end

section
/-!
Link messages (R426, R431, R442, R447, R450 to R455): what the first link message of a port does, by its kind, the port, and the device's role.
-/
namespace Sys2Proof.Machine

/-- The first arrival of a port, where it is a link message of the kind asked for. -/
theorem State.firstLink_of {s : State} {p : Fin 5} {l : LinkMsg} {rest : List Arrived} {k : Nat} (first : (s.port p).arrived = .link l :: rest)
    (kind : l.kind = k) : s.firstLink p k = some l := by
  simp [State.firstLink, first, kind]

/-! A device's standing in the grove, which the raising of an event leaves alone. -/

/-- What a join is judged by: the device's role, its epoch, and its manager (R453). -/
def State.standing (s : State) : Role × Nat × Nat := (s.grove.role, s.grove.epoch, s.grove.manager)

theorem State.sendUp_standing (s : State) (pkt : Bytes) : (s.sendUp pkt).standing = s.standing := by
  unfold State.sendUp
  split <;> rfl

theorem State.eventUp_standing (s : State) (e : Event) : (s.eventUp e).standing = s.standing := by
  unfold State.eventUp
  split
  · exact State.sendUp_standing _ _
  · rfl

theorem State.raise_standing (s : State) (e : EventSpec) : (s.raise e).standing = s.standing := by
  unfold State.raise State.raiseAt
  dsimp only
  rw [State.eventUp_standing]
  split <;> rfl

theorem State.portUp_standing (s : State) (p : Fin 5) : (s.portUp p).standing = s.standing := State.raise_standing _ _

/-! The judgement of a join (R453). -/

section
variable {s : State} (p : Fin 5) {l : LinkMsg} {r : Role} {epoch manager : Nat} (stands : s.standing = (r, epoch, manager))
include stands

/-- A join is judged by the device's standing and by what the message says of its sender. -/
theorem State.judge_eq : s.judge p l =
    if l.role = 2 ∨ l.role = 4 ∨ l.role = 1 ∧ l.epoch = epoch ∧ l.manager = manager then s.onPort p fun b => { b with joinHeld := false, conflict := false }
    else if r = .sapling ∨ r.orphan = true then s.onPort p fun b => { b with joinHeld := true, conflict := false }
    else if epoch < l.epoch then (s.conflict p l.epoch).onPort p fun b => b.pushLink ((s.conflict p l.epoch).linkMsg 3 r) (s.conflict p l.epoch).now
    else
      let clear := s.onPort p fun b => { b with joinHeld := false, conflict := false }
      if l.role = 0 then clear.onPort p fun b => b.pushLink (clear.linkMsg 6 r) clear.now
      else (clear.onPort p fun b => b.pushLink (clear.linkMsg 2 r) clear.now).startRange p [] := by
  obtain ⟨rfl, rfl, rfl⟩ : s.grove.role = r ∧ s.grove.epoch = epoch ∧ s.grove.manager = manager := by simpa [State.standing] using stands
  simp only [State.judge, Bool.or_eq_true, Bool.and_eq_true, decide_eq_true_eq, or_assoc, and_assoc]

end

/-! What each operation does with the first link message of its kind. -/

section
variable {s : State} {p : Fin 5} {l : LinkMsg}

/-- What a HELLO leaves before it is judged: it is kept as the partner's, and brings a training port UP (R426). -/
def State.greeted (s : State) (p : Fin 5) (l : LinkMsg) : State :=
  let knows := (s.passOn p 0).onPort p fun b => { b with partner := some l }
  if (knows.port p).link = .training then knows.portUp p else knows

theorem State.greeted_standing : (s.greeted p l).standing = s.standing := by
  unfold State.greeted
  dsimp only
  split
  · exact State.portUp_standing _ _
  · rfl

theorem State.helloIn_up (first : s.firstLink p 1 = some l) (up : p = 0) : s.helloIn p = (s.greeted p l).onPort p fun b => b.pump s.now := by
  unfold State.helloIn
  rw [first]
  dsimp only
  rw [if_pos up]
  rfl

theorem State.helloIn_down (first : s.firstLink p 1 = some l) (down : p ≠ 0) :
    s.helloIn p = ((s.greeted p l).judge p l).onPort p fun b => b.pump s.now := by
  unfold State.helloIn
  rw [first]
  dsimp only
  rw [if_neg down]
  rfl

theorem State.joinAccept_first (first : s.firstLink p 2 = some l) : s.joinAccept p =
    if p = 0 ∧ (s.grove.role = .orphanRoot ∨ s.grove.role = .worker) then
      let u := (((s.passOn p 0).onPort 0 fun b => { b with conflict := false }).onGrove fun g =>
        { g with rejoin := if g.role = .orphanRoot then some (s.grove64, g.epoch) else g.rejoin }).leaveOrphan .worker l.epoch l.manager
      ((u.sendDown (u.linkMsg 5 .worker)).rejudge).sayHello
    else s.passOn p 0 := by
  unfold State.joinAccept
  rw [first]

theorem State.joinRefuse_first (first : s.firstLink p 3 = some l) : s.joinRefuse p = (s.passOn p 0).conflict p l.epoch := by
  unfold State.joinRefuse
  rw [first]

theorem State.orphanNotice_first (first : s.firstLink p 4 = some l) : s.orphanNotice p =
    if p = 0 ∧ (s.grove.role = .worker ∨ s.grove.role.orphan) then
      let u := (s.passOn p 0).enterOrphan .orphanMember
      (u.sendDown (u.linkMsg 4 .orphanMember)).sayHello
    else s.passOn p 0 := by
  unfold State.orphanNotice
  rw [first]

theorem State.epochSet_first (first : s.firstLink p 5 = some l) : s.epochSet p =
    if p = 0 ∧ s.grove.role ≠ .manager ∧ s.grove.role ≠ .sapling then
      let u := if l.role = 1 then (s.passOn p 0).leaveOrphan .worker l.epoch l.manager
        else ((s.passOn p 0).onGrove fun g => { g with epoch := l.epoch, manager := l.manager }).enterOrphan (Role.ofCode l.role)
      ((u.sendDown { l with devaddr := s.grove.devaddr }).rejudge).sayHello
    else s.passOn p 0 := by
  unfold State.epochSet
  rw [first]

theorem State.saplingSet_first (first : s.firstLink p 6 = some l) : s.saplingSet p =
    if p = 0 then
      (((s.passOn p 0).onGrove fun g => { g with
        role := .sapling, devaddr := 0, epoch := 0, routes := [], hasManager := false, aligned := false, depth := 0, rejoin := none }).sendDown
        { l with devaddr := 0 }).sayHello
    else s.passOn p 0 := by
  unfold State.saplingSet
  rw [first]

end

/-- A manager or sapling is no orphan, and neither a worker. -/
theorem Role.headed_not {r : Role} (headed : r = .manager ∨ r = .sapling) : ¬ (r = .worker ∨ r.orphan = true) := by
  rcases headed with rfl | rfl <;> simp [Role.orphan]

/-- Settles O32: each of the six rows at the cases of its operation; a HELLO from below by the judgement of joins. -/
theorem linkMessagesTakeEffect : Obligations.LinkMessagesTakeEffect := by
  intro s t p l rest on first g past
  have found {k : Nat} (kind : l.kind = k) : (s.advance t).firstLink p k = some l := State.firstLink_of (s := s.advance t) first kind
  have turns {i : Instr} (f : State → State) {g : State → State} (row : exec i s = s.bough t f) (h : f (s.advance t) = g (s.advance t)) :
      s.TurnsThen i t g := State.bough_turnsThen on f row h
  refine ⟨fun kind => ?hello, fun kind => ?accept, fun kind => turns (·.joinRefuse p) rfl (State.joinRefuse_first (found kind)), fun kind => ?notice,
    fun kind => ?epoch, fun kind => ?sapling⟩
  case hello =>
    intro knows rises clear send ends known
    have greets : rises (s.advance t) = (s.advance t).greeted p l := rfl
    have stands : (rises (s.advance t)).standing = (g.role, g.epoch, g.manager) := greets ▸ State.greeted_standing
    have pumped {f : State → State} (h : (s.advance t).helloIn p = (f (rises (s.advance t))).onPort p fun b => b.pump (s.advance t).now) :
        s.TurnsThen (.hello t p) t (ends f) := turns (·.helloIn p) rfl h
    have judged (down : p ≠ 0) {f : State → State} (h : (rises (s.advance t)).judge p l = f (rises (s.advance t))) : s.TurnsThen (.hello t p) t (ends f) :=
      pumped (by rw [State.helloIn_down (found kind) down, ← greets, h])
    refine ⟨fun up => ?_, fun down same => ?_, fun down other held => ?_, fun down other judges => ?_⟩
    · exact pumped (f := id) (by rw [State.helloIn_up (found kind) up, ← greets, id])
    · exact judged down (f := clear) ((State.judge_eq p stands).trans (if_pos same))
    · exact judged down (f := fun v => v.onPort p fun b => { b with joinHeld := true, conflict := false })
        ((State.judge_eq p stands).trans ((if_neg other).trans (if_pos held)))
    · obtain ⟨noSapling, noOrphan⟩ := Role.joined_not judges
      have judge := (State.judge_eq (l := l) p stands).trans ((if_neg other).trans (if_neg fun h => h.elim noSapling noOrphan))
      refine ⟨fun greater => judged down (f := fun v => send (v.conflict p l.epoch) 3) (judge.trans (if_pos greater)), fun less head => ?_, fun less below => ?_⟩
      · exact judged down (f := fun v => send (clear v) 6) (judge.trans ((if_neg (Nat.not_lt.mpr less)).trans (if_pos head)))
      · exact judged down (f := fun v => (send (clear v) 2).startRange p []) (judge.trans ((if_neg (Nat.not_lt.mpr less)).trans (if_neg below)))
  case accept =>
    have takes := State.joinAccept_first (found kind)
    exact ⟨fun up joins => turns (·.joinAccept p) rfl (takes.trans (if_pos ⟨up, joins⟩)), fun other => turns (·.joinAccept p) rfl
      (takes.trans (if_neg fun h => other.elim (· h.1) fun o => h.2.elim o.1 o.2))⟩
  case notice =>
    have takes := State.orphanNotice_first (found kind)
    exact ⟨fun up joins => turns (·.orphanNotice p) rfl (takes.trans (if_pos ⟨up, joins⟩)), fun other => turns (·.orphanNotice p) rfl
      (takes.trans (if_neg fun h => other.elim (· h.1) fun o => Role.headed_not o h.2))⟩
  case epoch =>
    have takes := State.epochSet_first (found kind)
    exact ⟨fun up noManager noSapling => turns (·.epochSet p) rfl (takes.trans (if_pos ⟨up, noManager, noSapling⟩)), fun other =>
      turns (·.epochSet p) rfl (takes.trans (if_neg fun h => other.elim (· h.1) fun o => o.elim h.2.1 h.2.2))⟩
  case sapling =>
    have takes := State.saplingSet_first (found kind)
    exact ⟨fun up => turns (·.saplingSet p) rfl (takes.trans (if_pos up)), fun other => turns (·.saplingSet p) rfl (takes.trans (if_neg other))⟩

end Sys2Proof.Machine
end

section
/-!
Bough ports (R426 to R432, R442, R450): lanes and fast retrains, blocks received, replayed and aged, and the time limits of a partition.
-/
namespace Sys2Proof.Machine

theorem State.port_onPort (s : State) (p : Fin 5) (f : BoughPort → BoughPort) : (s.onPort p f).port p = f (s.port p) := vmod_get_self ..

section
variable {s : State} {p : Fin 5}

/-! Lanes. -/

/-- The loss of a lane as the port shows it (R426). -/
def State.laneDark (s : State) (p : Fin 5) (lane : Fin 4) : State :=
  s.onPort p fun x => { x with lanes := x.lanes - at' (bits x.lanes lane.val 1) lane.val }

theorem State.laneDark_link (lane : Fin 4) : ((s.laneDark p lane).port p).link = (s.port p).link := by
  rw [State.laneDark, State.port_onPort]

theorem State.lanesLost_up (lane : Fin 4) (up : (s.port p).link = .up) : s.lanesLost p lane =
    (((s.laneDark p lane).onPort p fun x => x.goDown (s.now - 20000)).endRange p).raise { code := 0x0B81, obj := p.val } :=
  if_pos ((State.laneDark_link lane).trans up)

theorem State.lanesLost_else (lane : Fin 4) (other : (s.port p).link ≠ .up) : s.lanesLost p lane = s.laneDark p lane :=
  if_neg fun h => other ((State.laneDark_link lane).symm.trans h)

/-- A lane that locks on a port that is UP or retrains shows, and does no more. -/
theorem State.laneLock_kept (lane : Fin 4) (kept : (s.port p).link = .up ∨ (s.port p).link = .retraining) :
    s.laneLock p lane = s.onPort p fun x => { x with lanes := (s.port p).lanes ||| 2 ^ lane.val } := by
  unfold State.laneLock
  rcases kept with h | h <;> simp only [h]

/-- On another port the lanes train, and the last of them makes it say HELLO (R426, R429). -/
theorem State.laneLock_trains (lane : Fin 4) (noUp : (s.port p).link ≠ .up) (noRetrain : (s.port p).link ≠ .retraining) : s.laneLock p lane =
    let lanes := (s.port p).lanes ||| 2 ^ lane.val
    let trains := s.onPort p fun x =>
      { x with lanes := lanes, link := .training, credits := if x.hello = none ∧ x.lanes ≠ 15 then 64 else x.credits }
    if lanes = 15 then (trains.onPort p fun x => { x with hello := none }).sayHello else trains := by
  have credits : ∀ x : BoughPort, (x.hello.isNone && decide (x.lanes ≠ 15)) = true ↔ x.hello = none ∧ x.lanes ≠ 15 := fun x => by simp
  unfold State.laneLock
  cases link : (s.port p).link with
  | up => exact absurd link noUp
  | retraining => exact absurd link noRetrain
  | neverUp => simp only [credits]
  | training => simp only [credits]
  | down => simp only [credits]

/-! Blocks. -/

/-- A block that fails its check is answered with NAK (R428). -/
theorem State.blockIn_bad {block : Bytes} (sends : (s.port p).sends = true) (bad : block.length ≠ 1024 ∨ crcOk block = false) :
    s.blockIn p block = s.onPort p fun x => BoughPort.pump { x with nak := true } s.now := by
  unfold State.blockIn
  rw [if_neg (by simp [sends]), if_pos (by simpa using bad)]

/-- What a good block leaves before its own NAK is looked at: its acknowledgement and credits count, and it is accepted in order (R427 to R429). -/
def State.blockHeard (s : State) (p : Fin 5) (block : Bytes) : State :=
  let u := s.onPort p fun x => x.acked (leAt block 4 2) (leAt block 6 1) s.now
  if leAt block 0 1 = 6 then u
  else if leAt block 2 2 = (s.port p).rxSeq then u.onPort p fun x => x.accept (leAt block 0 1) ((block.drop 10).take (min 1010 (leAt block 8 2))) s.now
  else u.onPort p fun x => { x with ackDue := true }

theorem State.blockIn_good {block : Bytes} (sends : (s.port p).sends = true) (whole : block.length = 1024) (crc : crcOk block = true) :
    s.blockIn p block = (if bit (leAt block 1 1) 0 then (s.blockHeard p block).replayBlocks p else s.blockHeard p block).onPort p fun x => x.pump s.now := by
  have next : ((s.onPort p fun x => x.acked (leAt block 4 2) (leAt block 6 1) s.now).port p).rxSeq = (s.port p).rxSeq := by
    rw [State.port_onPort]
    rfl
  unfold State.blockIn
  rw [if_neg (by simp [sends]), if_neg (by simp [whole, crc])]
  simp only [next]
  rfl

theorem State.replayBlocks_again (waits : (s.port p).replay ≠ []) (few : ∀ x ∈ (s.port p).replay, x.resends < 8) :
    s.replayBlocks p = s.onPort p fun x => x.resendBlocks s.now := by
  have fresh : ¬ (s.port p).spent = true := by
    simpa [BoughPort.spent] using few
  exact (if_neg (by simpa using waits)).trans (if_neg fresh)

theorem State.replayBlocks_spent {x : OutBlock} (waits : x ∈ (s.port p).replay) (eight : 8 ≤ x.resends) : s.replayBlocks p = s.portDown p s.now := by
  have spent : (s.port p).spent = true := List.any_eq_true.mpr ⟨x, waits, decide_eq_true eight⟩
  exact (if_neg (by simpa using List.ne_nil_of_mem waits)).trans (if_pos spent)

/-! The time limits of a partition. -/

theorem State.upLost_of {since : Nat} (down : (s.port 0).downSince = some since) (late : since + ms ≤ s.now) : s.upLost = true :=
  (Option.any_eq_true ..).mpr ⟨since, down, decide_eq_true late⟩

end

/-- Settles O30: each row by what its operation does where its condition holds. -/
theorem boughPortEventsTakeEffect : Obligations.BoughPortEventsTakeEffect := by
  intro s t p on b
  have turns {i : Instr} (f : State → State) {g : State → State} (row : exec i s = s.bough t f) (h : f (s.advance t) = g (s.advance t)) :
      s.TurnsThen i t g := State.bough_turnsThen on f row h
  refine ⟨fun lane => ?lost, fun lane => ?lock, fun retrains => turns (·.retrained p) rfl (if_pos retrains), fun block sends => ?block,
    fun sends due waits => ?replay, turns (·.ageExpiry p) rfl rfl, fun since down late => ?partition⟩
  case lost =>
    exact ⟨fun up => turns (·.lanesLost p lane) rfl (State.lanesLost_up (s := s.advance t) lane up),
      fun other => turns (·.lanesLost p lane) rfl (State.lanesLost_else (s := s.advance t) lane other)⟩
  case lock =>
    refine ⟨fun kept => turns (·.laneLock p lane) rfl (State.laneLock_kept (s := s.advance t) lane kept), fun noUp noRetrain => ?_⟩
    have locks := State.laneLock_trains (s := s.advance t) lane noUp noRetrain
    exact ⟨fun some => turns (·.laneLock p lane) rfl (locks.trans (if_neg some)), fun all => turns (·.laneLock p lane) rfl (locks.trans (if_pos all))⟩
  case block =>
    refine ⟨fun bad => turns (·.blockIn p block) rfl (State.blockIn_bad (s := s.advance t) sends bad), fun whole crc => ?_⟩
    have heard := State.blockIn_good (s := s.advance t) sends whole crc
    refine ⟨fun calm => turns (·.blockIn p block) rfl (heard.trans ?_), fun nak => turns (·.blockIn p block) rfl (heard.trans ?_)⟩
    · rw [if_neg (ne_true_of_eq_false calm)]
      rfl
    · rw [if_pos nak]
      rfl
  case replay =>
    have due : ((s.advance t).port p).sends && decide (((s.advance t).port p).ackAt + 400000 ≤ (s.advance t).now) := by
      have due : ((s.advance t).port p).ackAt + 400000 ≤ (s.advance t).now := due
      have sends : ((s.advance t).port p).sends = true := sends
      simp [sends, due]
    have turns {g : State → State} (h : (s.advance t).replayBlocks p = g (s.advance t)) : s.TurnsThen (.blockReplayTimeout t p) t g :=
      turns (fun s => if (s.port p).sends && (s.port p).ackAt + 400000 ≤ s.now then s.replayBlocks p else s) rfl ((if_pos due).trans h)
    exact ⟨fun few => turns (State.replayBlocks_again (s := s.advance t) waits few),
      fun x there eight => turns (State.replayBlocks_spent (s := s.advance t) there eight)⟩
  case partition =>
    have lost : (s.advance t).upLost = true := State.upLost_of (s := s.advance t) down late
    refine ⟨fun role => turns (·.orphanTimeout) rfl (if_pos ?_), fun role => turns (·.saplingTimeout) rfl (if_pos ?_)⟩
    · have role : (s.advance t).grove.role = .worker ∨ (s.advance t).grove.role = .orphanMember := role
      simpa [lost] using role
    · have role : (s.advance t).grove.role = .sapling := role
      simp [lost, role]

end Sys2Proof.Machine
end
